-- ==== Sys2Proof/Word.lean ====
section
/-! DEFINITION. The word types of PNV-HL1 (00 R11): bytes, 32-bit words, 64-bit memory words and the 512-bit
descriptors and mailbox slots, with the plain field reader every layer shares. -/

namespace Sys2Proof

/-- A byte of memory or of a payload. -/
abbrev Byte := BitVec 8

/-- A word is 32 bits (R11). -/
abbrev Word := BitVec 32

/-- A core number, C0 to C15 (Table SCO-3). -/
abbrev CoreId := Fin 16

/-- An engine of a core, E0 to E3. -/
abbrev EngId := Fin 4

/-- An accumulation group of an engine, G0 to G7. -/
abbrev GroupId := Fin 8

/-- The number read from `w` bits of `v` starting at bit `lo`, bit 0 least significant (R11). -/
def field (v lo w : Nat) : Nat := (v >>> lo) % 2 ^ w

/-- One bit of a number. -/
def bitOf (v i : Nat) : Bool := field v i 1 == 1

end Sys2Proof
end

