-- ==== Sys2Proof/Syntax.lean ====
section
/-! DEFINITION. The commands of the block: one constructor of `Instr` per row of the opcode table, with the operands
that reach the die from outside its own state (what a pin, a sensor, a peer die or a port holder supplies, and the
choices the manual leaves to Bronze or Campanile). What the die already holds (descriptors, instructions, packets in
its buffers, command slots) is read from State by the command's meaning. -/

namespace Sys2Proof

/-- A Parapet edge: N = 0, E = 1, S = 2, W = 3 (R20). -/
abbrev EdgeId := Fin 4

/-- A unit of a core, numbered as Table SYN-3: engines 0 to 3, vector engine 4, mover 5, sequencer 6. -/
inductive UnitId where
  | eng (e : EngId) | vec | mover | seq
deriving DecidableEq, Repr

/-- The two control ports (R362). -/
inductive CtlPort where
  | A | B
deriving DecidableEq, Repr

/-- Whether a descriptor row is its dispatch by the sequencer (R166) or its performance by the unit that
queued it (R165). -/
inductive DescAct where
  | dispatch | perform
deriving DecidableEq, Repr

/-- The same for an ACC operation: dispatch into the engine queue, or performance in engine `e` (R118). -/
inductive AccAct where
  | dispatch | perform (e : EngId)
deriving DecidableEq, Repr

/-- Which held descriptor a run-ahead read serves (R189): the `k`-th beyond an unmet WAIT, or an entry of the
mover's queue behind its head. -/
inductive PrefetchSrc where
  | ahead (k : Fin 16) | moverQueue (k : Fin 64)
deriving DecidableEq, Repr

/-- The agent making a register access: a unit of a core (R24), a core's network interface acting for a master of
another core, or Campanile (which also stands for control-port traffic on MGT). -/
inductive Master where
  | unit (c : CoreId) (u : UnitId) | netif (c : CoreId) | campanile
deriving DecidableEq, Repr

/-- The two ring configuration registers of R162. -/
inductive RingReg where
  | base | size
deriving DecidableEq, Repr

/-- The source of an injected packet (R278): the mover or an engine of a core, or Campanile (PROMOTE_SPARE). -/
inductive InjectSrc where
  | unit (c : CoreId) (u : UnitId) | campanile
deriving DecidableEq, Repr

/-- Spire ports of Table FAB-1. -/
inductive SpirePort where
  | edge (e : EdgeId) | loc | mgmt
deriving DecidableEq, Repr

/-- Buffer classes at a port: the VCs of R265 with the two ESC classes apart (coded as CVC of Table PAR-7). -/
inductive VcClass where
  | req | rsp | mgt | escReq | escRsp
deriving DecidableEq, Repr

/-- A core or a Dome slice (R19, R233). -/
inductive Resource where
  | core (c : CoreId) | slice (s : Fin 8)
deriving DecidableEq, Repr

/-- An upset that strikes a stored SRAM word before an access checks it: the byte address of the word, and whether the
damage is uncorrectable (R235, R236). -/
structure Upset where
  addr : Nat
  double : Bool
deriving DecidableEq, Repr

/-- A Spire packet: the header of Table FAB-2 (the reserved bits are not held) and the payload. -/
structure Packet where
  vc : BitVec 2
  epoch : Bool
  amode : Bool
  opcode : BitVec 6
  len : BitVec 6
  pkey : BitVec 16
  destDie : BitVec 6
  destCore : BitVec 4
  destUnit : BitVec 4
  destRank : BitVec 12
  mc : Bool
  spec : Bool
  turned : Bool
  down : Bool
  escP : Bool
  srcDie : BitVec 6
  srcCore : BitVec 4
  srcUnit : BitVec 4
  tag : BitVec 12
  hops : BitVec 6
  window : BitVec 8
  sigCnt : BitVec 6
  sigInc : BitVec 16
  offset : BitVec 32
  seq : BitVec 16
  aux : BitVec 16
  poison : BitVec 64
  payload : List Byte
deriving DecidableEq, Repr

/-- What a peer's module reports in SB_EXCHANGE (R301), with its two repair words (R305), or the rate a UCIe
partner accepts (R316; none: it does not answer or does not accept the terms). -/
structure ModulePeer where
  m : Fin 20
  dieId : BitVec 6
  x : BitVec 3
  y : BitVec 3
  edge : BitVec 2
  module : BitVec 5
  att : BitVec 3
  repairTx : Word
  repairRx : Word
  ucieRate : Option (Fin 4)
deriving DecidableEq, Repr

/-- The outcome of the MB_INIT test of one direction of a module: the failing data and spare lanes, and which of the
clock pair, valid lane, its spare, track lane and its spare fail (R305). -/
structure DirTest where
  lanes : List (Fin 68)
  clk : Bool
  vld : Bool
  vldSpare : Bool
  trk : Bool
  trkSpare : Bool
deriving DecidableEq, Repr

/-- The MB_INIT test of one module in both directions (R305), and in UCIe mode the maps that the standard's repair produced for TX and RX, in
the layout of Table PAR-5 (R315, R316; none: the standard's initialisation failed). -/
structure LaneTest where
  m : Fin 20
  tx : DirTest
  rx : DirTest
  ucie : Option (Word × Word)
deriving DecidableEq, Repr

/-- The modules that pass the eye check at one rate, coded as TARGET_RATE (R302). -/
structure RateEye where
  rate : Fin 4
  pass : BitVec 20
deriving DecidableEq, Repr

/-- One flit received on one module: byte 0 in bits [7:0] (Table PAR-6); `off` when the module's sideband asks for its switch-off in this slot
time (R312 step 1). -/
structure FlitIn where
  m : Fin 20
  bits : BitVec 2048
  off : Bool
deriving DecidableEq, Repr

/-- How a retrain ends (R313), and the modules whose switch-off the peer asked for during it (R314). -/
structure RetrainEnd where
  ok : Bool
  off : BitVec 20
deriving DecidableEq, Repr

/-- The activity model's prediction in one fast-loop evaluation: die power in 1/16 W and VDD_ENG current in mA
(R335; the manual gives no formula for the model). -/
structure Prediction where
  power : Nat
  current : Nat
  nextPower : Nat
  nextCurrent : Nat
deriving DecidableEq, Repr

/-- A frequency evaluation of a core, with Bronze's prediction of the die's power (1/16 W) and VDD_ENG current (mA) at the core's next step
(R336). -/
structure FreqTry where
  core : CoreId
  power : Nat
  current : Nat
deriving DecidableEq, Repr

/-- The memories a BIST marches (Table PHY-9). -/
inductive BistTarget where
  | cupola (c : CoreId) | lantern (c : CoreId) (e : EngId) | dome (s : Fin 8) | campanile
deriving DecidableEq, Repr

/-- A boundary scan: what is shifted into the 336 cells, and what the scan captured at the pins. -/
structure BoundaryScan where
  cells : BitVec 336
  pins : BitVec 336
deriving DecidableEq, Repr

/-- A loop-back test: its rate (4, 8, 12, 16 GT/s as 0 to 3) and the failing lanes in the layout of Table PAR-5. -/
structure LoopBack where
  rate : Fin 4
  failing : Word
deriving DecidableEq, Repr

/-- A BIST starts, or ends with the failure count and the first failing bank and row (Table PHY-9). -/
inductive BistPhase where
  | start | finish (failures : Nat) (bank row : Nat)
deriving DecidableEq, Repr

/-- The two objects of the image store (R418). -/
inductive FetchObject where
  | image | calibration
deriving DecidableEq, Repr

/-- A command of the block: one row of the opcode table. -/
inductive Instr where
  /-- LOADB (R172). -/
  | loadb (c : CoreId)
  /-- LOADB_STAGING (R37). -/
  | loadbStaging (c : CoreId) (e : EngId)
  /-- TILE_INSTALL (R39). -/
  | tileInstall (c : CoreId) (e : EngId)
  /-- STREAM (R173). -/
  | stream (c : CoreId)
  /-- STEP_ENTRY (R57). -/
  | stepEntry (c : CoreId) (e : EngId)
  /-- STEP_REPLAY (R107). -/
  | stepReplay (c : CoreId) (e : EngId)
  /-- PROMOTION (R111). -/
  | promotion (c : CoreId) (e : EngId)
  /-- OPEN_ZERO (R116). -/
  | openZero (c : CoreId) (a : AccAct)
  /-- OPEN_CUPOLA (R116). -/
  | openCupola (c : CoreId) (a : AccAct)
  /-- OPEN_GROUP (R116). -/
  | openGroup (c : CoreId) (a : AccAct)
  /-- OPEN_CHAIN (R123). -/
  | openChain (c : CoreId) (a : AccAct)
  /-- CLOSE (R119). -/
  | close (c : CoreId) (a : AccAct)
  /-- CLOSE_CHAIN (R122). -/
  | closeChain (c : CoreId) (a : AccAct)
  /-- SAVE (R116). -/
  | save (c : CoreId) (a : AccAct)
  /-- STATUS (R121). -/
  | status (c : CoreId) (a : AccAct)
  /-- VEC (R176). -/
  | vec (c : CoreId) (a : DescAct)
  /-- MOVE (R177). -/
  | move (c : CoreId) (a : DescAct)
  /-- GATHER (R155). -/
  | gather (c : CoreId) (a : DescAct)
  /-- SCATTER (R151). -/
  | scatter (c : CoreId) (a : DescAct)
  /-- REMOTE_WRITE (R179). -/
  | remoteWrite (c : CoreId) (a : DescAct)
  /-- REMOTE_READ (R179). -/
  | remoteRead (c : CoreId) (a : DescAct)
  /-- MCAST (R179). -/
  | mcast (c : CoreId) (a : DescAct)
  /-- COMPRESS (R135). -/
  | compress (c : CoreId) (a : DescAct)
  /-- WAIT (R181). -/
  | wait (c : CoreId)
  /-- SIGNAL (R182). -/
  | signal (c : CoreId) (a : DescAct)
  /-- JUMP (R183). -/
  | jump (c : CoreId)
  /-- REPEAT (R184). -/
  | repeatDesc (c : CoreId)
  /-- PHASE (R186). -/
  | phase (c : CoreId)
  /-- FENCE (R187). -/
  | fence (c : CoreId)
  /-- HALT (R188). -/
  | halt (c : CoreId)
  /-- HEADER_WAIT_MET (R168). -/
  | headerWaitMet (c : CoreId) (u : UnitId)
  /-- DESCRIPTOR_RETIRE (R169). -/
  | descriptorRetire (c : CoreId) (u : UnitId)
  /-- PREFETCH (R189). -/
  | prefetch (c : CoreId) (src : PrefetchSrc)
  /-- NOP (R198). -/
  | nop (c : CoreId)
  /-- END (R200). -/
  | endProg (c : CoreId)
  /-- SETVL (R198). -/
  | setvl (c : CoreId)
  /-- LIL (R198). -/
  | lil (c : CoreId)
  /-- LIH (R198). -/
  | lih (c : CoreId)
  /-- ADDA (R198). -/
  | adda (c : CoreId)
  /-- BNZ (R198). -/
  | bnz (c : CoreId)
  /-- SPLAT (R198). -/
  | splat (c : CoreId)
  /-- LD (R201). -/
  | ld (c : CoreId)
  /-- ST (R201). -/
  | st (c : CoreId)
  /-- LDS (R202). -/
  | lds (c : CoreId)
  /-- STS (R202). -/
  | sts (c : CoreId)
  /-- ADD (R198). -/
  | add (c : CoreId)
  /-- SUB (R198). -/
  | sub (c : CoreId)
  /-- MUL (R198). -/
  | mul (c : CoreId)
  /-- FMA (R198). -/
  | fma (c : CoreId)
  /-- MAX (R94). -/
  | max (c : CoreId)
  /-- MIN (R94). -/
  | min (c : CoreId)
  /-- ABS (R198). -/
  | abs (c : CoreId)
  /-- NEG (R198). -/
  | neg (c : CoreId)
  /-- MOV (R198). -/
  | mov (c : CoreId)
  /-- CMPEQ (R198). -/
  | cmpeq (c : CoreId)
  /-- CMPNE (R198). -/
  | cmpne (c : CoreId)
  /-- CMPLT (R198). -/
  | cmplt (c : CoreId)
  /-- CMPLE (R198). -/
  | cmple (c : CoreId)
  /-- SEL (R198). -/
  | sel (c : CoreId)
  /-- RECIP (R445). -/
  | recip (c : CoreId)
  /-- RSQRT (R445). -/
  | rsqrt (c : CoreId)
  /-- EXP2 (R445). -/
  | exp2 (c : CoreId)
  /-- LOG2 (R445). -/
  | log2 (c : CoreId)
  /-- RSUM (R204). -/
  | rsum (c : CoreId)
  /-- RMAX (R204). -/
  | rmax (c : CoreId)
  /-- RMIN (R204). -/
  | rmin (c : CoreId)
  /-- ACCSQ (R205). -/
  | accsq (c : CoreId)
  /-- WELFORD (R206). -/
  | welford (c : CoreId)
  /-- MERGE (R206). -/
  | merge (c : CoreId)
  /-- RMERGE (R206). -/
  | rmerge (c : CoreId)
  /-- TOPK (R207). -/
  | topk (c : CoreId)
  /-- CVT (R208). -/
  | cvt (c : CoreId)
  /-- CVT_AMAX (R210). -/
  | cvtAmax (c : CoreId)
  /-- SEQ_TAIL_WRITE (R160). -/
  | seqTailWrite (m : Master) (c : CoreId) (v : Word)
  /-- RESUME (R188). -/
  | resume (m : Master) (c : CoreId)
  /-- SEQ_RING_CONFIG_WRITE (R162). -/
  | seqRingConfigWrite (m : Master) (c : CoreId) (reg : RingReg) (v : Word)
  /-- VEC_SR_SEED_WRITE (R80). -/
  | vecSrSeedWrite (m : Master) (c : CoreId) (v : Word)
  /-- CORE_CNT_WRITE (R242). -/
  | coreCntWrite (m : Master) (c : CoreId) (n : Fin 64) (v : Word)
  /-- CORE_CNT_ADD (R243). -/
  | coreCntAdd (m : Master) (c : CoreId) (n : Fin 64) (v : Word)
  /-- CORE_CNT_SUB (R243). -/
  | coreCntSub (m : Master) (c : CoreId) (n : Fin 64) (v : Word)
  /-- CORE_BELL_RING (R246). -/
  | coreBellRing (m : Master) (c : CoreId) (v : Word)
  /-- REGISTER_WRITE (R12): `width` in bytes. -/
  | registerWrite (m : Master) (addr : BitVec 40) (width : Nat) (v : Word)
  /-- RC_READ (R13): `width` in bytes. -/
  | rcRead (m : Master) (addr : BitVec 40) (width : Nat)
  /-- LO_READ_CAPTURE (R69): `width` in bytes. -/
  | loReadCapture (m : Master) (addr : BitVec 40) (width : Nat)
  /-- WAIT_RETEST (R247). -/
  | waitRetest (c : CoreId) (u : UnitId)
  /-- WAIT_TIMEOUT (R251). -/
  | waitTimeout (c : CoreId) (u : UnitId) (g : Option GroupId)
  /-- ANSWER_WAIT_TIMEOUT (R252). -/
  | answerWaitTimeout (c : CoreId) (u : UnitId) (tag : Nat)
  /-- ACC_CHAIN_RESEND (R123). -/
  | accChainResend (c : CoreId) (e : EngId) (g : GroupId) (b : Fin 16)
  /-- PACKET_INJECTION (R278). -/
  | packetInjection (src : InjectSrc)
  /-- ROUTER_HOP (R266). -/
  | routerHop (port : SpirePort) (vc : VcClass) (pkt : Option Packet)
  /-- WRITE (R279). -/
  | write
  /-- WRITE_SIGNAL (R253). -/
  | writeSignal
  /-- READ (R279). -/
  | read
  /-- READ_RSP (R278). -/
  | readRsp
  /-- SIGNAL_PACKET (R229). -/
  | signalPacket
  /-- HELD_SIGNAL_PERFORM (R253). -/
  | heldSignalPerform
  /-- ACC_CHAIN (R123). -/
  | accChain
  /-- NACK (R263). -/
  | nack
  /-- FENCE_MARK (R279). -/
  | fenceMark
  /-- EPOCH_MARK (R286). -/
  | epochMark
  /-- VIOLATION_NOTICE (R277). -/
  | violationNotice
  /-- MGMT (R364). -/
  | mgmt
  /-- BLF_PORT_CMD_TAIL_WRITE (R369). -/
  | blfPortCmdTailWrite (p : CtlPort) (v : Word)
  /-- BLF_PORT_RSP_HEAD_WRITE (R371). -/
  | blfPortRspHeadWrite (p : CtlPort) (v : Word)
  /-- SEM_TAKE (R376). -/
  | semTake (p : CtlPort) (n : Fin 32) (lease : BitVec 16)
  /-- SEM_RENEW (R376). -/
  | semRenew (p : CtlPort) (n : Fin 32) (lease : BitVec 16)
  /-- SEM_RELEASE (R376). -/
  | semRelease (p : CtlPort) (n : Fin 32)
  /-- SEM_BREAK (R376). -/
  | semBreak (p : CtlPort) (n : Fin 32) (lease : BitVec 16)
  /-- SEM_LEASE_LAPSE (R376). -/
  | semLeaseLapse (n : Fin 32)
  /-- PORT_RESET (R382). -/
  | portReset (p : CtlPort)
  /-- COMMAND_TAKE (R370). -/
  | commandTake (p : CtlPort)
  /-- RESPONSE_WRITE (R371). -/
  | responseWrite (p : CtlPort)
  /-- GET_IDENTITY (R386). -/
  | getIdentity (p : CtlPort)
  /-- GET_STATE (R386). -/
  | getState (p : CtlPort)
  /-- GET_FUSES (R386). -/
  | getFuses (p : CtlPort)
  /-- SUBSCRIBE_TELEMETRY (R351). -/
  | subscribeTelemetry (p : CtlPort)
  /-- CREATE_PARTITION (R386). -/
  | createPartition (p : CtlPort)
  /-- DESTROY_PARTITION (R232). -/
  | destroyPartition (p : CtlPort)
  /-- ASSIGN_CORES (R232). -/
  | assignCores (p : CtlPort)
  /-- SET_PORT_KEYS (R275). -/
  | setPortKeys (p : CtlPort)
  /-- OPEN_WINDOW (R225). -/
  | openWindow (p : CtlPort)
  /-- CLOSE_WINDOW (R230). -/
  | closeWindow (p : CtlPort)
  /-- LIST_WINDOWS (R386). -/
  | listWindows (p : CtlPort)
  /-- LOAD_ROUTE_TABLE (R285). -/
  | loadRouteTable (p : CtlPort)
  /-- LOAD_RANK_TABLE (R285). -/
  | loadRankTable (p : CtlPort)
  /-- EPOCH_FLIP (R286). -/
  | epochFlip (p : CtlPort)
  /-- EPOCH_STATUS (R290). -/
  | epochStatus (p : CtlPort)
  /-- MCAST_GROUP (R281). -/
  | mcastGroup (p : CtlPort)
  /-- LINK_STATUS (R386). -/
  | linkStatus (p : CtlPort)
  /-- LINK_RETRAIN (R313). -/
  | linkRetrain (p : CtlPort)
  /-- MODULE_DISABLE (R314). -/
  | moduleDisable (p : CtlPort)
  /-- LANE_REPORT (R386). -/
  | laneReport (p : CtlPort)
  /-- SET_CAP (R337). -/
  | setCap (p : CtlPort)
  /-- GET_CAP (R337). -/
  | getCap (p : CtlPort)
  /-- SET_RAMP (R386). -/
  | setRamp (p : CtlPort)
  /-- SET_BALLAST (R341). -/
  | setBallast (p : CtlPort)
  /-- ENERGY_READ (R349). -/
  | energyRead (p : CtlPort)
  /-- JOB_BEGIN (R350). -/
  | jobBegin (p : CtlPort)
  /-- JOB_END (R350). -/
  | jobEnd (p : CtlPort)
  /-- PHASE_TABLE (R343). -/
  | phaseTable (p : CtlPort)
  /-- CORE_POWER (R330). -/
  | corePower (p : CtlPort)
  /-- CORE_RESET (R427). -/
  | coreReset (p : CtlPort)
  /-- CORE_FMAX (R354). -/
  | coreFmax (p : CtlPort)
  /-- ERR_LOG_READ (R393). -/
  | errLogRead (p : CtlPort)
  /-- ERR_CLEAR (R393). -/
  | errClear (p : CtlPort)
  /-- FREEZE (R400). -/
  | freeze (p : CtlPort)
  /-- UNFREEZE (R400). -/
  | unfreeze (p : CtlPort)
  /-- FENCE_DIE (R406). -/
  | fenceDie (p : CtlPort)
  /-- PROMOTE_SPARE (R410). -/
  | promoteSpare (p : CtlPort)
  /-- MIRROR_CFG (R408). -/
  | mirrorCfg (p : CtlPort)
  /-- WAIT_GRAPH (R255). -/
  | waitGraph (p : CtlPort)
  /-- CAL_READ (R386). -/
  | calRead (p : CtlPort)
  /-- CAL_WRITE (R357). -/
  | calWrite (p : CtlPort)
  /-- FW_STAGE (R386). -/
  | fwStage (p : CtlPort)
  /-- FW_ACTIVATE (R389). -/
  | fwActivate (p : CtlPort)
  /-- SCRUB_CFG (R240). -/
  | scrubCfg (p : CtlPort)
  /-- SCRUB_STATUS (R386). -/
  | scrubStatus (p : CtlPort)
  /-- TENANT_CLEAR (R233). -/
  | tenantClear (pkey : BitVec 16)
  /-- ZEROING_DONE (R233). -/
  | zeroingDone (res : Resource)
  /-- SCRUB_LINE (R237). -/
  | scrubLine (u : Fin 24) (strikes : List Upset)
  /-- SCRUB_PERIOD_END (R237). -/
  | scrubPeriodEnd (u : Fin 24)
  /-- SB_DETECT (R300). -/
  | sbDetect (e : EdgeId)
  /-- NO_PEER (R303). -/
  | noPeer (e : EdgeId)
  /-- SB_EXCHANGE (R301). -/
  | sbExchange (e : EdgeId) (peers : List ModulePeer)
  /-- MB_INIT (R305). -/
  | mbInit (e : EdgeId) (tests : List LaneTest)
  /-- MB_TRAIN (R302). -/
  | mbTrain (e : EdgeId) (eyes : List RateEye)
  /-- LINK_INIT (R280). -/
  | linkInit (e : EdgeId)
  /-- FLIT (R311). -/
  | flit (e : EdgeId) (flits : List FlitIn)
  /-- REPLAY_TIMEOUT (R311). -/
  | replayTimeout (e : EdgeId)
  /-- RETRY_WINDOW_END (R312). -/
  | retryWindowEnd (e : EdgeId) (m : Fin 20)
  /-- RETRAIN (R313). -/
  | retrain (e : EdgeId) (fin : RetrainEnd)
  /-- CREDIT_TIMEOUT (R280). -/
  | creditTimeout (e : EdgeId) (vc : VcClass)
  /-- BELL_WAKE (R248). -/
  | bellWake (c : CoreId)
  /-- CORE_WAKE (R329). -/
  | coreWake (c : CoreId) (railOk : Bool)
  /-- IDLE_TIMEOUT (R330). -/
  | idleTimeout (c : CoreId)
  /-- D2_ENTRY (R402). -/
  | d2Entry
  /-- FAST_LOOP (R335). -/
  | fastLoop (pred : Prediction) (choice : List (BitVec 5))
  /-- FREQUENCY_STEP (R336). -/
  | frequencyStep (f : FreqTry)
  /-- INTERVAL_END (R334). -/
  | intervalEnd (demand : BitVec 16)
  /-- VDD_ENG_SAMPLE (R322). -/
  | vddEngSample (mv : Nat) (ma : Nat)
  /-- RAIL_CURRENT_SAMPLE (R322). -/
  | railCurrentSample (mem : Nat) (io : Nat) (aon : Nat)
  /-- AVS_ERR (R323). -/
  | avsErr
  /-- AVS_RETRY (R323). -/
  | avsRetry (ok : Bool)
  /-- PWR_ALERT_N (R345). -/
  | pwrAlertN
  /-- ALERT_HOLD_RELEASE (R345). -/
  | alertHoldRelease
  /-- DROOP_TRIP (R344). -/
  | droopTrip (c : CoreId) (d : Fin 4)
  /-- THERMAL_THROTTLE (R346). -/
  | thermalThrottle (readings : List (BitVec 12))
  /-- THERMAL_TRIP (R347). -/
  | thermalTrip (sensor : Fin 40) (temp : BitVec 12)
  /-- FATAL_EDGE_OFF (R403). -/
  | fatalEdgeOff
  /-- FMAX_AGEING (R353). -/
  | fmaxAgeing (c : CoreId)
  /-- TIME_SYNC (R328). -/
  | timeSync (e : EdgeId) (stamp : Nat) (roundTrip : Nat)
  /-- TIME_SYNC_SEND (R328). -/
  | timeSyncSend
  /-- UNSYNC (R328). -/
  | unsync
  /-- WATCHDOG (R425). -/
  | watchdog
  /-- PORST_N_ASSERT (R424). -/
  | porstAssert
  /-- PORST_N_RELEASE (R415). -/
  | porstRelease (aged : List Nat)
  /-- IMAGE_FETCH (R418). -/
  | imageFetch
  /-- IMAGE_FETCH_RESPONSE (R418). -/
  | imageFetchResponse
  /-- FETCH_RETRY (R418). -/
  | fetchRetry
  /-- CALIBRATION_FETCH_END (R418). -/
  | calibrationFetchEnd
  /-- AUTHENTICATION (R420). -/
  | authentication
  /-- AUTH_RETRY (R421). -/
  | authRetry
  /-- CONFIG_APPLY (R422). -/
  | configApply
  /-- I3C_PRIVATE_WRITE (R383). -/
  | i3cPrivateWrite (bytes : List Byte)
  /-- I3C_PRIVATE_READ (R383). -/
  | i3cPrivateRead (n : Nat)
  /-- ENTDAA (R383). -/
  | entdaa (da : BitVec 7)
  /-- THROTTLE_ALL (R384). -/
  | throttleAll
  /-- HALT_ALL (R384). -/
  | haltAll
  /-- TARGET_RESET (R385). -/
  | targetReset (defining : Byte)
  /-- FUSE_VPP_VIOLATION (R435). -/
  | fuseVppViolation (mv : Nat)
  /-- TAP_RESET (R433). -/
  | tapReset
  /-- EXTEST (R440). -/
  | extest
  /-- SAMPLE_PRELOAD (R440). -/
  | samplePreload (scan : BoundaryScan)
  /-- IDCODE (R441). -/
  | idcode
  /-- CLAMP (R440). -/
  | clamp
  /-- HIGHZ (R440). -/
  | highz
  /-- IJTAG (R442). -/
  | ijtag
  /-- BYPASS (R440). -/
  | bypass (code : Byte)
  /-- MEMORY_BIST (R442). -/
  | memoryBist (t : BistTarget) (ph : BistPhase)
  /-- MODULE_LOOP_BACK (R442). -/
  | moduleLoopBack (e : EdgeId) (m : Fin 20) (test : LoopBack) (hold : Bool)
  /-- LANE_MARGINING (R442). -/
  | laneMargining (e : EdgeId) (m : Fin 20) (eyes : List (BitVec 16)) (hold : Bool)
  /-- FUSE_PROGRAMMER (R442). -/
  | fuseProgrammer (vppMv : Nat) (bits : List (Fin 8192))
  /-- IMAGE_LOADER (R419). -/
  | imageLoader (obj : FetchObject) (bytes : List Byte)
  /-- PWR_ALERT_N_DEASSERT (R345). -/
  | pwrAlertDeassert
  /-- LOSS_OF_POWER (R333). -/
  | lossOfPower
  /-- STRETCH_RELEASE (R344). -/
  | stretchRelease (c : CoreId)
  /-- STORE_CONFIRM (R388). -/
  | storeConfirm
  /-- COMMAND_BOUND_EXPIRY (R373). -/
  | commandBoundExpiry (p : CtlPort)
deriving DecidableEq, Repr

end Sys2Proof
end

