-- ==== Sys2Proof/Decode.lean ====
section
/-! DEFINITION. The table's words. No row of the opcode table gives bits: the commands of this block are events and
register accesses, not words, so no word spells one. -/

namespace Sys2Proof

/-- The command a word spells by the table's bits: none, since no row gives any. -/
def decodeTableWord (_nbits _w : Nat) : Option Instr := none

end Sys2Proof
end

