-- ==== Sys2Proof/Machine/Flags.lean ====
section
/-! DEFINITION. The sticky flags of the engines and vector engines (Tables ENG-12, VEC-5): NV, OF, UF, NX, FLUSH, ACCR, POISON, LEN. -/

namespace Sys2Proof.Machine

/-- A set of sticky flags in the layout of ENG_FLAGS. -/
abbrev Flags := BitVec 8

/-- NV. -/
def fNV : Flags := 0x01
/-- OF; never set without NX (R93). -/
def fOF : Flags := 0x02
/-- UF; never set without NX (R93). -/
def fUF : Flags := 0x04
/-- NX. -/
def fNX : Flags := 0x08
/-- FLUSH. -/
def fFLUSH : Flags := 0x10
/-- ACCR. -/
def fACCR : Flags := 0x20
/-- POISON. -/
def fPOISON : Flags := 0x40
/-- LEN. -/
def fLEN : Flags := 0x80

/-- The flags of a list of operations, together. -/
def joinFlags (l : List Flags) : Flags := l.foldl (fun a b => a ||| b) 0

end Sys2Proof.Machine
end

