-- ==== Sys2Proof/Config.lean ====
section
/-! DEFINITION. What the manual leaves to a part, a package or the hardware's undefined behaviour: the free values
(opaque constants, nothing in Lean can evaluate them) and the fused values of the modelled die (DESIGN CHOICE, log
entries 2 and 5). -/

namespace Sys2Proof.Config

/-- The byte at an address whose contents the manual leaves undefined within a partition (R9, R27, R53, R223):
the first argument is the free-value counter of State, the second the address. -/
opaque freeByte : Nat → Nat → Byte

/-- Which way a quotient is rounded where the manual gives a division and no rounding (R342, R351; log entry 22). -/
opaque roundsUp : Nat → Bool

/-- The mean power of a core over a phase visit in 1/16 W, which Bronze takes from an activity model the manual does not
give (R342; log entry 23). -/
opaque visitPower : Nat → BitVec 16

/-- The power predicted for the rest of the die with the other cores at their present levels, in 1/16 W (R343: the activity model is not given;
log entry 23). -/
opaque restPower : Nat → Nat

/-- The VDD_ENG current predicted for the rest of the die, in mA (R340, R343; log entry 23). -/
opaque restCurrent : Nat → Nat

/-- The cycles an install had spent when R42 stops it (timing, which this model leaves out; log entry 24). -/
opaque stoppedCk : Nat → BitVec 5

/-- The levels at the pins that EXTEST captures: they come from outside the die (R440; log entry 135). -/
opaque pinLevels : Nat → BitVec 336

/-- What a GATHER that names a count register writes to it (Table SPA-8; the manual gives no value; log entry 26). -/
opaque gatherCount : Nat → BitVec 32

/-- The SHA-384 digest of the demonstration firmware key, as the twelve fuse words KEY_HASH0 to KEY_HASH11
(DESIGN CHOICE, log entry 5). -/
def keyHash : List Word :=
  [0x002c1e7c, 0xbfe2e473, 0x5a2f8755, 0x06f1986b, 0xe4cc72b4, 0x2f0bc698, 0x31611399, 0xd75b318e, 0x615b6362, 0x7409fbe2, 0x210606f8,
   0xfb816471]

/-- One module repair word with no failed lane (Table PAR-5). -/
def cleanRepair : Word := 0x0FFFFFFF

/-- The fuse array of the modelled die, in the layout of Tables PAR-9 and PWR-11: die 19 at site (3, 2), active, four
compute edges, boot source (0, 2) edge W, every core present at fmax code 4 (DESIGN CHOICE, log entry 5). -/
def fuseWords : List Word :=
  [0x53, 0x249, 0x190, 0, 1, 0, 0, 0] ++ keyHash ++ List.replicate 44 0 ++ List.replicate 160 cleanRepair
    ++ List.replicate 16 0 ++ [0x44444444, 0x44444444, 0] ++ List.replicate 13 0

/-- The fused 1 ms power limit, W (Table PWR-10). -/
def limit1ms : Nat := 250

end Sys2Proof.Config
end

