-- ==== Sys2Proof/Machine/State.lean ====
section
/-! DEFINITION. The state of one PNV-HL1 die as plain data, the reasons a step can stop, and the state at cold reset.
Each structure cites the rules that give its registers; INVENTORY.md lists every field with its reset value. -/

namespace Sys2Proof.Machine

/-- Reasons a step faults. No meaning of this model raises one: every abnormal event of the manual ends in a logged
fault record, a poisoned word, a frozen unit or a fenced die (14), which are next states. Safe. -/
inductive Fault where
  /-- Raised by no meaning; kept because the interface asks for a type of faults. Safe. -/
  | noneRaised
deriving DecidableEq, Repr

/-- Reasons a step is refused. -/
inductive Refusal where
  /-- Raised by the dispatcher's arm of a row that has no meaning yet (no row today). Safe: the run stops. -/
  | notModelled (mnemonic : String)
deriving DecidableEq, Repr

/-- The SRAM of the die (Dome, every Cupola, every Lantern), keyed by die-local byte address (Tables DIE-5, DIE-6). Every
64-bit word carries one poison mark (R235). -/
structure Memory where
  /-- Nonzero bytes, addresses strictly rising; an unlisted byte reads 0 (R233, R329, R415). -/
  cells : List Host.Cell
  /-- Numbers (address / 8) of the poisoned words, strictly rising. -/
  poison : List Nat
  /-- Words damaged and not yet read: word number, uncorrectable (R235, R236). -/
  upsets : List (Nat × Bool)
deriving DecidableEq, Repr

/-- The four classes of Table FLT-1. -/
inductive FaultClass where
  | corrected | deferred | contained | fatal
deriving DecidableEq, Repr

/-- A fault record (Table FLT-2). -/
structure FaultRec where
  number : Word
  cls : FaultClass
  count : Byte
  code : BitVec 16
  block : Byte
  inst : Byte
  pkey : BitVec 16
  detail : Word
  address : BitVec 64
  time : BitVec 64
deriving DecidableEq, Repr

/-- Causes of a freeze (Table FLT-5). -/
inductive FreezeCause where
  | refusal | violation | waitTimeout | answerTimeout | command | fatal
deriving DecidableEq, Repr

/-- A frozen unit: the first cause, whether its current descriptor ended failed and is discarded at UNFREEZE (R400), and of an answer wait
that froze it (R252) the Cupola offset of its descriptor and the moment it began (R255). -/
structure Freeze where
  cause : FreezeCause
  discard : Bool
  answer : Option (Nat × Nat)
deriving DecidableEq, Repr

/-- Kinds of wait with a record in WAIT_GRAPH (Tables SYN-2, SYN-3). -/
inductive WaitKind where
  | waitDesc | header | chainRecv | chainSend
deriving DecidableEq, Repr

/-- A wait in progress (R247, R250). `own` marks a timeout that its WAIT descriptor names; `elapsed` counts bt outside C2 and C3; `woken` is
set by the counter's bell; `expired` after its timeout froze the waiter. -/
structure Wait where
  kind : WaitKind
  counter : BitVec 6
  thresh : BitVec 16
  desc : Nat
  timeout : Nat
  own : Bool
  began : Nat
  elapsed : Nat
  woken : Bool
  expired : Bool
deriving DecidableEq, Repr

/-- How far a queued LOADB has been taken (R37), or that the descriptor has been refused; `malformed` marks one that its
performer is to refuse for its mask flags (R141). -/
inductive Taken where
  | no | staged (slot : Fin 16) | skipped | refused | malformed
deriving DecidableEq, Repr

/-- A queued descriptor: the number of its dispatch in its core, its 64 bytes, Cupola offset, whether its mask bits skip it (R140), whether it
runs once its predicate has been read (R145), and the ENG_MODE bits sampled at dispatch (R66). -/
structure QEntry where
  id : Nat
  bits : BitVec 512
  off : Nat
  maskSkip : Bool
  runs : Option Bool
  subn : Bool
  zgate : Bool
  taken : Taken
  inSegment : Bool
deriving DecidableEq, Repr

/-- Progress of a started descriptor (R169): `busy` while packets or a chain are under way, `epilogue` while a CLOSE reads its group (Table
ACC-3). -/
inductive Progress where
  | started | busy | epilogue | done | failed
deriving DecidableEq, Repr

/-- A descriptor that has left its queue and not yet retired. `null` marks a skipped one (R144); `steps` counts a STREAM's
entered steps, `promoted` those promoted; `poisonLogged` records that it has logged 0x103 (R397), `boundsLogged` 0x202
(R446). -/
structure Active where
  entry : QEntry
  progress : Progress
  null : Bool
  steps : Nat
  promoted : Nat
  poisonLogged : Bool
  boundsLogged : Bool
deriving DecidableEq, Repr

/-- The queue of one performer, its started descriptors in queue order, its header wait and its freeze. -/
structure UnitQ where
  queue : List QEntry
  active : List Active
  wait : Option Wait
  freeze : Option Freeze
deriving DecidableEq, Repr

/-- A staged tile (R37, R38): geometry, extents, the LOADB's SUBN, the column and row maxima, zero blocks, and whether an
element was flushed or a word poisoned. -/
structure Tile where
  geom : BitVec 2
  scaleMode : BitVec 2
  subn : Bool
  colMax : List (Option Int)
  rowMax : List (Option Int)
  zeroMap : BitVec 64
  flushed : Bool
  poisoned : Bool
  area : Option (Fin 4)
  k : Nat
  n : Nat
  installed : Bool
deriving DecidableEq, Repr

/-- The tile that stands in the cube array (R39): the slot it was installed from, its record, and the bytes its install copied from the
values, the index area and the scales. -/
structure ArrayTile where
  slot : Fin 16
  tile : Tile
  vals : List Byte
  area : List Byte
  scales : List Byte
deriving DecidableEq, Repr

/-- Where a restore of R42 stands: none under way; the old tile is back and its replays are due; one of them has been served. -/
inductive Restore where
  | none | restoring | restored
deriving DecidableEq, Repr

/-- The short sum of one output of a step: q in units of 2^(Ec − 18) or 2^(Ec − 38) (R101) with that unit's exponent, the side
bits has-+inf, has-−inf, has-NaN, has-invalid in bits 0 to 3 (R89), and whether a cube rounded it (R31). -/
structure Chunk where
  q : Int
  unit : Int
  side : BitVec 4
  inexact : Bool
deriving DecidableEq, Repr

/-- A step that has entered the feeder and not yet committed (R46): its entry number, tile slot, destination, the A elements held
for replay (widened bits with their scale codes, row by row), the chunks the array formed, the flush and poison it will
set, and whether it overflowed and awaits its replay. -/
structure FlightStep where
  id : Nat
  slot : Fin 16
  group : GroupId
  row0 : Nat
  a : List (List (Nat × Nat))
  orient : Bool
  subn : Bool
  zgate : Bool
  flushed : Bool
  poisoned : Bool
  poisonAt : Nat
  overflow : Bool
  chunks : List (List Chunk)
  desc : Nat
deriving DecidableEq, Repr

/-- Group states (Table ACC-3). -/
inductive GState where
  | closed | opened | waitChain | closing
deriving DecidableEq, Repr

/-- An accumulation group's control state (R113, R114, R121, R123); its values lie in memory at Table ENG-3. `bands` holds m
for each pair of rows. `sent` and `accepted` are the chain packets injected and accepted, `chainDesc` the number of the CLOSE_CHAIN they belong to, `failed` one that ends failed (R124), `resend` the packets NACKed NOT_WAITING. -/
structure Group where
  state : GState
  bands : Vector Nat 32
  len : Bool
  seeded : Bool
  promoted : Word
  replayed : Word
  arrived : BitVec 16
  sent : BitVec 16
  accepted : BitVec 16
  resend : BitVec 16
  chainDesc : Nat
  failed : Bool
  wait : Option Wait
deriving DecidableEq, Repr

/-- An engine (02). `toInstall` holds the slots of the LOADBs that have left the queue and are still to be installed, in queue order;
`array` is the tile in the cube array (R39); `stageWait` is the header wait of the oldest LOADB not yet taken (R37). -/
structure Engine where
  q : UnitQ
  subn : Bool
  zgate : Bool
  flags : BitVec 8
  replayCount : Word
  zgateCount : BitVec 64
  stepCount : BitVec 64
  installCk : BitVec 64
  zgateHi : Option Word
  stepHi : Option Word
  installHi : Option Word
  slots : Vector (Option Tile) 16
  toInstall : List (Fin 16)
  array : Option ArrayTile
  restore : Restore
  orient : Bool
  feedPos : Nat
  nextStep : Nat
  flight : List FlightStep
  stageWait : Option Wait
  groups : Vector Group 8
deriving DecidableEq, Repr

/-- A vector register: 256 32-bit lanes and one poison bit per lane (R194). -/
structure VReg where
  lane : Vector Word 256
  poison : Vector Bool 256
deriving DecidableEq, Repr

/-- The vector engine (07). -/
structure VecEngine where
  q : UnitQ
  running : Bool
  pc : Nat
  lastPc : BitVec 23
  vl : BitVec 10
  a : Vector Word 16
  v : Vector VReg 32
  sr : Vector Word 512
  seed : Word
  subn : Bool
  subnNow : Bool
  flags : BitVec 8
  faultPc : BitVec 23
  instrCount : BitVec 64
  instrHi : Option Word
deriving DecidableEq, Repr

/-- What the packets of a network work item do (R179, R151, R155); `mirror` is Campanile's READ of a buddy mirror under a key (R410). -/
inductive NetKind where
  | write | read | mcast | signal | fence | mirror (key : BitVec 16)
deriving DecidableEq, Repr

/-- Remote work of the mover, an engine's CLOSE_CHAIN or Campanile, sent packet by packet: `row`, `pos` are the next packet's
row and byte within it, `seq` its index. A `read` into prefetch buffer carries `spec`. -/
structure NetItem where
  kind : NetKind
  dest : BitVec 16
  window : BitVec 8
  offset : Nat
  loc : Nat
  rowBytes : Nat
  rows : Nat
  localPitch : Nat
  remotePitch : Nat
  signal : Bool
  sigCnt : BitVec 6
  sigInc : BitVec 16
  group : BitVec 4
  spec : Bool
  row : Nat
  pos : Nat
  seq : Nat
  desc : Nat
  off : Nat
deriving DecidableEq, Repr

/-- An outstanding entry (R278): the issuing unit's code (Table FAB-3), the request, where a READ's data lands, the answer
wait's age, the answers still due (R284), the number and Cupola offset of its descriptor, and whether that operation has already
ended failed (R252). -/
structure Outst where
  unit : BitVec 4
  pkt : Packet
  loc : Nat
  spec : Bool
  due : Nat
  began : Nat
  elapsed : Nat
  timeout : Nat
  desc : Nat
  off : Nat
  failed : Bool
deriving DecidableEq, Repr

/-- Data held early in the mover's prefetch buffer (R189, R190): the number its READs carry, the descriptor's offset and bits, the descriptors
to be dispatched before it, the queue entry it belongs to once it has been dispatched, the bytes with their poison marks, and the reads still
due. -/
structure PrefetchData where
  id : Nat
  off : Nat
  bits : BitVec 512
  after : Nat
  forId : Option Nat
  bytes : List Byte
  poison : List Bool
  remaining : Nat
  refused : Bool
deriving DecidableEq, Repr

/-- The mover (05, 06): its counts, remote work, prefetch buffer, and the dies or multicast groups (`true`) sent writes or signals since its
last fence (R279). -/
structure Mover where
  q : UnitQ
  dropCount : Word
  movedCount : Word
  pruneCount : Word
  work : List NetItem
  buffer : List PrefetchData
  bufferNext : Nat
  fenceDests : List (BitVec 6 × Bool)
deriving DecidableEq, Repr

/-- A REPEAT in progress (R184): the descriptor with its offset and the number of the next dispatch when it began, the loop buffer with each
body descriptor's offset, the loop counters, the next body index, and the mask bits read for this iteration (R142). -/
structure Loop where
  desc : BitVec 512
  off : Nat
  issued : Nat
  body : List (BitVec 512 × Nat)
  i0 : Nat
  i1 : Nat
  i2 : Nat
  b : Nat
  mask : Option (Bool × Bool)
deriving DecidableEq, Repr

/-- A FENCE in progress (R187): the descriptor, the FENCE_MARKs still due once they have been sent, and whether one of them ended
failed. -/
structure Fencing where
  entry : QEntry
  marks : Option Nat
  failed : Bool
deriving DecidableEq, Repr

/-- The sequencer (06, Table TIL-1). `segment` is the offset of the next descriptor of a segment (R183); `loopSkip` counts ring slots still to be skipped once handed over; `waitMet` that the header wait
of the next descriptor has been met, with what its predicate then said (R145); `issued` numbers the queued descriptors. -/
structure Sequencer where
  enable : Bool
  halting : Option QEntry
  halted : Bool
  ringBase : BitVec 23
  log2 : BitVec 5
  head : BitVec 16
  tail : BitVec 16
  tailRej : Bool
  segment : Option Nat
  loop : Option Loop
  loopSkip : Nat
  fencing : Option Fencing
  wait : Option Wait
  waitMet : Option Bool
  freeze : Option Freeze
  faultDesc : BitVec 23
  retired : BitVec 64
  retiredHi : Option Word
  skipped : Word
  phase : BitVec 6
  issued : Nat
deriving DecidableEq, Repr

/-- Stored core states; C1 is derived (R247, R330). -/
inductive CState where
  | c0 | c2 | c3 | c4
deriving DecidableEq, Repr

/-- A core: its units, counters and bell lines (09), count registers (05), ownership (R19) and power state (12). `rampAt` is when the gate ramp
of the wake under way began (R326), `pll` the core's PLL (R327), `kHist` the throttle levels of the last evaluations, the newest first, each with
how many evaluations it held (R336). -/
structure Core where
  eng : Vector Engine 4
  vec : VecEngine
  mov : Mover
  seq : Sequencer
  cnt : Vector (BitVec 16) 64
  sat : BitVec 64
  under : BitVec 64
  cntCtrl : BitVec 2
  bellWake : BitVec 16
  countReg : Vector Word 16
  outst : List Outst
  nextTag : Nat
  deadTags : List (Nat × Nat)
  owner : Option (BitVec 16)
  present : Bool
  short : Bool
  cstate : CState
  waking : Bool
  rampAt : Option Nat
  pll : Bool
  bellPend : Bool
  clearing : Bool
  bist : Bool
  k : BitVec 5
  kHist : List (BitVec 5 × Nat)
  freq : BitVec 6
  droop : Bool
  c1Ticks : Nat
  c1Key : Nat
  fmaxEff : BitVec 6
  ceiling : BitVec 6
  aged : BitVec 8
  visitStart : Nat
  visitNoLearn : Bool
deriving DecidableEq, Repr

/-- A window table entry (Table MEM-3). -/
structure Window where
  base : BitVec 40
  len64 : BitVec 26
  pkey : BitVec 16
  owner : BitVec 4
  valid : Bool
  rd : Bool
  wr : Bool
  sig : Bool
  specOk : Bool
  reads : Word
  writes : Word
  spec : Word
deriving DecidableEq, Repr

/-- A signal held at the LOCAL port until earlier writes complete (R253). -/
structure HeldSignal where
  core : BitVec 4
  counter : BitVec 6
  inc : BitVec 16
  srcDie : BitVec 6
  srcUnit : BitVec 4
  srcCore : BitVec 4
deriving DecidableEq, Repr

/-- Spire: registers (Table FAB-11), tables (Tables FAB-6, FAB-7, FAB-9), key sets (R275), windows (R224), the input buffers of
its six ports by VC class, the queues behind LOCAL, MGMT and the die NoC, and how often each class waiting for LOCAL or MGMT has been passed
over (R291). -/
structure Spire where
  cur : Bool
  lock : Bool
  loaded : BitVec 2
  gen : BitVec 16
  enter : Vector Word 2
  exits : Vector Word 2
  held : Vector (BitVec 16) 2
  dropKey : Word
  dropRoute : Word
  dropHops : Word
  creditTo : Word
  down : BitVec 4
  cto : BitVec 4
  multi : Bool
  lastNamed : Byte
  lastGov : Byte
  keys : Vector (Vector Word 8) 6
  windows : Vector Window 256
  route : Vector (Vector Word 64) 2
  mcast : Vector (Vector Word 16) 2
  rank : Vector (Vector (BitVec 16) 4096) 2
  inq : Vector (Vector (List Packet) 5) 6
  localReq : List Packet
  localRsp : List Packet
  nocQ : List Packet
  mgmtQ : List Packet
  markQ : List (EdgeId × Packet)
  heldSigs : List HeldSignal
  outArb : Vector (Vector Nat 5) 2
  bootMode : Bool
deriving DecidableEq, Repr

/-- A data slot held for replay (R311): its sequence number, the slot time in which it was last sent, its stream bytes without fill, and the
packets (without payload) that end in it, each with the position behind its last byte. -/
structure TxSlot where
  seq : BitVec 10
  sentAt : Nat
  bytes : List Byte
  ends : List (Nat × Packet)
deriving DecidableEq, Repr

/-- A Parapet edge: its PAR_ registers (Table PAR-10), its training state and its link layer (R308 to R314). `began` is when it entered
SB_DETECT, `usable` the modules still in training, `offTrain` those off until cold reset (R302, R305), `held` and `heldM` those
under loop-back and under margining (R443); `txStream` with `txEnds` is the stream not yet sent, `resendAt` the next held slot to resend, `creditSince` the starts of the
credit timers (R280), `credSeen` and `credBack` the running totals received and reported per module, `owed` the credits not yet reported,
`bad` the bad flits of each module's window and `winAt` when that window began (R312). `retraining` holds from the start of a retrain to its end
(R313); `sbOut` is what the modules last sent in SB_EXCHANGE (R301, R305), `offReq` the modules whose switch-off this die asks its peer for;
`lanesTx` and `lanesRx` give each module's physical lane for logical lanes 0 to 63 (R306); `pll` the edge PLL (R327). -/
structure Edge where
  state : BitVec 4
  rate : BitVec 2
  targetRate : BitVec 2
  reason : BitVec 3
  on : BitVec 20
  offRetry : BitVec 20
  offCmd : BitVec 20
  offTrain : BitVec 20
  usable : BitVec 20
  held : BitVec 20
  heldM : BitVec 20
  thresh : BitVec 16
  window : BitVec 16
  replays : Word
  badFlits : Word
  peer : Word
  mapTx : Vector Word 20
  mapRx : Vector Word 20
  startFails : Byte
  began : Nat
  negotiated : Vector (BitVec 2) 20
  retraining : Bool
  sbOut : List ModulePeer
  offReq : BitVec 20
  lanesTx : Vector (List Nat) 20
  lanesRx : Vector (List Nat) 20
  pll : Bool
  outq : Vector (List Packet) 5
  arb : Vector Nat 5
  txStream : List Byte
  txEnds : List (Nat × Packet)
  txSeq : BitVec 10
  replayBuf : List TxSlot
  resendAt : Option Nat
  resendCount : Nat
  rxLast : BitVec 10
  rxNak : Bool
  rxStream : List Byte
  credits : Vector Nat 5
  creditSince : Vector Nat 5
  credSeen : Vector (Vector (BitVec 6) 5) 20
  credBack : Vector (Vector Nat 5) 20
  owed : Vector Nat 5
  slotCount : Nat
  bad : Vector Nat 20
  winAt : Vector Nat 20
  lastTx : List FlitIn
deriving DecidableEq, Repr

/-- A phase entry (R342). -/
structure PhaseEntry where
  avg : BitVec 16
  visits : BitVec 16
  locked : Bool
deriving DecidableEq, Repr

/-- A job slot (R350). -/
structure Job where
  id : Word
  total : BitVec 64
  ballast : BitVec 64
  time : BitVec 64
  shared : Bool
deriving DecidableEq, Repr

/-- Bronze: the PWR_ registers of Table PWR-10 that are not per core, its sample accumulators, the last intervals' powers, the cores (and in bit
16 the uncore) it throttles for heat, the job slots, and when each periodic action last ran. `powSum` and `curSum` are the sums of the
interval's predictions, `curHist` the predicted currents of the last 50 µs, `maHist` and `maSum` the measured ones (R334); `bound` the LIMITER
codes that have bound this interval (R340); `lastRamp` the last gate ramp (R326); `spirePll` and `domePll` the uncore's PLLs (R327). -/
structure Bronze where
  target : Byte
  effective : Byte
  urgent : Bool
  ramp : BitVec 7
  rampNow : BitVec 7
  ballastLimit : BitVec 6
  ballastActual : BitVec 6
  p1ms : BitVec 16
  p100ms : BitVec 16
  history : List Nat
  sampleSum : Nat
  samples : Nat
  railUw : Nat
  vddMv : Nat
  vddMa : Nat
  voltTarget : Nat
  energyTotal : BitVec 64
  energyBallast : BitVec 64
  energyFrac : Nat
  ballastFrac : Nat
  energyTime : BitVec 64
  energyTotalHi : Option Word
  energyBallastHi : Option Word
  sensors : Vector (BitVec 12) 40
  tmax : BitVec 12
  tmaxSensor : BitVec 6
  alertCount : Word
  droopCount : Word
  peakCount : Word
  c2After : BitVec 16
  phases : Vector PhaseEntry 64
  alertPin : Bool
  alertHold : Bool
  alertSince : Nat
  therm : Bool
  avsErr : Bool
  calInvalid : Bool
  rampShort : Bool
  limiter : BitVec 3
  overUs : Nat
  powSum : Nat
  curSum : Nat
  curHist : List Nat
  maHist : List Nat
  maSum : Nat
  bound : BitVec 6
  lastRamp : Option Nat
  spirePll : Bool
  domePll : Bool
  cuts : Nat
  peakLogged : Bool
  jobs : Vector (Option Job) 16
  thermtrip : Bool
  hot : BitVec 17
  fastAt : Nat
  vddAt : Nat
  railAt : Nat
  intervalAt : Nat
  thermAt : Nat
  voltSince : Nat
  avsAt : Nat
  telemetry : List Byte
deriving DecidableEq, Repr

/-- A partition record (R386 CREATE_PARTITION). -/
structure Partition where
  pkey : BitVec 16
  amode : Bool
  port : CtlPort
deriving DecidableEq, Repr

/-- A tenant clear in progress (R233): the leaving resources, and those still zeroing once step 4 has begun. -/
structure Clear where
  pkey : BitVec 16
  cores : BitVec 16
  slices : Byte
  zeroing : Bool
  port : Option CtlPort
  destroy : Bool
deriving DecidableEq, Repr

/-- A semaphore (Table ONA-6): owner, lapsed, lease in ms, and the Belfry count at which the lease ends. -/
structure Sem where
  owner : BitVec 2
  lapsed : Bool
  lease : BitVec 16
  ends : Nat
deriving DecidableEq, Repr

/-- A response or event waiting to be written (R371). -/
structure OutSlot where
  bits : BitVec 512
  event : Bool
deriving DecidableEq, Repr

/-- What a command that has begun still waits for before its response (R386). -/
inductive Phase where
  | idle | running | awaitClear | awaitWake (cores : BitVec 16) | awaitRetrain (e : EdgeId) | awaitStore | awaitBuddy
  | awaitD2 | awaitD0
deriving DecidableEq, Repr

/-- A control port (Tables ONA-1, ONA-2): its rings and registers, the command taken, when it was
taken and its progress, the slots waiting to be written, and the doorbell order of the handed-over slots (R370). -/
structure PortState where
  cmdSlots : Vector (BitVec 512) 16
  rspSlots : Vector (BitVec 512) 32
  cmdTail : BitVec 4
  cmdHead : BitVec 4
  rspHead : BitVec 5
  rspTail : BitVec 5
  frozen : Bool
  cause : BitVec 3
  subscribed : Bool
  decimate : BitVec 7
  decimCount : Nat
  bind : BitVec 9
  evtLost : Word
  lostSince : Word
  waiting : List OutSlot
  executing : Option (BitVec 512)
  phase : Phase
  resetting : Bool
  progress : Nat
  stamps : List Nat
  cmdAt : Nat
deriving DecidableEq, Repr

/-- The boot ROM's fetch state (R418): the bytes that have arrived, the object's length once known, the next offset to request, the
requests outstanding with the moment each was sent, and the moment of the first (none yet: no request sent). -/
structure Fetch where
  object : FetchObject
  buf : List (Option Byte)
  size : Option Nat
  requested : Nat
  outstanding : List (Nat × Nat)
  started : Option Nat
deriving DecidableEq, Repr

/-- The mirror registers (Table FLT-9). -/
structure Mirror where
  peer : BitVec 6
  window : Byte
  valid : Bool
  base : Word
  size : Word
deriving DecidableEq, Repr

/-- The Belfry and Campanile: time, mailboxes, semaphores, fault log, memory registers, boot registers, fuses, partitions;
`campWork` and `campOut` are the READs of a PROMOTE_SPARE (R410), `hosted` every mirror window this die hosts (R408), `storeAsk` the
record the image store is asked to take (R388). `scrubRun`
marks the scrubbers whose pass is unfinished, `scrubOver` those whose pass has outlived its period, `scrubAt` when each pass began. -/
structure Belfry where
  time : BitVec 64
  timeHi : Option Word
  unsync : Bool
  root : Bool
  slew : Int
  slewCount : Nat
  lastMarker : Nat
  markers : Nat
  syncAt : Nat
  marksOut : List (EdgeId × BitVec 64)
  waitDefault : Word
  ports : Vector PortState 2
  sems : Vector Sem 32
  mgtReject : Word
  doorbells : Nat
  logRing : Vector FaultRec 1024
  newest : Word
  oldest : Word
  lost : Word
  fatalRing : Vector FaultRec 64
  fatalHeld : Nat
  fatalStored : Nat
  limited : List (BitVec 16 × Byte × Byte × Nat)
  limitedAt : List (BitVec 16 × Byte × Byte × Nat)
  scrubEn : BitVec 24
  scrubPeriod : Vector (BitVec 16) 24
  scrubNow : Vector (BitVec 16) 24
  scrubPos : Vector (BitVec 17) 24
  scrubLag : BitVec 24
  scrubRun : BitVec 24
  scrubOver : BitVec 24
  scrubAt : Vector Nat 24
  eccCorr : Vector Word 24
  eccUncorr : Vector Word 24
  eccSince : Vector Word 96
  sliceOwner : Vector (Option (BitVec 16)) 8
  sliceBist : Byte
  slicesClearing : Byte
  partitions : List Partition
  clears : List Clear
  mirrorOut : Mirror
  mirrorIn : Mirror
  hosted : List Mirror
  fenced : BitVec 64
  known : Vector (BitVec 4) 4
  shadow : Vector Word 256
  fuses : Vector Word 256
  stage : BitVec 4
  source : Bool
  authFail : Bool
  cfgBad : Bool
  attempts : Byte
  readyTime : Word
  fwVer : Word
  secVer : BitVec 6
  wdogTimeout : BitVec 16
  wdogExpired : BitVec 16
  wdogFed : Nat
  cal : List Byte
  storeAsk : Option (List Byte)
  image : List Byte
  staged : List Byte
  fetch : Option Fetch
  accepted : Bool
  warm : Bool
  activation : Bool
  retryAt : Nat
  i3cAddr : BitVec 7
  i3cIndex : Byte
  i3cOut : List Byte
  campBist : Bool
  campWork : List NetItem
  campOut : List Outst
deriving DecidableEq, Repr

/-- The TAP (16): instruction register, boundary-scan cells, what the last scans of the two registers
shifted out (the data register's with its length), HIGHZ, and the status and result fields of the test instruments:
key, status (0 idle, 1 running, 2 done, 3 refused), result words. -/
structure Tap where
  ir : Byte
  bsr : BitVec 336
  irOut : Byte
  drOut : Nat × Nat
  highz : Bool
  instruments : List (Nat × BitVec 2 × List Nat)
deriving DecidableEq, Repr

/-- Die states D0/D1 (by the cores, R333), D2 and D3. -/
inductive DState where
  | up | d2 | d3
deriving DecidableEq, Repr

/-- What the last register or sideband read returned to its master. -/
structure ReadBack where
  value : Word
  poisoned : Bool
deriving DecidableEq, Repr

/-- The state of the die. `pending` is the queue of commands (first in, first out). `now` counts bt since PORST_N release
without slew; `free` numbers the free values used. -/
structure State where
  pending : List Instr
  mem : Memory
  cores : Vector Core 16
  spire : Spire
  edges : Vector Edge 4
  bronze : Bronze
  blf : Belfry
  tap : Tap
  porst : Bool
  dstate : DState
  d2Pending : Bool
  fatal : Bool
  fatalAt : Nat
  now : Nat
  free : Nat
  readBack : ReadBack
deriving DecidableEq, Repr

/-! ### The state at cold reset: the Reset column of each register table; where none stands, the value log entry 2 names. -/

/-- An empty performer queue. -/
def UnitQ.empty : UnitQ := { queue := [], active := [], wait := none, freeze := none }

/-- A closed group (R65); its values in memory are zero. -/
def Group.closed : Group :=
  { state := .closed, bands := Vector.replicate 32 0, len := false, seeded := false, promoted := 0, replayed := 0,
    arrived := 0, sent := 0, accepted := 0, resend := 0, chainDesc := 0, failed := false, wait := none }

/-- An engine after reset (R65, Tables ENG-10 to ENG-13). -/
def Engine.reset : Engine :=
  { q := UnitQ.empty, subn := true, zgate := true, flags := 0, replayCount := 0, zgateCount := 0, stepCount := 0,
    installCk := 0, zgateHi := none, stepHi := none, installHi := none, slots := Vector.replicate 16 none,
    toInstall := [], array := none, restore := .none, orient := false, feedPos := 0, nextStep := 0, flight := [], stageWait := none,
    groups := Vector.replicate 8 Group.closed }

/-- A zero vector register with clear poison bits (R195). -/
def VReg.zero : VReg := { lane := Vector.replicate 256 0, poison := Vector.replicate 256 false }

/-- The 512 random sources after a write of `seed` (R80). -/
def seeded (seed : Word) : Vector Word 512 := Vector.ofFn fun j => seed + BitVec.ofNat 32 j.val * 0x9E3779B9

/-- The vector engine after reset (R195, Table VEC-5). -/
def VecEngine.reset : VecEngine :=
  { q := UnitQ.empty, running := false, pc := 0, lastPc := 0, vl := 512, a := Vector.replicate 16 0,
    v := Vector.replicate 32 VReg.zero, sr := seeded 0, seed := 0, subn := true, subnNow := true, flags := 0, faultPc := 0,
    instrCount := 0, instrHi := none }

/-- The mover after reset (R157, R193). -/
def Mover.reset : Mover :=
  { q := UnitQ.empty, dropCount := 0, movedCount := 0, pruneCount := 0, work := [], buffer := [], bufferNext := 0,
    fenceDests := [] }

/-- The sequencer after reset (Table TIL-1, R193). -/
def Sequencer.reset : Sequencer :=
  { enable := false, halting := none, halted := false, ringBase := 0, log2 := 6, head := 0, tail := 0, tailRej := false,
    segment := none, loop := none, loopSkip := 0, fencing := none, wait := none, waitMet := none, freeze := none, faultDesc := 0,
    retired := 0, retiredHi := none, skipped := 0, phase := 0, issued := 0 }

/-- A core as cold reset leaves it, in C4 and unowned (R416, Tables SYN-4, SPA-8, PWR-10), with fmax step `fmax`. -/
def Core.reset (present : Bool) (fmax : BitVec 6) : Core :=
  { eng := Vector.replicate 4 Engine.reset, vec := VecEngine.reset, mov := Mover.reset, seq := Sequencer.reset,
    cnt := Vector.replicate 64 0, sat := 0, under := 0, cntCtrl := 3, bellWake := 0, countReg := Vector.replicate 16 0,
    outst := [], nextTag := 0, deadTags := [], owner := none, present := present, short := false, cstate := .c4,
    waking := false, rampAt := none, pll := false, bellPend := false, clearing := false, bist := false, k := 16, kHist := [],
    freq := 24, droop := false, c1Ticks := 0, c1Key := 0, fmaxEff := fmax, ceiling := fmax, aged := 0, visitStart := 0, visitNoLearn := false }

/-- A closed window entry (Table MEM-3). -/
def Window.reset : Window :=
  { base := 0, len64 := 0, pkey := 0, owner := 0, valid := false, rd := false, wr := false, sig := false, specOk := false,
    reads := 0, writes := 0, spec := 0 }

/-- The X-then-Y port code toward (dx, dy) from (x, y) (R267). -/
def xyPort (x y dx dy : Nat) : Nat :=
  if x < dx then 1 else if dx < x then 3 else if y < dy then 0 else if dy < y then 2 else 4

/-- The reset route entry for a die ID: its X-then-Y port, ESC_PORT 7, VALID (Table FAB-6, R267). -/
def resetRoute (x y d : Nat) : Word := BitVec.ofNat 32 (xyPort x y (d % 8) (d / 8) + 7 * 16 + 256)

/-- Spire after cold reset for a die at (x, y) (R295). -/
def Spire.reset (x y : Nat) : Spire :=
  { cur := false, lock := false, loaded := 0, gen := 0, enter := Vector.replicate 2 0, exits := Vector.replicate 2 0,
    held := Vector.replicate 2 0, dropKey := 0, dropRoute := 0, dropHops := 0, creditTo := 0x000186A0, down := 0, cto := 0,
    multi := false, lastNamed := 0, lastGov := 0, keys := Vector.replicate 6 (Vector.replicate 8 0),
    windows := Vector.replicate 256 Window.reset,
    route := Vector.replicate 2 (Vector.ofFn fun d : Fin 64 => resetRoute x y d.val),
    mcast := Vector.replicate 2 (Vector.replicate 16 0), rank := Vector.replicate 2 (Vector.replicate 4096 0),
    inq := Vector.replicate 6 (Vector.replicate 5 []), localReq := [], localRsp := [], nocQ := [], mgmtQ := [], markQ := [],
    heldSigs := [], outArb := Vector.replicate 2 (Vector.replicate 5 0), bootMode := true }

/-- An edge after cold reset (Table PAR-10, R320). -/
def Edge.reset : Edge :=
  { state := 0, rate := 0, targetRate := 3, reason := 0, on := 0, offRetry := 0, offCmd := 0, offTrain := 0, usable := 0,
    held := 0, heldM := 0, thresh := 64, window := 1000, replays := 0, badFlits := 0, peer := 0, mapTx := Vector.replicate 20 0,
    mapRx := Vector.replicate 20 0, startFails := 0, began := 0, negotiated := Vector.replicate 20 0, retraining := false,
    sbOut := [], offReq := 0, lanesTx := Vector.replicate 20 [], lanesRx := Vector.replicate 20 [], pll := false, outq := Vector.replicate 5 [],
    arb := Vector.replicate 5 0, txStream := [], txEnds := [], txSeq := 0, replayBuf := [], resendAt := none, resendCount := 0,
    rxLast := BitVec.ofNat 10 1023, rxNak := false, rxStream := [], credits := Vector.replicate 5 0, creditSince := Vector.replicate 5 0,
    credSeen := Vector.replicate 20 (Vector.replicate 5 0), credBack := Vector.replicate 20 (Vector.replicate 5 0),
    owed := Vector.replicate 5 0, slotCount := 0, bad := Vector.replicate 20 0, winAt := Vector.replicate 20 0, lastTx := [] }

/-- Bronze after cold reset (Table PWR-10). -/
def Bronze.reset : Bronze :=
  { target := 250, effective := 250, urgent := false, ramp := 20, rampNow := 20, ballastLimit := 0, ballastActual := 0, p1ms := 0, p100ms := 0,
    history := [], sampleSum := 0, samples := 0, railUw := 0, vddMv := 750, vddMa := 0, voltTarget := 750, energyTotal := 0,
    energyBallast := 0, energyFrac := 0, ballastFrac := 0, energyTime := 0, energyTotalHi := none, energyBallastHi := none,
    sensors := Vector.replicate 40 0, tmax := 0, tmaxSensor := 0, alertCount := 0, droopCount := 0, peakCount := 0,
    c2After := 0, phases := Vector.replicate 64 { avg := 0, visits := 0, locked := false }, alertPin := false,
    alertHold := false, alertSince := 0, therm := false, avsErr := false,
    calInvalid := false, rampShort := false, limiter := 0, overUs := 0, powSum := 0, curSum := 0, curHist := [], maHist := [],
    maSum := 0, bound := 0, lastRamp := none, spirePll := false, domePll := false, cuts := 0, peakLogged := false,
    jobs := Vector.replicate 16 none, thermtrip := false, hot := 0, fastAt := 0, vddAt := 0,
    railAt := 0, intervalAt := 0, thermAt := 0, voltSince := 0, avsAt := 0, telemetry := [] }

/-- A fault record that has not been written. -/
def FaultRec.zero : FaultRec :=
  { number := 0, cls := .corrected, count := 0, code := 0, block := 0, inst := 0, pkey := 0, detail := 0, address := 0, time := 0 }

/-- A control port after cold reset (Table ONA-2). -/
def PortState.reset : PortState :=
  { cmdSlots := Vector.replicate 16 0, rspSlots := Vector.replicate 32 0, cmdTail := 0, cmdHead := 0, rspHead := 0, rspTail := 0,
    frozen := false, cause := 0, subscribed := false, decimate := 1, decimCount := 0, bind := 0, evtLost := 0, lostSince := 0,
    waiting := [], executing := none, phase := .idle, resetting := false, progress := 0, stamps := [],
    cmdAt := 0 }

/-- An unset mirror record (Table FLT-9). -/
def Mirror.reset : Mirror := { peer := 0, window := 0, valid := false, base := 0, size := 0 }

/-- The fused values of the modelled die (log entry 5) as the 1 KiB array of Tables PAR-9 and PWR-11. -/
def Belfry.fuseArray : Vector Word 256 := Vector.ofFn fun i => (Config.fuseWords[i.val]?).getD 0

/-- The Belfry after cold reset, with the given fuse array; the shadow is empty until PORST_N_RELEASE loads it. -/
def Belfry.reset (fuses shadow : Vector Word 256) : Belfry :=
  { time := 0, timeHi := none, unsync := true, root := false, slew := 0, slewCount := 0, lastMarker := 0, markers := 0, syncAt := 0,
    marksOut := [], waitDefault := 0x01000000, ports := Vector.replicate 2 PortState.reset,
    sems := Vector.replicate 32 { owner := 0, lapsed := false, lease := 0, ends := 0 }, mgtReject := 0, doorbells := 0,
    logRing := Vector.replicate 1024 FaultRec.zero, newest := 0xFFFFFFFF, oldest := 0, lost := 0,
    fatalRing := Vector.replicate 64 FaultRec.zero, fatalHeld := 0, fatalStored := 0, limited := [], limitedAt := [],
    scrubEn := 0xFFFFFF, scrubPeriod := Vector.ofFn fun u : Fin 24 => if u.val < 16 then 1000 else 4000,
    scrubNow := Vector.ofFn fun u : Fin 24 => if u.val < 16 then 1000 else 4000, scrubPos := Vector.replicate 24 0,
    scrubLag := 0, scrubRun := 0xFFFFFF, scrubOver := 0, scrubAt := Vector.replicate 24 0, eccCorr := Vector.replicate 24 0, eccUncorr := Vector.replicate 24 0,
    eccSince := Vector.replicate 96 0, sliceOwner := Vector.replicate 8 none, sliceBist := 0, slicesClearing := 0,
    partitions := [], clears := [], mirrorOut := Mirror.reset, mirrorIn := Mirror.reset, hosted := [], fenced := 0,
    known := Vector.replicate 4 0, shadow := shadow, fuses := fuses, stage := 0, source := false, authFail := false,
    cfgBad := false, attempts := 0, readyTime := 0, fwVer := 0, secVer := 0, wdogTimeout := 1000, wdogExpired := 0, wdogFed := 0,
    cal := [], storeAsk := none, image := [], staged := [], fetch := none, accepted := false, warm := false, activation := false, retryAt := 0, i3cAddr := 0,
    i3cIndex := 0, i3cOut := [], campBist := false, campWork := [], campOut := [] }

/-- The defined bits of word `i` of the fuse shadow (Tables PAR-9, PWR-11); the others are reserved and read 0 (R14). -/
def fuseMask (i : Nat) : Word :=
  if i = 0 then 0xFF else if i = 1 then 0xFFFF else if i = 2 then 0x1FF
  else if (3 ≤ i ∧ i ≤ 5) ∨ (8 ≤ i ∧ i ≤ 19) ∨ i = 240 ∨ i = 241 then 0xFFFFFFFF
  else if 64 ≤ i ∧ i < 224 then 0x7FFFFFFF else if i = 242 then 0xFFFF else 0

/-- The fuse shadow that a fuse array loads. -/
def fuseShadow (fuses : Vector Word 256) : Vector Word 256 := Vector.ofFn fun i => fuses[i] &&& fuseMask i.val

/-- The TAP in Test-Logic-Reset: IDCODE selected (Table PHY-8). -/
def Tap.reset : Tap := { ir := 0x02, bsr := 0, irOut := 0, drOut := (0, 0), highz := false, instruments := [] }

/-- Empty SRAM (zeroed, R233, R415). -/
def Memory.empty : Memory := { cells := [], poison := [], upsets := [] }

/-- The fused fmax step of core `n`: 0.40 GHz + i × 25 MHz with fmax = 1.10 GHz + c × 25 MHz (R352, Table PWR-10). -/
def fusedFmax (shadow : Vector Word 256) (n : Nat) : Nat :=
  28 + field (if n < 8 then (shadow[240]).toNat else (shadow[241]).toNat) (4 * (n % 8)) 4

/-- Core `n` is not removed by the core-disable fuse (R16, Table PWR-11). -/
def fusedPresent (shadow : Vector Word 256) (n : Nat) : Bool := !bitOf (shadow[242]).toNat n

/-- The die as cold reset leaves it, with fuse array `fuses`, fuse shadow `shadow` and TAP `tap` (R423, R433). -/
def coldState (fuses shadow : Vector Word 256) (tap : Tap) (pending : List Instr) : State :=
  { pending := pending, mem := Memory.empty,
    cores := Vector.ofFn fun n : Fin 16 => Core.reset (fusedPresent shadow n.val) (BitVec.ofNat 6 (fusedFmax shadow n.val)),
    spire := Spire.reset (field (shadow[0]).toNat 0 3) (field (shadow[0]).toNat 3 3),
    edges := Vector.replicate 4 Edge.reset, bronze := Bronze.reset, blf := Belfry.reset fuses shadow, tap := tap,
    porst := true, dstate := .up, d2Pending := false, fatal := false, fatalAt := 0, now := 0, free := 0,
    readBack := { value := 0, poisoned := false } }

/-- The machine right after cold reset, PORST_N still low: every register at its Reset column. The row PORST_N_RELEASE starts
it (log entry 3). -/
def State.reset : State := coldState Belfry.fuseArray Belfry.fuseArray Tap.reset []

end Sys2Proof.Machine
end

