-- ==== Sys2Proof/Machine/Ops.lean ====
section
/-! DEFINITION. The named operations every meaning is built from: one setter per part of State, the SRAM with its poison marks
and ECC (R235, R236), the fault log and its events (R391 to R394, R371), time (log entry 4), counters and bell lines
(09), waits and freezing (R247, R250, R400). -/

namespace Sys2Proof.Machine

/-- The outcome type of a meaning. -/
abbrev Out := Host.Outcome State Fault Refusal

/-- The die can act: PORST_N is high and the rails are up (R29, R433). -/
def State.powered (s : State) : Bool := !s.porst && s.dstate != .d3

/-- A command's effect `f`; while PORST_N is low or the rails are off nothing acts and the state stays (log entry 6). -/
def ev (s : State) (f : State → State) : Out := .next (if s.powered then f s else s)

/-- A core is present (R16, R325): neither a fuse nor a latch-off has removed it. -/
def Core.here (k : Core) : Bool := k.present && !k.short

/-- The core runs: present, powered, in C0 or C1, and not being cleared. -/
def Core.live (k : Core) : Bool := k.here && k.cstate == .c0 && !k.clearing

/-! ### Setters -/

/-- Change entry `i` of a vector. -/
def upd {α : Type} {n : Nat} (v : Vector α n) (i : Fin n) (f : α → α) : Vector α n := v.set i.val (f v[i.val]) i.isLt

/-- Every entry of a vector changed (built by index, so that the kernel evaluates one entry alone). -/
def vmap {α β : Type} {n : Nat} (f : α → β) (v : Vector α n) : Vector β n := Vector.ofFn fun i => f v[i.val]

/-- Change core `c`. -/
def State.modCore (s : State) (c : CoreId) (f : Core → Core) : State := { s with cores := upd s.cores c f }

/-- Change engine `e` of core `c`. -/
def State.modEng (s : State) (c : CoreId) (e : EngId) (f : Engine → Engine) : State :=
  s.modCore c fun k => { k with eng := upd k.eng e f }

/-- Change group `g` of an engine. -/
def State.modGroup (s : State) (c : CoreId) (e : EngId) (g : GroupId) (f : Group → Group) : State :=
  s.modEng c e fun x => { x with groups := upd x.groups g f }

/-- Change the vector engine of core `c`. -/
def State.modVec (s : State) (c : CoreId) (f : VecEngine → VecEngine) : State :=
  s.modCore c fun k => { k with vec := f k.vec }

/-- Change the mover of core `c`. -/
def State.modMov (s : State) (c : CoreId) (f : Mover → Mover) : State := s.modCore c fun k => { k with mov := f k.mov }

/-- Change the sequencer of core `c`. -/
def State.modSeq (s : State) (c : CoreId) (f : Sequencer → Sequencer) : State := s.modCore c fun k => { k with seq := f k.seq }

/-- Change Spire. -/
def State.modSpire (s : State) (f : Spire → Spire) : State := { s with spire := f s.spire }

/-- Change the Belfry. -/
def State.modBlf (s : State) (f : Belfry → Belfry) : State := { s with blf := f s.blf }

/-- Change Bronze. -/
def State.modBrz (s : State) (f : Bronze → Bronze) : State := { s with bronze := f s.bronze }

/-- Change edge `e`. -/
def State.modEdge (s : State) (e : EdgeId) (f : Edge → Edge) : State := { s with edges := upd s.edges e f }

/-- The index of a control port: Port A is 0, Port B is 1 (R362). -/
def portIdx : CtlPort → Fin 2
  | .A => 0
  | .B => 1

/-- The other control port. -/
def otherPort : CtlPort → CtlPort
  | .A => .B
  | .B => .A

/-- A control port's state. -/
def State.port (s : State) (p : CtlPort) : PortState := s.blf.ports[(portIdx p)]

/-- Change control port `p`. -/
def State.modPort (s : State) (p : CtlPort) (f : PortState → PortState) : State :=
  s.modBlf fun b => { b with ports := upd b.ports (portIdx p) f }

/-- Core `c`. -/
def State.core (s : State) (c : CoreId) : Core := s.cores[c]

/-- Engine `e` of core `c`. -/
def State.eng (s : State) (c : CoreId) (e : EngId) : Engine := (s.core c).eng[e]

/-- Group `g` of an engine. -/
def State.group (s : State) (c : CoreId) (e : EngId) (g : GroupId) : Group := (s.eng c e).groups[g]

/-- Do `f` for each core in turn. -/
def State.forCores (s : State) (f : State → CoreId → State) : State := (List.finRange 16).foldl f s

/-! ### Numbers and bytes -/

/-- The number a little-endian byte list spells (R11). -/
def leNat : List Byte → Nat
  | [] => 0
  | b :: bs => b.toNat + 256 * leNat bs

/-- `k` little-endian bytes of `n` (R11). -/
def leBytes (n : Nat) : Nat → List Byte
  | 0 => []
  | k + 1 => BitVec.ofNat 8 n :: leBytes (n / 256) k

/-- Sign extension of a `w`-bit number. -/
def sext (w n : Nat) : Int := if n < 2 ^ (w - 1) then (n : Int) else (n : Int) - (2 ^ w : Nat)

/-- Reduction of an integer modulo 2^32, as a word. -/
def wrap32 (i : Int) : Word := BitVec.ofInt 32 i

/-- A 32-bit counter that saturates at 0xFFFF_FFFF. -/
def satAdd (w : Word) (n : Nat) : Word := if w.toNat + n < 2 ^ 32 then BitVec.ofNat 32 (w.toNat + n) else 0xFFFFFFFF

/-- Bit `i` of a bit vector set to `b`. -/
def putBit {w : Nat} (v : BitVec w) (i : Nat) (b : Bool) : BitVec w :=
  if b then v ||| BitVec.ofNat w (2 ^ i) else v &&& ~~~(BitVec.ofNat w (2 ^ i))

/-- A Boolean as a number. -/
def b2n (b : Bool) : Nat := if b then 1 else 0

/-- The numbers below `w` of the bits set in `v`. -/
def bitsSet (v w : Nat) : List Nat := (List.range w).filter fun i => bitOf v i

/-! ### SRAM -/

/-- Expand sorted cells to the `n` bytes from address `a`; unlisted bytes read 0. -/
def expand : Nat → Nat → List Host.Cell → List Byte
  | 0, _, _ => []
  | n + 1, a, [] => 0 :: expand n (a + 1) []
  | n + 1, a, (k, b) :: r => if k = a then b :: expand n (a + 1) r else 0 :: expand n (a + 1) ((k, b) :: r)

/-- The cells of the bytes `bs` written from `a`: zero bytes are not listed. -/
def fresh : Nat → List Byte → List Host.Cell
  | _, [] => []
  | a, b :: bs => if b = 0 then fresh (a + 1) bs else (a, b) :: fresh (a + 1) bs

/-- The byte at address `a`. -/
def Memory.byteAt (m : Memory) (a : Nat) : Byte :=
  match m.cells.find? (fun x => x.1 == a) with
  | some x => x.2
  | none => 0

/-- The `n` bytes from address `a`. -/
def Memory.load (m : Memory) (a n : Nat) : List Byte :=
  expand n a ((m.cells.dropWhile fun x => x.1 < a).takeWhile fun x => x.1 < a + n)

/-- Write bytes from address `a`, keeping the canonical form. -/
def Memory.put (m : Memory) (a : Nat) (bs : List Byte) : Memory :=
  { m with cells := (m.cells.takeWhile fun x => x.1 < a) ++ (fresh a bs ++ m.cells.dropWhile fun x => x.1 < a + bs.length) }

/-- Word `w` (address / 8) is poisoned. -/
def Memory.marked (m : Memory) (w : Nat) : Bool := m.poison.contains w

/-- Some word touched by the `n` bytes from `a` is poisoned. -/
def Memory.poisoned (m : Memory) (a n : Nat) : Bool :=
  n != 0 && m.poison.any fun w => a / 8 ≤ w && w ≤ (a + n - 1) / 8

/-- Set the marks of the `n` words from `w` by `f`. -/
def Memory.mark (m : Memory) (w n : Nat) (f : Nat → Bool) : Memory :=
  { m with poison := (m.poison.takeWhile fun x => x < w) ++ (((List.range' w n).filter f) ++ m.poison.dropWhile fun x => x < w + n) }

/-- The number of words that the `n` bytes from `a` touch. -/
def wordSpan (a n : Nat) : Nat := if n = 0 then 0 else (a + n - 1) / 8 - a / 8 + 1

/-- Write bytes with poison: a word wholly covered takes the mark of its data, a word covered in part keeps a mark it had
(R236); damage in a word wholly covered is overwritten. `f` gives the mark of the data for each word. -/
def Memory.store (m : Memory) (a : Nat) (bs : List Byte) (f : Nat → Bool) : Memory :=
  let n := bs.length
  let whole := fun w => a ≤ 8 * w && 8 * w + 8 ≤ a + n
  let m1 := (m.put a bs).mark (a / 8) (wordSpan a n) fun w => f w || (!whole w && m.marked w)
  { m1 with upsets := m1.upsets.filter fun u => !whole u.1 }

/-- Zero the `n` bytes from `a` with clear marks (R233 step 5). -/
def Memory.clear (m : Memory) (a n : Nat) : Memory :=
  { cells := m.cells.filter fun x => x.1 < a || a + n ≤ x.1
    poison := m.poison.filter fun w => w < a / 8 || (a + n) / 8 ≤ w
    upsets := m.upsets.filter fun u => u.1 < a / 8 || (a + n) / 8 ≤ u.1 }

/-- The canonical form: addresses rise strictly, no listed byte is 0, and the poisoned and the damaged words are listed in strictly rising
order. -/
def Memory.wf (m : Memory) : Bool :=
  decide (m.cells.Pairwise fun x y => x.1 < y.1) && (m.cells.all fun x => x.2 != 0) && decide (m.poison.Pairwise fun x y => x < y)
    && decide (m.upsets.Pairwise fun x y => x.1 < y.1)

/-- The base of core `c`'s region (Table DIE-5). -/
def coreBase (c : CoreId) : Nat := 0x0100000000 + c.val * 0x01000000

/-- The base of an engine's Lantern (Table DIE-6). -/
def lanternBase (c : CoreId) (e : EngId) : Nat := coreBase c + 0xC00000 + e.val * 0x40000

/-- The base of a group's values: 64 × 32 FP32, row-major (Table ENG-3). -/
def groupBase (c : CoreId) (e : EngId) (g : GroupId) : Nat := lanternBase c e + 0x20000 + g.val * 0x2000

/-- Replace the SRAM. -/
def State.setMem (s : State) (m : Memory) : State := { s with mem := m }

/-- Store bytes at a die-local address, every written word's data carrying the mark `f` gives. -/
def State.store (s : State) (a : Nat) (bs : List Byte) (f : Nat → Bool) : State := s.setMem (s.mem.store a bs f)

/-- Store clean bytes. -/
def State.put (s : State) (a : Nat) (bs : List Byte) : State := s.store a bs fun _ => false

/-- The FP32 word or register image at `a`. -/
def State.word (s : State) (a : Nat) : Nat := leNat (s.mem.load a 4)

/-! ### Time -/

/-- The sequencer sleeps on a wait or on an empty ring (R160, R247). -/
def Sequencer.asleep (q : Sequencer) : Bool :=
  q.wait.isSome || (q.head == q.tail && q.segment.isNone && q.loop.isNone && q.fencing.isNone && q.halting.isNone)

/-- A performer has nothing under way: every descriptor it has started has completed. -/
def UnitQ.resting (q : UnitQ) : Bool := q.active.all fun a => a.progress == .done

/-- A performer sleeps on its header wait, with nothing under way (R247). -/
def UnitQ.asleep (q : UnitQ) : Bool := q.wait.isSome && q.resting

/-- A performer sleeps on its header wait, or is idle with an empty queue (R247). -/
def UnitQ.quiet (q : UnitQ) : Bool := q.resting && (q.wait.isSome || q.queue.isEmpty)

/-- The slot of the tile in the array. -/
def Engine.installed (x : Engine) : Option (Fin 16) := x.array.map (·.slot)

/-- The slot whose install is next. -/
def Engine.installing (x : Engine) : Option (Fin 16) := x.toInstall.head?

/-- The head of the engine's queue is a LOADB whose header wait is unmet (R37). -/
def Engine.headStages (x : Engine) : Bool :=
  x.stageWait.isSome && (match x.q.queue with
    | en :: _ => field en.bits.toNat 0 8 == 1 && en.taken == .no
    | [] => false)

/-- A group waits on a chain: for its blocks, or for the acceptance of its packets (Table SYN-2). -/
def Group.onChain (g : Group) : Bool := g.wait.isSome

/-- The engine executes nothing: no step is in flight, no install is due, and every descriptor it has started has completed or is a
chain wait. -/
def Engine.resting (x : Engine) : Bool :=
  x.flight.isEmpty && x.toInstall.isEmpty && x.q.active.all fun a => a.progress == .done || a.progress == .busy

/-- The engine sleeps on a wait: its head's header wait, or with an empty queue a chain wait (R247, Table SYN-2). -/
def Engine.asleep (x : Engine) : Bool :=
  x.resting && (x.q.wait.isSome || x.headStages || (x.q.queue.isEmpty && x.q.active.any fun a => a.progress == .busy))

/-- The engine sleeps on a wait or is idle with an empty queue. -/
def Engine.quiet (x : Engine) : Bool := x.asleep || (x.resting && x.q.queue.isEmpty)

/-- The core is in C1 (R247): in C0 with its sequencer asleep and every other unit sleeping or idle. -/
def Core.inC1 (k : Core) : Bool :=
  k.cstate == .c0 && k.seq.asleep && k.vec.q.quiet && k.mov.q.quiet && k.eng.toList.all Engine.quiet

/-- A wait ages by `d` bt. -/
def Wait.age (d : Nat) (w : Wait) : Wait := { w with elapsed := w.elapsed + d }

/-- A performer's wait ages. -/
def UnitQ.age (d : Nat) (q : UnitQ) : UnitQ := { q with wait := q.wait.map (Wait.age d) }

/-- Every wait of a core ages by `d` bt, unless the core is in C2 or C3 (R250); its C1 interval grows, counted afresh after work or
while a group waits on a chain (R330). -/
def Core.age (d : Nat) (k : Core) : Core :=
  let chain := k.eng.toList.any fun x => x.groups.toList.any Group.onChain
  let key := k.seq.issued + k.seq.retired.toNat + k.seq.skipped.toNat
  let k := { k with c1Ticks := if k.inC1 && !chain then (if key = k.c1Key then k.c1Ticks + d else d) else 0, c1Key := key }
  if k.cstate == .c2 || k.cstate == .c3 then k else
  { k with
    seq := { k.seq with wait := k.seq.wait.map (Wait.age d) }
    vec := { k.vec with q := k.vec.q.age d }
    mov := { k.mov with q := k.mov.q.age d }
    eng := vmap (fun x => { x with q := x.q.age d, stageWait := x.stageWait.map (Wait.age d), groups := vmap (fun g => { g with wait := g.wait.map (Wait.age d) }) x.groups }) k.eng
    outst := k.outst.map fun o => { o with elapsed := o.elapsed + d } }

/-- Belfry time after `d` bt, slewed by at most 1 bt per 100 bt and never backward (R328). -/
def Belfry.tick (d : Nat) (b : Belfry) : Belfry :=
  let n := min b.slew.natAbs ((b.slewCount + d) / 100)
  { b with
    time := if b.slew < 0 then b.time + BitVec.ofNat 64 (d - min d n) else b.time + BitVec.ofNat 64 (d + n)
    slew := if b.slew < 0 then b.slew + min d n else b.slew - n
    slewCount := if b.slew = 0 then 0 else (b.slewCount + d) % 100 }

/-- `d` bt pass with nothing else happening. -/
def State.pass (s : State) (d : Nat) : State :=
  { s with now := s.now + d, blf := s.blf.tick d, cores := vmap (Core.age d) s.cores }

/-- Time passes up to the moment `t`, if that is later than now. -/
def State.advanceTo (s : State) (t : Nat) : State := if s.now < t then s.pass (t - s.now) else s

/-! ### Events and the fault log -/

/-- The port's response ring has no room for one more slot (R371). -/
def PortState.full (p : PortState) : Bool :=
  decide (31 ≤ (p.rspTail - p.rspHead).toNat + p.waiting.length + (if p.lostSince = 0 then 0 else 1))

/-- The 64-byte slot of an event (Table ONA-4). -/
def eventSlot (code : Nat) (data : List Byte) : BitVec 512 :=
  BitVec.ofNat 512 (leNat (leBytes 0x01000000 4 ++ leBytes code 4 ++ data.take 56))

/-- Queue an event for a port with a valid binding; one that finds no space is dropped and counted (R363, R371). -/
def State.postEvent (s : State) (p : CtlPort) (code : Nat) (data : List Byte) : State :=
  s.modPort p fun q =>
    if !bitOf q.bind.toNat 8 then q
    else if q.full then { q with evtLost := satAdd q.evtLost 1, lostSince := satAdd q.lostSince 1 }
    else { q with waiting := q.waiting ++ [{ bits := eventSlot code data, event := true }] }

/-- Queue an event for both ports. -/
def State.postBoth (s : State) (code : Nat) (data : List Byte) : State := (s.postEvent .A code data).postEvent .B code data

/-- The class code of Table FLT-1. -/
def FaultClass.code : FaultClass → Nat
  | .corrected => 0
  | .deferred => 1
  | .contained => 2
  | .fatal => 3

/-- The 32 bytes of a fault record (Table FLT-2). -/
def FaultRec.bytes (r : FaultRec) : List Byte :=
  leBytes r.number.toNat 4 ++ leBytes r.cls.code 1 ++ leBytes r.count.toNat 1 ++ leBytes r.code.toNat 2
    ++ leBytes (r.block.toNat + 256 * r.inst.toNat) 2 ++ leBytes r.pkey.toNat 2 ++ leBytes r.detail.toNat 4
    ++ leBytes r.address.toNat 8 ++ leBytes r.time.toNat 8

/-- The core a source instance belongs to (Table FLT-3), where it is part of one. -/
def sourceCore (block inst : Nat) : Option Nat :=
  if block = 1 ∨ block = 9 then some (inst / 4)
  else if 2 ≤ block ∧ block ≤ 8 ∧ block ≠ 7 then some inst else none

/-- The partition that owns a fault source (R390, R392). -/
def State.sourceOwner (s : State) (block inst : Nat) : Option (BitVec 16) :=
  match sourceCore block inst with
  | some n => if h : n < 16 then (s.cores[n]).owner else none
  | none => if block = 10 then (if h : inst < 8 then s.blf.sliceOwner[inst] else none) else none

/-- The port that owns partition `key`. -/
def Belfry.portOf (b : Belfry) (key : BitVec 16) : Option CtlPort := (b.partitions.find? fun p => p.pkey == key).map (·.port)

/-- Where a record of the log ring lies (R393). -/
def logSlot (n : Word) : Fin 1024 := Fin.ofNat 1024 n.toNat

/-- Write a record to the ring, taking number NEWEST + 1, and a fatal one to the fatal area (R393). -/
def Belfry.write (b : Belfry) (r : FaultRec) : Belfry :=
  let n := b.newest + 1
  let r := { r with number := n }
  let full := b.oldest + 1024 == n && b.oldest != n
  let b := { b with
    logRing := upd b.logRing (logSlot n) fun _ => r
    newest := n
    oldest := if full then b.oldest + 1 else b.oldest
    lost := if full then satAdd b.lost 1 else b.lost }
  if r.cls != .fatal then b
  else if 64 ≤ b.fatalHeld then { b with lost := satAdd b.lost 1 }
  else { b with
    fatalRing := upd b.fatalRing (Fin.ofNat 64 b.fatalStored) fun _ => r
    fatalHeld := b.fatalHeld + 1
    fatalStored := b.fatalStored + 1 }

/-- What a fault record says besides its number, count and time. -/
structure FaultInfo where
  cls : FaultClass
  code : Nat
  block : Nat
  inst : Nat
  /-- The packet's key for fabric codes; none: the partition that owns the source (Table FLT-2). -/
  pkey : Option (BitVec 16)
  detail : Nat
  address : Nat
deriving DecidableEq, Repr

/-- The occurrences of this code and source not logged since its last record (R394). -/
def Belfry.skippedCount (b : Belfry) (i : FaultInfo) : Nat :=
  ((b.limited.find? fun x => x.1 == BitVec.ofNat 16 i.code && x.2.1 == BitVec.ofNat 8 i.block && x.2.2.1 == BitVec.ofNat 8 i.inst).map
    (·.2.2.2)).getD 0

/-- Drop the count of unlogged occurrences of this code and source. -/
def Belfry.clearSkipped (b : Belfry) (i : FaultInfo) : Belfry :=
  { b with limited := b.limited.filter fun x =>
      !(x.1 == BitVec.ofNat 16 i.code && x.2.1 == BitVec.ofNat 8 i.block && x.2.2.1 == BitVec.ofNat 8 i.inst) }

/-- The record of an occurrence now. -/
def State.recordOf (s : State) (i : FaultInfo) : FaultRec :=
  { number := 0, cls := i.cls, count := BitVec.ofNat 8 (min 255 (s.blf.skippedCount i)), code := BitVec.ofNat 16 i.code
    block := BitVec.ofNat 8 i.block, inst := BitVec.ofNat 8 i.inst
    pkey := i.pkey.getD ((s.sourceOwner i.block i.inst).getD 0), detail := BitVec.ofNat 32 i.detail
    address := BitVec.ofNat 64 i.address, time := s.blf.time }

/-- Log a fault and send its FAULT event: to the owning port when the source belongs to a partition, otherwise, and when
`both` is set by the rule, to both (R390, R393, R394). -/
def State.logTo (s : State) (both : Bool) (i : FaultInfo) : State :=
  let r := s.recordOf i
  let s := s.modBlf fun b => (b.clearSkipped i).write r
  let data := ({ r with number := s.blf.newest }).bytes
  match if both then none else (s.sourceOwner i.block i.inst).bind s.blf.portOf with
  | some p => s.postEvent p 2 data
  | none => s.postBoth 2 data

/-- Log a fault under the general routing of R390. -/
def State.log (s : State) (i : FaultInfo) : State := s.logTo false i

/-- Count an occurrence without logging it (R394). -/
def State.countOnly (s : State) (i : FaultInfo) : State :=
  let n := s.blf.skippedCount i
  s.modBlf fun b => { b.clearSkipped i with
    limited := (BitVec.ofNat 16 i.code, BitVec.ofNat 8 i.block, BitVec.ofNat 8 i.inst, n + 1) :: (b.clearSkipped i).limited }

/-- Log at most once per `period` bt per code and source; other occurrences are counted (R238, R365, R394, R435). -/
def State.logLimited (s : State) (period : Nat) (both : Bool) (i : FaultInfo) : State :=
  let hit := fun x : BitVec 16 × Byte × Byte × Nat =>
    x.1 == BitVec.ofNat 16 i.code && x.2.1 == BitVec.ofNat 8 i.block && x.2.2.1 == BitVec.ofNat 8 i.inst
  match s.blf.limitedAt.find? hit with
  | some x =>
    if s.now < x.2.2.2 + period then s.countOnly i
    else (s.modBlf fun b => { b with limitedAt := (x.1, x.2.1, x.2.2.1, s.now) :: b.limitedAt.filter fun y => !hit y }).logTo both i
  | none =>
    (s.modBlf fun b => { b with
      limitedAt := (BitVec.ofNat 16 i.code, BitVec.ofNat 8 i.block, BitVec.ofNat 8 i.inst, s.now) :: b.limitedAt }).logTo both i

/-! ### ECC (R235 to R238) -/

/-- The MEM_ register unit that counts errors of the word at byte address `a` (R238, R239). -/
def eccUnit (a : Nat) : Fin 24 :=
  if a < 0x04000000 then Fin.ofNat 24 (16 + a / 0x800000) else Fin.ofNat 24 ((a - 0x0100000000) / 0x01000000 % 16)

/-- The source block and instance of the memory that holds byte address `a` (Table FLT-3). -/
def memSource (a : Nat) : Nat × Nat :=
  if a < 0x04000000 then (10, a / 0x800000)
  else
    let n := (a - 0x0100000000) / 0x01000000 % 16
    let o := a % 0x01000000
    if o < 0x600000 then (8, n) else (9, n * 4 + (o - 0xC00000) / 0x40000 % 4)

/-- The index of a memory instance in `eccSince`: Cupolas, Dome slices, Lanterns. -/
def memIndex (a : Nat) : Fin 96 :=
  match memSource a with
  | (8, n) => Fin.ofNat 96 n
  | (10, n) => Fin.ofNat 96 (16 + n)
  | (_, n) => Fin.ofNat 96 (24 + n)

/-- One damaged word is read: a single-bit error is corrected in place and counted, 0x101 at most once per 1 ms per memory; an
uncorrectable one marks the word poisoned and is counted (R235, R236, R238). -/
def State.eccRead (s : State) (u : Nat × Bool) : State :=
  let a := 8 * u.1
  if u.2 then
    (s.setMem (s.mem.mark u.1 1 fun _ => true)).modBlf fun b =>
      { b with eccUncorr := upd b.eccUncorr (eccUnit a) fun w => satAdd w 1 }
  else
    let s := s.modBlf fun b => { b with
      eccCorr := upd b.eccCorr (eccUnit a) fun w => satAdd w 1
      eccSince := upd b.eccSince (memIndex a) fun w => satAdd w 1 }
    let i : FaultInfo := { cls := .corrected, code := 0x101, block := (memSource a).1, inst := (memSource a).2, pkey := none
                           detail := (s.blf.eccSince[memIndex a]).toNat, address := a }
    let n := s.blf.newest
    let t := s.logLimited 100000 false i
    if t.blf.newest = n then t else t.modBlf fun b => { b with eccSince := upd b.eccSince (memIndex a) fun _ => 0 }

/-- The `n` bytes from `a` are read: every damaged word among them is checked (R235). -/
def State.demand (s : State) (a n : Nat) : State :=
  let hit := fun u : Nat × Bool => a / 8 ≤ u.1 && u.1 < a / 8 + wordSpan a n
  (s.mem.upsets.filter hit).foldl State.eccRead
    (s.setMem { s.mem with upsets := s.mem.upsets.filter fun u => !hit u })

/-! ### Units, freezing and waits -/

/-- The unit number of Table SYN-3, also its code of Table FAB-3. -/
def unitNum : UnitId → Nat
  | .eng e => e.val
  | .vec => 4
  | .mover => 5
  | .seq => 6

/-- The unit with a number of Table SYN-3. -/
def unitOf (n : Nat) : Option UnitId :=
  if h : n < 4 then some (.eng ⟨n, h⟩) else if n = 4 then some .vec else if n = 5 then some .mover
  else if n = 6 then some .seq else none

/-- The fault-source block and instance of a unit (Table FLT-3). -/
def unitSource (c : CoreId) : UnitId → Nat × Nat
  | .eng e => (1, c.val * 4 + e.val)
  | .vec => (2, c.val)
  | .mover => (3, c.val)
  | .seq => (4, c.val)

/-- The queue of a performer; the sequencer has none. -/
def Core.unitQ (k : Core) : UnitId → UnitQ
  | .eng e => k.eng[e].q
  | .vec => k.vec.q
  | .mover => k.mov.q
  | .seq => { UnitQ.empty with wait := k.seq.wait, freeze := k.seq.freeze }

/-- Change a performer's queue (nothing for the sequencer). -/
def State.modQ (s : State) (c : CoreId) (u : UnitId) (f : UnitQ → UnitQ) : State :=
  match u with
  | .eng e => s.modEng c e fun x => { x with q := f x.q }
  | .vec => s.modVec c fun x => { x with q := f x.q }
  | .mover => s.modMov c fun x => { x with q := f x.q }
  | .seq => s

/-- The freeze of a unit. -/
def State.frozen (s : State) (c : CoreId) (u : UnitId) : Option Freeze := ((s.core c).unitQ u).freeze

/-- The freeze a further cause leaves: the first cause stands, a fatal one replaces it, and a failed descriptor stays to be
discarded (R400). -/
def mergeFreeze (old : Option Freeze) (cause : FreezeCause) (discard : Bool) : Option Freeze :=
  match old with
  | none => some { cause := cause, discard := discard, answer := none }
  | some f => some { f with cause := if cause = .fatal then .fatal else f.cause, discard := f.discard || discard }

/-- Freeze a unit. SEQ_FAULT_DESC records the descriptor at offset `desc`, where the unit stops; a further cause does not move that point
(R399, R400). -/
def State.freezeUnit (s : State) (c : CoreId) (u : UnitId) (cause : FreezeCause) (discard : Bool) (desc : Option Nat) : State :=
  let stops := (s.frozen c u).isNone
  let s := match u with
    | .seq => s.modSeq c fun q => { q with freeze := mergeFreeze q.freeze cause discard }
    | u => s.modQ c u fun q => { q with freeze := mergeFreeze q.freeze cause discard }
  match desc with
  | some d => if stops then s.modSeq c fun q => { q with faultDesc := BitVec.ofNat 23 d } else s
  | none => s

/-- Refuse a descriptor: 0x502 in class contained, its offset in DETAIL and SEQ_FAULT_DESC, its unit frozen (R64, R192). -/
def State.refuse (s : State) (c : CoreId) (u : UnitId) (off : Nat) : State :=
  (s.log { cls := .contained, code := 0x502, block := (unitSource c u).1, inst := (unitSource c u).2, pkey := none
           detail := off, address := 0 }).freezeUnit c u .refusal true (some off)

/-- The descriptors a performer has been given and not completed. -/
def UnitQ.opens (q : UnitQ) : List QEntry := (q.active.filter fun a => a.progress != .done).map (·.entry) ++ q.queue

/-- The entry dispatched first. -/
def firstEntry (l : List QEntry) : Option QEntry :=
  l.foldl (fun m e => match m with
    | none => some e
    | some x => some (if e.id < x.id then e else x)) none

/-- The ring size, 2^LOG2 (R158). -/
def Sequencer.size (q : Sequencer) : Nat := 2 ^ q.log2.toNat

/-- The Cupola offset of ring slot `n`. -/
def Sequencer.slotOff (q : Sequencer) (n : Nat) : Nat := q.ringBase.toNat + (n % q.size) * 64

/-- The offset of the descriptor at which the sequencer stands: one it is working on, or the next one. -/
def Sequencer.openOff (q : Sequencer) : Option Nat :=
  match q.fencing, q.halting with
  | some f, _ => some f.entry.off
  | none, some e => some e.off
  | none, none => match q.loop with
    | some l => some ((l.body[l.b]?).getD (0, 0)).2
    | none => match q.segment with
      | some a => some a
      | none => if q.head = q.tail then none else some (q.slotOff q.head.toNat)

/-- The offset of the first descriptor, in order of dispatch, that a unit of the mask or the sequencer has not completed. A REPEAT completes
after its last copy. -/
def Core.openIn (k : Core) (mask : Nat) : Option Nat :=
  let l := (bitsSet mask 6).flatMap fun n => match unitOf n with
    | some u => (k.unitQ u).opens
    | none => []
  match firstEntry l, if bitOf mask 6 then k.seq.loop else none with
  | some e, some r => some (if e.id < r.issued then e.off else r.off)
  | some e, none => some e.off
  | none, some r => some r.off
  | none, none => if bitOf mask 6 then k.seq.openOff else none

/-- The Cupola offset of the core's first descriptor that has not completed (Table TIL-1, R401). -/
def Core.firstOpen (k : Core) : Option Nat := k.openIn 0x7F

/-- Log 0x703 for a core: its first open descriptor in DETAIL, the unit mask in ADDRESS (R384, R401). -/
def State.logFrozen (s : State) (c : CoreId) (mask : Nat) : State :=
  s.log { cls := .contained, code := 0x703, block := 4, inst := c.val, pkey := none, detail := ((s.core c).firstOpen).getD 0xFFFFFFFF, address := mask }

/-- The units of a mask that are not frozen yet. -/
def State.unfrozen (s : State) (c : CoreId) (mask : Nat) : Nat :=
  ((bitsSet mask 7).map fun n => match unitOf n with
    | some u => if (s.frozen c u).isNone then 2 ^ n else 0
    | none => 0).sum

/-- SEQ_FAULT_DESC records the first descriptor at which the units of a mask stand (R399). -/
def State.noteStop (s : State) (c : CoreId) (mask : Nat) : State :=
  match (s.core c).openIn mask with
  | some o => s.modSeq c fun q => { q with faultDesc := BitVec.ofNat 23 o }
  | none => s

/-- Freeze the units of `mask` in a core; SEQ_FAULT_DESC records where those stop that were running (R384, R399, R400). -/
def State.freezeMask (s : State) (c : CoreId) (mask : Nat) (cause : FreezeCause) : State :=
  (bitsSet mask 7).foldl (fun s n => match unitOf n with
    | some u => s.freezeUnit c u cause false none
    | none => s) (s.noteStop c (s.unfrozen c mask))

/-- Freeze every unit of every present core, logging 0x703 once per core (R384). -/
def State.haltAll (s : State) (cause : FreezeCause) : State :=
  s.forCores fun s c => if (s.core c).here then (s.freezeMask c 0x7F cause).logFrozen c 0x7F else s

/-- Steps 1 to 3 of R403 for a fatal fault of the given source: every unit is frozen, the record and the FAULT event are made, and LOCAL injects
nothing more. The 100 µs of step 4 count from the first fatal fault. -/
def State.fence (s : State) (code block inst detail addr : Nat) : State :=
  let s := s.forCores fun s c => if (s.core c).here then s.freezeMask c 0x7F .fatal else s
  let s := s.logTo true { cls := .fatal, code := code, block := block, inst := inst, pkey := none, detail := detail, address := addr }
  { s with fatal := true, fatalAt := if s.fatal then s.fatalAt else s.now }

/-- Campanile uses a poisoned word: fault 0x103 in class fatal, and what carried the word is used no further (R396, Table FLT-4). -/
def State.campPoison (s : State) : State := s.fence 0x103 0x19 0 0xFFFFFFFF 0

/-- Onaune's default wait timeout (R250). -/
def State.waitDefault (s : State) : Nat := s.blf.waitDefault.toNat

/-- A wait that begins now. A TIMEOUT of 0 stands for the die default, sampled now (R250). -/
def State.newWait (s : State) (kind : WaitKind) (counter : Nat) (thresh : Nat) (desc : Nat) (timeout : Nat) : Wait :=
  { kind := kind, counter := BitVec.ofNat 6 counter, thresh := BitVec.ofNat 16 thresh, desc := desc
    timeout := if timeout = 0 then s.waitDefault else timeout, own := timeout != 0, began := s.now, elapsed := 0, woken := false, expired := false }

/-- A wait begins afresh at UNFREEZE and is tested in the next ck; the default is sampled anew (R124, R250, R251). -/
def Wait.restart (now default : Nat) (w : Wait) : Wait :=
  { w with timeout := if w.own then w.timeout else default, began := now, elapsed := 0, expired := false, woken := true }

/-! ### Counters and bell lines (09) -/

/-- A bell wakes a wait on one of its counters (R247). -/
def Wait.ring (line : Nat) (w : Wait) : Wait :=
  if (w.kind = .waitDesc ∨ w.kind = .header) ∧ w.counter.toNat % 16 = line then { w with woken := true } else w

/-- Bell `line` of core `c` fires: sleepers on its counters wake, and an enabled bell in C2 or C3 asks for a wake (R246 to R248, R332). -/
def State.fireBell (s : State) (c : CoreId) (line : Nat) : State :=
  s.modCore c fun k =>
    let ringQ := fun q : UnitQ => { q with wait := q.wait.map (Wait.ring line) }
    { k with
      seq := { k.seq with wait := k.seq.wait.map (Wait.ring line) }
      vec := { k.vec with q := ringQ k.vec.q }
      mov := { k.mov with q := ringQ k.mov.q }
      eng := vmap (fun x => { x with q := ringQ x.q, stageWait := x.stageWait.map (Wait.ring line) }) k.eng
      bellPend := k.bellPend || ((k.cstate == .c2 || k.cstate == .c3) && bitOf k.bellWake.toNat line) }

/-- The operations of Table SYN-1. -/
inductive CntOp where
  | add (n : Nat) | sub (n : Nat) | set (n : Nat)
deriving DecidableEq, Repr

/-- The value an operation leaves, and whether it saturated high or low (R243). -/
def CntOp.apply (v : Nat) : CntOp → Nat × Bool × Bool
  | .add n => if v + n ≤ 0xFFFF then (v + n, false, false) else (0xFFFF, true, false)
  | .sub n => if n ≤ v then (v - n, false, false) else (0, false, true)
  | .set n => (n % 0x10000, false, false)

/-- Perform a counter operation: saturation and its bits, fault 0x602 for a new bit whose enable is 1, and the bell when the
value changes (R242, R243, R246). -/
def State.cntOp (s : State) (c : CoreId) (n : Fin 64) (op : CntOp) : State :=
  let k := s.core c
  let old := k.cnt[n]
  let r := op.apply old.toNat
  let newSat := r.2.1 && !bitOf k.sat.toNat n.val
  let newUnder := r.2.2 && !bitOf k.under.toNat n.val
  let s1 := s.modCore c fun k => { k with
    cnt := upd k.cnt n fun _ => BitVec.ofNat 16 r.1
    sat := if r.2.1 then putBit k.sat n.val true else k.sat
    under := if r.2.2 then putBit k.under n.val true else k.under }
  let info := fun d : Nat => ({ cls := .corrected, code := 0x602, block := 5, inst := c.val, pkey := none, detail := d, address := n.val } : FaultInfo)
  let s2 := if newSat && bitOf k.cntCtrl.toNat 0 then s1.log (info 0) else s1
  let s3 := if newUnder && bitOf k.cntCtrl.toNat 1 then s2.log (info 1) else s2
  if BitVec.ofNat 16 r.1 = old then s3 else s3.fireBell c (n.val % 16)

/-- A counter test (R249). -/
def State.cntMet (s : State) (c : CoreId) (counter thresh : Nat) : Bool :=
  decide (thresh ≤ ((s.core c).cnt[Fin.ofNat 64 counter]).toNat)

/-! ### Die identity and address map (R4, R20, R21) -/

/-- The fused site x. -/
def State.siteX (s : State) : Nat := field (s.blf.shadow[0]).toNat 0 3

/-- The fused site y. -/
def State.siteY (s : State) : Nat := field (s.blf.shadow[0]).toNat 3 3

/-- The die ID, y × 8 + x (R4). -/
def State.dieId (s : State) : BitVec 6 := BitVec.ofNat 6 (s.siteY * 8 + s.siteX)

/-- The fused ROLE (Table PAR-9). -/
def State.role (s : State) : Nat := field (s.blf.shadow[0]).toNat 6 2

/-- The fused attachment code of an edge (Table PAR-9). -/
def State.attach (s : State) (e : EdgeId) : Nat := field (s.blf.shadow[1]).toNat (3 * e.val) 3

/-- The edge is fused for UCIe mode. -/
def State.ucie (s : State) (e : EdgeId) : Bool := bitOf (s.blf.shadow[1]).toNat (12 + e.val)

/-- The edge carries foreign traffic: attachment I/O, optical or memory (R274). -/
def State.foreign (s : State) (e : EdgeId) : Bool := s.attach e == 2 || s.attach e == 3 || s.attach e == 4

/-- Regions of Tables DIE-5 and DIE-6. -/
inductive Region where
  | dome (slice : Fin 8)
  | cupola (c : CoreId)
  | lantern (c : CoreId)
  | csr (c : CoreId)
  | spire
  | parapet
  | belfry
  | campanile
  | reserved
deriving DecidableEq, Repr

/-- An offset inside a Lantern area lies in one of the windows of Table DIE-6 (and not in a reserved gap). -/
def inLantern (o : Nat) : Bool :=
  decide (0xC00000 ≤ o ∧ o < 0xD00000) &&
    (let r := (o - 0xC00000) % 0x40000; decide (r < 0x19000 ∨ (0x20000 ≤ r ∧ r < 0x30000)))

/-- The region of a die-local address. -/
def region (a : Nat) : Region :=
  if a < 0x04000000 then .dome (Fin.ofNat 8 (a / 0x800000))
  else if 0x0100000000 ≤ a ∧ a < 0x0110000000 then
    let c : CoreId := Fin.ofNat 16 ((a - 0x0100000000) / 0x01000000)
    let o := a % 0x01000000
    if o < 0x600000 then .cupola c
    else if inLantern o then .lantern c
    else if 0xF00000 ≤ o ∧ o < 0xF44000 then .csr c else .reserved
  else if 0x0200000000 ≤ a ∧ a < 0x0210000000 then .spire
  else if 0x0210000000 ≤ a ∧ a < 0x0214000000 then .parapet
  else if 0x0300000000 ≤ a ∧ a < 0x0380000000 then .belfry
  else if 0x0380000000 ≤ a ∧ a < 0x0400000000 then .campanile
  else .reserved

/-- The state code of a core for DETAIL [18:16] (R25). -/
def Core.stateCode (k : Core) : Nat :=
  if k.short then 5 else match k.cstate with
    | .c0 => 0
    | .c2 => 2
    | .c3 => 3
    | .c4 => 4

/-- Table DIE-7: an access to a core region is refused by the core's state. -/
def Core.refuses (k : Core) (r : Region) : Bool :=
  k.short || k.cstate == .c4 || (match r with
    | .cupola _ => false
    | _ => k.cstate == .c2 || k.cstate == .c3)

/-- What the checks of R19, R22, R23, R24 and R25 say of a die-local access. -/
inductive Verdict where
  | ok | reserved | coreState (code : Nat) | key | readOnly
deriving DecidableEq, Repr

/-- The owner of the core or slice a region belongs to. -/
def State.regionOwner (s : State) : Region → Option (Option (BitVec 16))
  | .dome i => some (s.blf.sliceOwner[i])
  | .cupola c => some (s.core c).owner
  | .lantern c => some (s.core c).owner
  | .csr c => some (s.core c).owner
  | _ => none

/-- The uncore's gates are closed in D2: Dome, Spire and Parapet cannot be reached (Tables DIE-8, DIE-9). -/
def State.gated (s : State) : Region → Bool
  | .dome _ | .spire | .parapet => s.dstate == .d2
  | _ => false

/-- The verdict on an access of a master with key `key` to the byte at `a`. DESIGN CHOICE (log entry 127): the region of an absent core
(R16) and gated uncore regions are answered as reserved addresses, before any key is compared, and the key (R19) is compared before the core's
state is looked at (R25). -/
def State.verdict (s : State) (key : Option (BitVec 16)) (a : Nat) (write : Bool) : Verdict :=
  let r := region a
  if s.gated r then .reserved else
  match r with
  | .reserved => .reserved
  | .campanile => .reserved
  | .spire => if write then .readOnly else .ok
  | .parapet => if write then .readOnly else .ok
  | .belfry => if write then .readOnly else .ok
  | .dome i => if s.blf.sliceOwner[i] = key ∧ key ≠ none then .ok else .key
  | .cupola c | .lantern c | .csr c =>
    let k := s.core c
    if !k.present then .reserved
    else if k.owner ≠ key ∨ key = none then .key
    else if k.refuses r then .coreState k.stateCode else .ok

/-- DETAIL of 0x202 for a die-local access (Table FLT-4). -/
def Verdict.detail : Verdict → Nat
  | .coreState n => n * 0x10000 + 0x80000
  | _ => 0

/-- A key mismatch at a die NoC node is counted where Spire counts one, in SPR_DROP_KEY (R19, R277; DEDUCED, log entry 128). -/
def State.countKey (s : State) : State := s.modSpire fun p => { p with dropKey := satAdd p.dropKey 1 }

/-- Log what a refused die-local access of unit `u` logs: 0x202 deferred, 0x201 or 0x701 contained; the last two freeze
the issuing master (R19, R22, R24, R25). -/
def State.refusedAccess (s : State) (c : CoreId) (u : UnitId) (desc : Option Nat) (a : Nat) (v : Verdict) : State :=
  let src := unitSource c u
  let own := (s.core c).owner
  match v with
  | .ok => s
  | .reserved | .coreState _ =>
    s.log { cls := .deferred, code := 0x202, block := src.1, inst := src.2, pkey := own, detail := v.detail, address := a }
  | .key =>
    (s.countKey.log { cls := .contained, code := 0x201, block := src.1, inst := src.2, pkey := own
                      detail := s.dieId.toNat + c.val * 64 + unitNum u * 1024, address := a }).freezeUnit c u .violation true desc
  | .readOnly =>
    (s.log { cls := .contained, code := 0x701, block := src.1, inst := src.2, pkey := own, detail := s.dieId.toNat
             address := a }).freezeUnit c u .violation true desc

end Sys2Proof.Machine
end

