-- ==== Sys2Proof/Machine/Float.lean ====
section
/-! DEFINITION. Number formats, widening, rounding and flags (03), and the exact arithmetic the vector engine, promotion and the
epilogue share. Values are dyadic numbers computed exactly and rounded once. -/

namespace Sys2Proof.Machine

/-! ### Formats (Tables NUM-1, NUM-2) -/

/-- The data formats. -/
inductive Fmt where
  | fp32 | fp16 | e4m3 | e5m2 | bf16
deriving DecidableEq, Repr

/-- The format with a code of Table NUM-1; E8M0 (0x5) is no data format (R71), 0x6 to 0xF are reserved. -/
def fmtOf (code : Nat) : Option Fmt :=
  match code with
  | 0 => some .fp32
  | 1 => some .fp16
  | 2 => some .e4m3
  | 3 => some .e5m2
  | 4 => some .bf16
  | _ => none

/-- Exponent bits. -/
def Fmt.ebits : Fmt → Nat
  | .fp32 | .bf16 => 8
  | .fp16 | .e5m2 => 5
  | .e4m3 => 4

/-- Significand bits. -/
def Fmt.mbits : Fmt → Nat
  | .fp32 => 23
  | .fp16 => 10
  | .e4m3 => 3
  | .e5m2 => 2
  | .bf16 => 7

/-- Bias. -/
def Fmt.bias : Fmt → Nat
  | .fp32 | .bf16 => 127
  | .fp16 | .e5m2 => 15
  | .e4m3 => 7

/-- Bytes of an element. -/
def Fmt.size : Fmt → Nat
  | .fp32 => 4
  | .fp16 | .bf16 => 2
  | .e4m3 | .e5m2 => 1

/-- Exponent of the smallest normal. -/
def Fmt.emin (f : Fmt) : Int := 1 - f.bias

/-- Exponent of the largest finite value. -/
def Fmt.emax (f : Fmt) : Int := match f with
  | .fp32 | .bf16 => 127
  | .fp16 | .e5m2 => 15
  | .e4m3 => 8

/-- The significand of the largest finite value as an integer of mbits + 1 bits; E4M3's is 0b1110. -/
def Fmt.maxSig (f : Fmt) : Nat := if f = .e4m3 then 14 else 2 ^ (f.mbits + 1) - 1

/-- The weight of the sign bit. -/
def Fmt.signBit (f : Fmt) : Nat := 2 ^ (f.ebits + f.mbits)

/-- The largest finite magnitude's bits. -/
def Fmt.maxBits (f : Fmt) : Nat := if f = .e4m3 then 0x7E else (2 ^ f.ebits - 1) * 2 ^ f.mbits - 1

/-- The infinity's bits; E4M3, which has none, gives its NaN code as Table NUM-4 does on overflow. -/
def Fmt.infBits (f : Fmt) : Nat := if f = .e4m3 then 0x7F else (2 ^ f.ebits - 1) * 2 ^ f.mbits

/-- The positive canonical NaN (R73). -/
def Fmt.nanBits (f : Fmt) : Nat := if f = .e4m3 then 0x7F else (2 ^ f.ebits - 1) * 2 ^ f.mbits + 2 ^ (f.mbits - 1)

/-- The sign of an encoding. -/
def Fmt.neg (f : Fmt) (b : Nat) : Bool := bitOf b (f.ebits + f.mbits)

/-- An encoding without its sign. -/
def Fmt.mag (f : Fmt) (b : Nat) : Nat := b % f.signBit

/-- A number's value, decoded: a NaN, signalling or quiet; an infinity; or ± m × 2^e. -/
inductive FVal where
  | nan (signalling : Bool)
  | inf (neg : Bool)
  | fin (neg : Bool) (m : Nat) (e : Int)
deriving DecidableEq, Repr

/-- The value of an encoding (R70). -/
def decodeF (f : Fmt) (b : Nat) : FVal :=
  let neg := f.neg b
  let ex := f.mag b / 2 ^ f.mbits
  let m := f.mag b % 2 ^ f.mbits
  if f = .e4m3 ∧ ex = 15 ∧ m = 7 then .nan false
  else if f ≠ .e4m3 ∧ ex = 2 ^ f.ebits - 1 then
    if m = 0 then .inf neg else .nan (!bitOf m (f.mbits - 1))
  else if ex = 0 then .fin neg m (f.emin - f.mbits)
  else .fin neg (2 ^ f.mbits + m) ((ex : Int) - f.bias - f.mbits)

/-- A nonzero encoding with exponent field 0. -/
def Fmt.subnormal (f : Fmt) (b : Nat) : Bool := f.mag b != 0 && f.mag b < 2 ^ f.mbits

/-- The input flush of R85: with SUBN = 0 a subnormal becomes the zero of its sign and sets FLUSH. -/
def flushIn (f : Fmt) (subn : Bool) (b : Nat) : Nat × Flags :=
  if !subn && f.subnormal b then (if f.neg b then f.signBit else 0, fFLUSH) else (b, 0)

/-! ### Lossless widening (R75) -/

/-- An FP8 byte, or an FP16 value, as FP16. -/
def widen16 (f : Fmt) (b : Nat) : Nat :=
  match f with
  | .e5m2 => b * 256
  | .e4m3 =>
    let s := if f.neg b then 0x8000 else 0
    let ex := f.mag b / 8
    let m := f.mag b % 8
    if f.mag b = 0x7F then s + 0x7E00
    else if ex ≠ 0 then s + (ex + 8) * 1024 + m * 128
    else s + ([0, 0x1800, 0x1C00, 0x1E00, 0x2000, 0x2100, 0x2200, 0x2300][m]?).getD 0
  | _ => b

/-- An FP16 value as FP32; NaN payloads and quiet bits keep their places. -/
def widen16to32 (b : Nat) : Nat :=
  let s := if bitOf b 15 then 0x80000000 else 0
  let ex := field b 10 5
  let m := field b 0 10
  if ex = 31 then s + 0x7F800000 + m * 8192
  else if ex ≠ 0 then s + (ex + 112) * 0x800000 + m * 8192
  else if m = 0 then s
  else
    let l := Nat.log2 m
    s + (l + 103) * 0x800000 + (m - 2 ^ l) * 2 ^ (23 - l)

/-- Any format as FP32. -/
def widen32 (f : Fmt) (b : Nat) : Nat :=
  match f with
  | .fp32 => b
  | .bf16 => b * 65536
  | f => widen16to32 (widen16 f b)

/-! ### Rounding (R77 to R84) -/

/-- Rounding modes (Table NUM-3). -/
inductive RMode where
  | rne | rtz | ru | rd | sr
deriving DecidableEq, Repr

/-- The mode with a code. -/
def rmodeOf (code : Nat) : Option RMode :=
  match code with
  | 0 => some .rne
  | 1 => some .rtz
  | 2 => some .ru
  | 3 => some .rd
  | 4 => some .sr
  | _ => none

/-- An exact magnitude with its sign: m × 2^e, or, with `sticky`, some value strictly between m × 2^e and (m + 1) × 2^e. -/
structure Exact where
  neg : Bool
  m : Nat
  e : Int
  sticky : Bool
deriving DecidableEq, Repr

/-- R79: the multiple of 2^u that the mode gives for the magnitude, and whether it is inexact. `r` is the draw. -/
def roundAt (mode : RMode) (r : Nat) (x : Exact) (u : Int) : Nat × Bool :=
  let sh := (u - x.e).toNat
  let n := if x.e ≥ u then x.m * 2 ^ (x.e - u).toNat else x.m / 2 ^ sh
  let rem := if x.e ≥ u then 0 else x.m % 2 ^ sh
  let inexact := rem != 0 || x.sticky
  let above := 2 * rem > 2 ^ sh || (2 * rem == 2 ^ sh && x.sticky)
  let tie := 2 * rem == 2 ^ sh && !x.sticky
  let up := match mode with
    | .rne => x.e < u && (above || (tie && n % 2 == 1))
    | .rtz => false
    | .ru => inexact && !x.neg
    | .rd => inexact && x.neg
    | .sr => decide (65536 ≤ rem * 65536 / 2 ^ sh + r)
  (n + b2n up, inexact)

/-- ⌊log₂⌋ of a nonzero exact magnitude. -/
def Exact.exp (x : Exact) : Int := (Nat.log2 x.m : Int) + x.e

/-- The overflow result of Table NUM-4. -/
def overflowBits (f : Fmt) (mode : RMode) (sat neg : Bool) : Nat :=
  let s := if neg then f.signBit else 0
  let cut := mode = .rtz ∨ (mode = .rd ∧ neg = false) ∨ (mode = .ru ∧ neg = true)
  s + if sat ∨ cut then f.maxBits else f.infBits

/-- Round an exact value to a format, with the overflow rule of R82 and the tiny rule of R84 and R85. -/
def roundTo (f : Fmt) (mode : RMode) (r : Nat) (sat subn : Bool) (x : Exact) : Nat × Flags :=
  let s := if x.neg then f.signBit else 0
  if x.m = 0 ∧ x.sticky = false then (s, 0)
  else
    let e := if x.m = 0 then x.e - 1 else x.exp
    let u := max e f.emin - f.mbits
    let (n, inexact) := roundAt mode r x u
    let (n', _) := roundAt mode r x (e - f.mbits)
    let tiny := e < f.emin && !(n' == 2 ^ (f.mbits + 1) && e + 1 == f.emin)
    let excess := u > f.emax - f.mbits || (u == f.emax - f.mbits && n > f.maxSig)
    if tiny && !subn then (s, fFLUSH ||| fUF ||| fNX)
    else if excess then (overflowBits f mode sat x.neg, fOF ||| fNX)
    else
      (s + ((u + f.mbits + f.bias).toNat * 2 ^ f.mbits + n - 2 ^ f.mbits),
        (if inexact then fNX else 0) ||| (if tiny && inexact then fUF else 0))

/-! ### Exact arithmetic (R87, R88) -/

/-- The result of an operation before rounding: a NaN (with NV when invalid), an infinity, or an exact number. -/
inductive RV where
  | nan (nv : Bool)
  | inf (neg : Bool)
  | num (x : Exact)
deriving DecidableEq, Repr

/-- An exact dyadic ± m × 2^e as a result. -/
def exactly (neg : Bool) (m : Nat) (e : Int) : Exact := { neg := neg, m := m, e := e, sticky := false }

/-- A decoded value is a signalling NaN. -/
def FVal.isSig : FVal → Bool
  | .nan s => s
  | _ => false

/-- A decoded value is a NaN. -/
def FVal.isNan : FVal → Bool
  | .nan _ => true
  | _ => false

/-- The sum of two dyadics; an exact zero is +0 unless both are −0 (R87, RNE). -/
def addExact (n1 : Bool) (m1 : Nat) (e1 : Int) (n2 : Bool) (m2 : Nat) (e2 : Int) : Exact :=
  let e := min e1 e2
  let a : Int := (m1 * 2 ^ (e1 - e).toNat : Nat)
  let b : Int := (m2 * 2 ^ (e2 - e).toNat : Nat)
  let t := (if n1 then -a else a) + (if n2 then -b else b)
  if t = 0 then exactly (n1 && n2 && m1 == 0 && m2 == 0) 0 0 else exactly (t < 0) t.natAbs e

/-- Addition. -/
def addV (a b : FVal) : RV :=
  match a, b with
  | .nan x, y => .nan (x || y.isSig)
  | x, .nan y => .nan (x.isSig || y)
  | .inf x, .inf y => if x = y then .inf x else .nan true
  | .inf x, .fin _ _ _ => .inf x
  | .fin _ _ _, .inf y => .inf y
  | .fin n1 m1 e1, .fin n2 m2 e2 => .num (addExact n1 m1 e1 n2 m2 e2)

/-- Sign inversion of a decoded value. -/
def FVal.negate : FVal → FVal
  | .nan s => .nan s
  | .inf n => .inf (!n)
  | .fin n m e => .fin (!n) m e

/-- Multiplication. -/
def mulV (a b : FVal) : RV :=
  match a, b with
  | .nan x, y => .nan (x || y.isSig)
  | x, .nan y => .nan (x.isSig || y)
  | .inf x, .inf y => .inf (x != y)
  | .inf x, .fin n m _ => if m = 0 then .nan true else .inf (x != n)
  | .fin n m _, .inf y => if m = 0 then .nan true else .inf (n != y)
  | .fin n1 m1 e1, .fin n2 m2 e2 => .num (exactly (n1 != n2) (m1 * m2) (e1 + e2))

/-- Fused multiply-add with an unrounded product; 0 × ∞ is invalid whatever `c` is (R88). -/
def fmaV (a b c : FVal) : RV :=
  match mulV a b with
  | .nan nv => .nan (nv || c.isSig)
  | .inf n => match c with
    | .nan s => .nan s
    | .inf n' => if n = n' then .inf n else .nan true
    | .fin _ _ _ => .inf n
  | .num x => match c with
    | .nan s => .nan s
    | .inf n => .inf n
    | .fin n m e => .num (addExact x.neg x.m x.e n m e)

/-- A result delivered in a format under RNE and SAT = 0 (R82, R88). -/
def finish (f : Fmt) (subn : Bool) (r : RV) : Nat × Flags :=
  match r with
  | .nan nv => (f.nanBits, if nv then fNV else 0)
  | .inf n => (if n then f.signBit + f.infBits else f.infBits, 0)
  | .num x => roundTo f .rne 0 false subn x

/-- A binary lane operation with input flush. -/
def lane2 (op : FVal → FVal → RV) (f : Fmt) (subn : Bool) (a b : Nat) : Nat × Flags :=
  let (a, fa) := flushIn f subn a
  let (b, fb) := flushIn f subn b
  let (v, fl) := finish f subn (op (decodeF f a) (decodeF f b))
  (v, fl ||| fa ||| fb)

/-- ADD. -/
def fAdd (f : Fmt) (subn : Bool) (a b : Nat) : Nat × Flags := lane2 addV f subn a b
/-- SUB. -/
def fSub (f : Fmt) (subn : Bool) (a b : Nat) : Nat × Flags := lane2 (fun x y => addV x y.negate) f subn a b
/-- MUL. -/
def fMul (f : Fmt) (subn : Bool) (a b : Nat) : Nat × Flags := lane2 mulV f subn a b

/-- FMA. -/
def fFma (f : Fmt) (subn : Bool) (a b c : Nat) : Nat × Flags :=
  let (a, fa) := flushIn f subn a
  let (b, fb) := flushIn f subn b
  let (c, fc) := flushIn f subn c
  let (v, fl) := finish f subn (fmaV (decodeF f a) (decodeF f b) (decodeF f c))
  (v, fl ||| fa ||| fb ||| fc)

/-! ### Order (R88, R94, R95) -/

/-- A number's place in the order of Table NUM-9: −∞ … −0 < +0 … +∞. -/
def orderKey (f : Fmt) (b : Nat) : Int := if f.neg b then -(f.mag b : Int) - 1 else f.mag b

/-- The same with −0 equal to +0, for comparisons. -/
def valueKey (f : Fmt) (b : Nat) : Int := if f.neg b then -(f.mag b : Int) else f.mag b

/-- MAX (`up`) or MIN of Table NUM-9. -/
def fMaxMin (up : Bool) (f : Fmt) (subn : Bool) (a b : Nat) : Nat × Flags :=
  let (a, fa) := flushIn f subn a
  let (b, fb) := flushIn f subn b
  let x := decodeF f a
  let y := decodeF f b
  let fl := fa ||| fb ||| (if x.isSig || y.isSig then fNV else 0)
  let v := if x.isNan && y.isNan then f.nanBits
    else if x.isNan then b else if y.isNan then a
    else if (orderKey f a < orderKey f b) == up then b else a
  (v, fl)

/-- The four comparisons. -/
inductive Cmp where
  | eq | ne | lt | le
deriving DecidableEq, Repr

/-- A comparison: false with a NaN operand, except not-equal; NV only for a signalling one (R88). -/
def fCmp (c : Cmp) (f : Fmt) (subn : Bool) (a b : Nat) : Bool × Flags :=
  let (a, fa) := flushIn f subn a
  let (b, fb) := flushIn f subn b
  let x := decodeF f a
  let y := decodeF f b
  let fl := fa ||| fb ||| (if x.isSig || y.isSig then fNV else 0)
  let p := valueKey f a
  let q := valueKey f b
  let v := if x.isNan || y.isNan then c == .ne else match c with
    | .eq => p == q
    | .ne => p != q
    | .lt => p < q
    | .le => p ≤ q
  (v, fl)

/-! ### Special functions (R445) -/

/-- Integer square root by binary digits: the largest `q` with q² ≤ n, from `k` digits. -/
def isqrtFrom : Nat → Nat → Nat → Nat
  | 0, _, q => q
  | k + 1, n, q => if (q + 2 ^ k) * (q + 2 ^ k) ≤ n then isqrtFrom k n (q + 2 ^ k) else isqrtFrom k n q

/-- ⌊√n⌋. -/
def isqrt (n : Nat) : Nat := isqrtFrom (Nat.log2 n / 2 + 1) n 0

/-- 1 ÷ (m × 2^e) to 80 bits and a sticky. -/
def recipExact (neg : Bool) (m : Nat) (e : Int) : Exact :=
  let k := Nat.log2 m + 80
  { neg := neg, m := 2 ^ k / m, e := -e - k, sticky := 2 ^ k % m != 0 }

/-- 1 ÷ √(m × 2^e) to 80 bits and a sticky. -/
def rsqrtExact (m : Nat) (e : Int) : Exact :=
  let m' := if e % 2 = 0 then m else 2 * m
  let e' := if e % 2 = 0 then e else e - 1
  let k := Nat.log2 m' + 80
  let q := isqrt (2 ^ (2 * k) / m')
  { neg := false, m := q, e := -(e' / 2) - k, sticky := q * q * m' != 2 ^ (2 * k) }

/-- The interval of 2^(frac): products of the square roots 2^(1/2), 2^(1/4), … selected by the `j` fraction bits of
`k` (top bit first), kept below (`lo`) and above (`hi`) with `p` fraction bits. -/
def exp2Bits (p : Nat) : Nat → Nat → Nat → Nat → Nat → Nat → Nat × Nat
  | 0, _, _, _, lo, hi => (lo, hi)
  | j + 1, k, clo, chi, lo, hi =>
    let clo' := isqrt (clo * 2 ^ p)
    let chi' := isqrt (chi * 2 ^ p) + 1
    if bitOf k j then exp2Bits p j k clo' chi' (lo * clo' / 2 ^ p) (hi * chi' / 2 ^ p + 1)
    else exp2Bits p j k clo' chi' lo hi

/-- The largest `k`-digit number, by binary digits, that `fits`; a number that fits makes every smaller one fit. -/
def topFit (fits : Nat → Bool) : Nat → Nat → Nat
  | 0, q => q
  | k + 1, q => if fits (q + 2 ^ k) then topFit fits k (q + 2 ^ k) else topFit fits k q

/-- ⌊2^(fr / 2^j) × 2^cut⌋: the largest q with q^(2^j) ≤ 2^(fr + cut × 2^j). The bounds `lo` and `hi` with `p` fraction bits give it where they
agree, and spare the powers. -/
def exp2Floor (fr j lo hi p cut : Nat) : Nat :=
  if lo / 2 ^ (p - cut) = hi / 2 ^ (p - cut) then lo / 2 ^ (p - cut)
  else topFit (fun q => decide (q ^ 2 ^ j ≤ 2 ^ (fr + cut * 2 ^ j))) (cut + 1) 0

/-- 2^x for x = ± m × 2^e, m ≠ 0. A power with a fractional exponent is irrational, so its digits never end. -/
def exp2Exact (neg : Bool) (m : Nat) (e : Int) : Exact :=
  if 0 ≤ e then
    let n := min (m * 2 ^ e.toNat) 100000
    exactly false 1 (if neg then -(n : Int) else n)
  else
    let j := (-e).toNat
    let ip := min (m / 2 ^ j) 100000
    let fp := m % 2 ^ j
    if fp = 0 then exactly false 1 (if neg then -(ip : Int) else ip)
    else if Nat.log2 m + 60 < j then
      if neg then { neg := false, m := 2 ^ 60 - 1, e := -60, sticky := true } else { neg := false, m := 2 ^ 60, e := -60, sticky := true }
    else
      let fr := if neg then 2 ^ j - fp else fp
      let base : Int := if neg then -(ip : Int) - 1 else ip
      let p := 200
      let b := exp2Bits p j fr (2 ^ (p + 1)) (2 ^ (p + 1)) (2 ^ p) (2 ^ p)
      { neg := false, m := exp2Floor fr j b.1 b.2 p 100, e := base - 100, sticky := true }

/-- The binary digits of log₂ y for 1 ≤ y < 2 kept as bounds `lo`, `hi` with `p` fraction bits: `n` digits by squaring;
`none` where the bounds disagree. -/
def log2Digits (p : Nat) : Nat → Nat → Nat → Nat → Option Nat
  | 0, _, _, acc => some acc
  | n + 1, lo, hi, acc =>
    let l2 := lo * lo / 2 ^ p
    let h2 := hi * hi / 2 ^ p + 1
    if 2 ^ (p + 1) ≤ l2 then log2Digits p n (l2 / 2) (h2 / 2 + 1) (2 * acc + 1)
    else if h2 < 2 ^ (p + 1) then log2Digits p n l2 h2 (2 * acc)
    else none

/-- ⌊log₂ (m / 2^l) × 2^n⌋ for 2^l < m < 2^(l + 1): the largest q with 2^(q + l × 2^n) ≤ m^(2^n). The digits of the bounds give it where they
decide, and spare the powers. -/
def log2Floor (m l n p : Nat) : Nat :=
  let y := m * 2 ^ p / 2 ^ l
  match log2Digits p n y y 0 with
  | some q => q
  | none => topFit (fun q => decide (2 ^ (q + l * 2 ^ n) ≤ m ^ 2 ^ n)) n 0

/-- log₂ (m × 2^e), m ≠ 0. The logarithm of what is no power of two is irrational. -/
def log2Exact (m : Nat) (e : Int) : Exact :=
  let l := Nat.log2 m
  let ip : Int := l + e
  if m = 2 ^ l then exactly (ip < 0) ip.natAbs 0
  else
    let n := 110
    let t : Int := ip * (2 ^ n : Nat) + log2Floor m l n 300
    if 0 ≤ t then { neg := false, m := t.toNat, e := -(n : Int), sticky := true }
    else { neg := true, m := (-t - 1).toNat, e := -(n : Int), sticky := true }

/-- The four special functions. -/
inductive Special where
  | recip | rsqrt | exp2 | log2
deriving DecidableEq, Repr

/-- A special function of a decoded value, with the special results of R88. -/
def specialV (op : Special) (x : FVal) : RV :=
  match op, x with
  | _, .nan s => .nan s
  | .recip, .inf n => .num (exactly n 0 0)
  | .recip, .fin n m e => if m = 0 then .inf n else .num (recipExact n m e)
  | .rsqrt, .inf n => if n then .nan true else .num (exactly false 0 0)
  | .rsqrt, .fin n m e => if m = 0 then .inf n else if n then .nan true else .num (rsqrtExact m e)
  | .exp2, .inf n => if n then .num (exactly false 0 0) else .inf false
  | .exp2, .fin n m e => if m = 0 then .num (exactly false 1 0) else .num (exp2Exact n m e)
  | .log2, .inf n => if n then .nan true else .inf false
  | .log2, .fin n m e => if m = 0 then .inf true else if n then .nan true else .num (log2Exact m e)

/-- A special function of a lane. -/
def fSpecial (op : Special) (f : Fmt) (subn : Bool) (a : Nat) : Nat × Flags :=
  let (a, fa) := flushIn f subn a
  let (v, fl) := finish f subn (specialV op (decodeF f a))
  (v, fl ||| fa)

/-! ### Conversion (R91, R208) -/

/-- Convert a value to `dst` (rounded once), with the block scale 2^(127 − scale) applied exactly; `r` is the draw. A
widening conversion keeps NaN payloads (R75); any other NaN becomes canonical. -/
def convert (src dst : Fmt) (mode : RMode) (r : Nat) (sat subn : Bool) (scale : Nat) (b : Nat) : Nat × Flags :=
  if scale = 0xFF then (dst.nanBits, 0)
  else
    let (b, fb) := flushIn src subn b
    match decodeF src b with
    | .nan sig =>
      if dst = .fp32 ∧ src ≠ .fp32 then (widen32 src b, fb) else (dst.nanBits, fb ||| if sig then fNV else 0)
    | .inf n =>
      let s := if n then dst.signBit else 0
      if dst = .e4m3 then (s + (if sat then 0x7E else 0x7F), fb ||| fNV) else (s + dst.infBits, fb)
    | .fin n m e =>
      let (v, fl) := roundTo dst mode r sat subn (exactly n m (e + 127 - scale))
      (v, fl ||| fb)

/-- ⌊log₂ |x|⌋ of a finite nonzero encoding. -/
def expOf (f : Fmt) (b : Nat) : Option Int :=
  match decodeF f b with
  | .fin _ m e => if m = 0 then none else some ((Nat.log2 m : Int) + e)
  | _ => none

/-- The suggested E8M0 scale of a value (R210): ⌊log₂ a⌋ − emax + 127 clamped to 0x00 … 0xFE; 0x7F for zero, infinity
and NaN. -/
def suggest (dst : Fmt) (a : Nat) : Nat :=
  match expOf .fp32 a with
  | none => 0x7F
  | some e => (min 254 (max 0 (e - dst.emax + 127))).toNat

/-- A quotient of integers rounded to FP32 under RNE (R127). -/
def ratio32 (subn : Bool) (a b : Nat) : Nat × Flags :=
  roundTo .fp32 .rne 0 false subn { neg := false, m := a * 2 ^ 96 / b, e := -96, sticky := a * 2 ^ 96 % b != 0 }

/-- A Welford state (n, mean, M2) (R127). -/
abbrev WState := Nat × Nat × Nat

/-- An FP32 operand that a MERGE returns: flushed, a NaN canonical, NV for a signalling one (R85, R88, R92). -/
def mergeIn (subn : Bool) (b : Nat) : Nat × Flags :=
  let (b, f) := flushIn .fp32 subn b
  let v := decodeF .fp32 b
  (if v.isNan then Fmt.fp32.nanBits else b, f ||| if v.isSig then fNV else 0)

/-- MERGE of R127 with the count saturating at 2^32 − 1 (R206). Only a is returned bit for bit, for nb = 0. -/
def wMerge (subn : Bool) (a b : WState) : WState × Flags :=
  let n := min (a.1 + b.1) 0xFFFFFFFF
  if a.1 = 0 ∧ b.1 = 0 then ((0, 0, 0), 0)
  else if b.1 = 0 then (a, 0)
  else if a.1 = 0 then
    let (mean, f1) := mergeIn subn b.2.1
    let (m2, f2) := mergeIn subn b.2.2
    ((b.1, mean, m2), f1 ||| f2)
  else
    let (d, f1) := fSub .fp32 subn b.2.1 a.2.1
    let (r, f2) := ratio32 subn b.1 n
    let (mean, f3) := fFma .fp32 subn d r a.2.1
    let (t, f4) := fMul .fp32 subn d d
    let (p, f5) := ratio32 subn (a.1 * b.1) n
    let (q, f6) := fAdd .fp32 subn a.2.2 b.2.2
    let (m2, f7) := fFma .fp32 subn t p q
    let fl := f1 ||| f2 ||| f3 ||| f4 ||| f5 ||| f6 ||| f7
    let nan := (decodeF .fp32 mean).isNan || (decodeF .fp32 m2).isNan
    ((n, mean, m2), if nan then fl &&& ~~~(fOF ||| fUF ||| fNX) else fl)

end Sys2Proof.Machine
end

