-- ==== Sys2Proof/Machine/Operands.lean ====
section
/-! DEFINITION. The fields of a 64-byte descriptor (Tables TIL-2, TIL-5 to TIL-15, ENG-2), the Cupola addresses they form and
the refusals that depend on the descriptor alone (Tables TIL-16, ENG-7, R117, R133, R144). -/

namespace Sys2Proof.Machine

/-- A descriptor: 64 bytes, byte 0 in bits [7:0]. -/
abbrev Desc := BitVec 512

/-- The number in `n` bytes from byte `i`. -/
def dBytes (d : Desc) (i n : Nat) : Nat := field d.toNat (8 * i) (8 * n)

/-- The number in `w` bits from bit `lo` of byte `i`. -/
def dBits (d : Desc) (i lo w : Nat) : Nat := field d.toNat (8 * i + lo) w

/-! ### The header (Table TIL-2) -/

/-- TYPE. -/
def dType (d : Desc) : Nat := dBytes d 0 1
/-- SIG_EN. -/
def dSigEn (d : Desc) : Bool := bitOf d.toNat 8
/-- PINV. -/
def dPinv (d : Desc) : Bool := bitOf d.toNat 9
/-- MSK_C. -/
def dMskC (d : Desc) : Bool := bitOf d.toNat 10
/-- MSK_P. -/
def dMskP (d : Desc) : Bool := bitOf d.toNat 11
/-- PREFETCH. -/
def dPrefetch (d : Desc) : Bool := bitOf d.toNat 12
/-- PRED. -/
def dPred (d : Desc) : Nat := field d.toNat 16 8
/-- WAIT_CNT. -/
def dWaitCnt (d : Desc) : Nat := field d.toNat 24 6
/-- UNIT. -/
def dUnit (d : Desc) : EngId := Fin.ofNat 4 (field d.toNat 32 2)
/-- SIG_CNT. -/
def dSigCnt (d : Desc) : Nat := field d.toNat 34 6
/-- PHASE. -/
def dPhase (d : Desc) : Nat := field d.toNat 40 6
/-- WAIT_THRESH. -/
def dWaitThresh (d : Desc) : Nat := field d.toNat 48 16

/-- The kinds of Table TIL-3. -/
inductive DKind where
  | loadb | stream | acc | vec | move | gather | scatter | remoteWrite | remoteRead | mcast | compress
  | wait | signal | jump | repeatDesc | phase | fence | halt
deriving DecidableEq, Repr

/-- The kind a type code names (Table TIL-3). -/
def kindOf (code : Nat) : Option DKind :=
  match code with
  | 0x01 => some .loadb
  | 0x02 => some .stream
  | 0x03 => some .acc
  | 0x10 => some .vec
  | 0x20 => some .move
  | 0x21 => some .gather
  | 0x22 => some .scatter
  | 0x23 => some .remoteWrite
  | 0x24 => some .remoteRead
  | 0x25 => some .mcast
  | 0x26 => some .compress
  | 0x30 => some .wait
  | 0x31 => some .signal
  | 0x40 => some .jump
  | 0x41 => some .repeatDesc
  | 0x42 => some .phase
  | 0x43 => some .fence
  | 0x44 => some .halt
  | _ => none

/-- The kind of a descriptor; none for a reserved type. -/
def dKind (d : Desc) : Option DKind := kindOf (dType d)

/-- The performer of a descriptor (R165): none when the sequencer performs it. -/
def dPerformer (d : Desc) : Option UnitId :=
  match dKind d with
  | some .loadb | some .stream | some .acc => some (.eng (dUnit d))
  | some .vec => some .vec
  | some .signal => if dBits d 9 0 1 = 1 then some .mover else none
  | some .move | some .gather | some .scatter | some .remoteWrite | some .remoteRead | some .mcast | some .compress => some .mover
  | _ => none

/-- A predicate code of Table SPA-4 that is not reserved. -/
def predOk (p : Nat) : Bool := p == 0 || (0x40 ≤ p && p ≤ 0x8F)

/-- Whether a predicate lets the descriptor run (R144). -/
def Core.predRuns (k : Core) (d : Desc) : Bool :=
  let p := dPred d
  let v := if p = 0 then true
    else if p < 0x80 then (k.cnt[Fin.ofNat 64 (p - 0x40)]) != 0
    else (k.countReg[Fin.ofNat 16 (p - 0x80)]) != 0
  v != dPinv d

/-! ### Cupola -/

/-- The size of Cupola: offsets at or above it are reserved (R446). -/
def cupolaEnd : Nat := 0x600000

/-- The 64 bytes at a Cupola offset as a descriptor; outside Cupola zeros (R22). -/
def State.fetchDesc (s : State) (c : CoreId) (off : Nat) : Desc :=
  if off + 64 ≤ cupolaEnd then BitVec.ofNat 512 (leNat (s.mem.load (coreBase c + off) 64)) else 0

/-! ### LOADB (Table TIL-5) and STREAM (Table TIL-6) -/

/-- GEOM of a LOADB. -/
def lGeom (d : Desc) : Nat := dBits d 8 0 2
/-- FMT of a LOADB. -/
def lFmt (d : Desc) : Nat := dBits d 9 0 4
/-- SCALE_MODE of a LOADB. -/
def lMode (d : Desc) : Nat := dBits d 10 0 2
/-- K of a LOADB. -/
def lK (d : Desc) : Nat := dBytes d 12 2
/-- N of a LOADB. -/
def lN (d : Desc) : Nat := dBytes d 14 2
/-- VAL_ADDR of a LOADB. -/
def lVal (d : Desc) : Nat := dBytes d 16 4
/-- ROW_PITCH of a LOADB. -/
def lPitch (d : Desc) : Nat := dBytes d 20 4
/-- IDX_ADDR of a LOADB. -/
def lIdx (d : Desc) : Nat := dBytes d 24 4
/-- SCALE_ADDR of a LOADB. -/
def lScale (d : Desc) : Nat := dBytes d 28 4

/-- K positions under one block scale: 16 or 32 (Table TIL-5). -/
def blockLen (mode : Nat) : Nat := if mode = 1 then 16 else 32

/-- K positions of a geometry (Table ENG-1). -/
def geomK (g : Nat) : Nat := if g = 1 then 64 else 32
/-- N positions of a geometry. -/
def geomN (g : Nat) : Nat := if g = 2 then 16 else 32
/-- Rows of a step. -/
def geomRows (g : Nat) : Nat := if g = 2 then 2 else 4

/-- FMT allowed for GEOM (Table TIL-5). -/
def fmtFits (g f : Nat) : Bool := if g = 2 then f == 0 else f == 1 || f == 2 || f == 3

/-- A LOADB is refused (Tables ENG-7, TIL-16, R133). -/
def loadbBad (d : Desc) : Bool :=
  lGeom d == 3 || !fmtFits (lGeom d) (lFmt d) || lMode d == 3
    || lK d == 0 || geomK (lGeom d) < lK d || lN d == 0 || geomN (lGeom d) < lN d
    || (lGeom d != 1 && lPitch d % 16 != 0)
    || cupolaEnd ≤ lVal d || (lGeom d == 1 && cupolaEnd ≤ lIdx d) || (lMode d != 0 && cupolaEnd ≤ lScale d)
    || (lGeom d == 1 && (lVal d % 64 != 0 || lIdx d % 64 != 0 || (lMode d != 0 && lScale d % 64 != 0)))

/-- GROUP of a STREAM. -/
def sGroup (d : Desc) : GroupId := Fin.ofNat 8 (dBits d 8 0 3)
/-- ORIENT. -/
def sOrient (d : Desc) : Bool := dBits d 8 3 1 == 1
/-- GEOM of a STREAM. -/
def sGeom (d : Desc) : Nat := dBits d 8 4 2
/-- CONV. -/
def sConv (d : Desc) : Bool := dBits d 8 6 1 == 1
/-- HR. -/
def sHr (d : Desc) : Nat := dBits d 9 0 3
/-- FMT_A. -/
def sFmt (d : Desc) : Nat := dBits d 10 0 4
/-- SCALE_MODE_A. -/
def sMode (d : Desc) : Nat := dBits d 10 4 2
/-- M. -/
def sM (d : Desc) : Nat := dBytes d 12 2
/-- K of a STREAM. -/
def sK (d : Desc) : Nat := dBytes d 14 2
/-- ROW0. -/
def sRow0 (d : Desc) : Nat := dBytes d 16 1
/-- A_ADDR. -/
def sAddr (d : Desc) : Nat := dBytes d 20 4
/-- A_PITCH. -/
def sPitch (d : Desc) : Nat := dBytes d 24 4
/-- A_SCALE_ADDR. -/
def sScale (d : Desc) : Nat := dBytes d 28 4
/-- A_SCALE_PITCH. -/
def sScalePitch (d : Desc) : Nat := dBytes d 32 4
/-- M0. -/
def sM0 (d : Desc) : Nat := dBytes d 36 4
/-- K0. -/
def sK0 (d : Desc) : Nat := dBytes d 40 4
/-- IN_H. -/
def sInH (d : Desc) : Nat := dBytes d 44 2
/-- IN_W. -/
def sInW (d : Desc) : Nat := dBytes d 46 2
/-- C. -/
def sC (d : Desc) : Nat := dBytes d 48 2
/-- OUT_W. -/
def sOutW (d : Desc) : Nat := dBytes d 50 2
/-- FH. -/
def sFh (d : Desc) : Nat := dBits d 52 0 3
/-- FW. -/
def sFw (d : Desc) : Nat := dBits d 52 4 3
/-- SY. -/
def sSy (d : Desc) : Nat := dBits d 53 0 4
/-- SX. -/
def sSx (d : Desc) : Nat := dBits d 53 4 4
/-- DY. -/
def sDy (d : Desc) : Nat := dBits d 54 0 4
/-- DX. -/
def sDx (d : Desc) : Nat := dBits d 54 4 4
/-- PY. -/
def sPy (d : Desc) : Nat := dBits d 55 0 4
/-- PX. -/
def sPx (d : Desc) : Nat := dBits d 55 4 4

/-- The steps of a STREAM: ⌈M ÷ rows⌉ (R60). -/
def sSteps (d : Desc) : Nat := (sM d + geomRows (sGeom d) - 1) / geomRows (sGeom d)

/-- The contraction extent a STREAM may name (Table TIL-6). -/
def sMaxK (d : Desc) : Nat := if sGeom d = 2 ∧ sOrient d then 16 else geomK (sGeom d)

/-- `lo` ≤ v ≤ `hi`. -/
def within (lo v hi : Nat) : Bool := decide (lo ≤ v ∧ v ≤ hi)

/-- A sliding-window parameter outside Table ENG-2, or BASE misaligned. -/
def convBad (d : Desc) : Bool :=
  sInH d == 0 || sInW d == 0 || sC d == 0 || sOutW d == 0 || !within 1 (sFh d) 7 || !within 1 (sFw d) 7
    || !within 1 (sSy d) 8 || !within 1 (sSx d) 8 || !within 1 (sDy d) 8 || !within 1 (sDx d) 8
    || 6 < sPy d || 6 < sPx d || sAddr d % 64 != 0

/-- A STREAM is refused for its own fields (Tables ENG-7, TIL-16, R174). -/
def streamBad (d : Desc) : Bool :=
  sGeom d == 3 || !fmtFits (sGeom d) (sFmt d) || sMode d == 3 || 6 < sHr d
    || !within 1 (sM d) 64 || !within 1 (sK d) (sMaxK d)
    || 64 < sRow0 d + sM d || sRow0 d % geomRows (sGeom d) != 0
    || (sConv d && (sOrient d || convBad d || (sMode d != 0 && sC d % blockLen (sMode d) != 0)))
    || (!sConv d && sPitch d % 16 != 0)
    || cupolaEnd ≤ sAddr d || (sMode d != 0 && cupolaEnd ≤ sScale d)

/-! ### ACC (Table TIL-7) -/

/-- The operation code. -/
def aOp (d : Desc) : Nat := dBits d 8 0 4
/-- GROUP of an ACC. -/
def aGroup (d : Desc) : GroupId := Fin.ofNat 8 (dBits d 8 4 3)
/-- FMT of an ACC. -/
def aFmt (d : Desc) : Nat := dBits d 9 0 4
/-- RM. -/
def aRm (d : Desc) : Nat := dBits d 9 4 4
/-- SAT. -/
def aSat (d : Desc) : Bool := dBits d 10 0 1 == 1
/-- AMAX. -/
def aAmax (d : Desc) : Bool := dBits d 10 1 1 == 1
/-- SCALE_SRC. -/
def aScaleSrc (d : Desc) : Nat := dBits d 10 2 2
/-- BIAS. -/
def aBias (d : Desc) : Bool := dBits d 10 4 1 == 1
/-- LOCAL chain successor. -/
def aLocal (d : Desc) : Bool := dBits d 10 5 1 == 1
/-- SRC_ENG. -/
def aSrcEng (d : Desc) : EngId := Fin.ofNat 4 (dBits d 11 0 2)
/-- SRC_GRP. -/
def aSrcGrp (d : Desc) : GroupId := Fin.ofNat 8 (dBits d 11 2 3)
/-- ROWS. -/
def aRows (d : Desc) : Nat := dBytes d 12 2
/-- COLS. -/
def aCols (d : Desc) : Nat := dBytes d 14 2
/-- ADDR. -/
def aAddr (d : Desc) : Nat := dBytes d 16 4
/-- PITCH. -/
def aPitch (d : Desc) : Nat := dBytes d 20 4
/-- SCALE: a scalar's bits or the vector's address. -/
def aScale (d : Desc) : Nat := dBytes d 24 4
/-- BIAS_ADDR. -/
def aBiasAddr (d : Desc) : Nat := dBytes d 28 4
/-- AMAX_ADDR. -/
def aAmaxAddr (d : Desc) : Nat := dBytes d 32 4
/-- DEST of a CLOSE_CHAIN. -/
def aDest (d : Desc) : Nat := dBytes d 36 2
/-- WINDOW of a CLOSE_CHAIN. -/
def aWindow (d : Desc) : Nat := dBytes d 38 1
/-- DEST_ENG. -/
def aDestEng (d : Desc) : EngId := Fin.ofNat 4 (dBits d 39 0 2)
/-- DEST_GRP. -/
def aDestGrp (d : Desc) : GroupId := Fin.ofNat 8 (dBits d 39 2 3)
/-- OFFSET of a CLOSE_CHAIN. -/
def aOffset (d : Desc) : Nat := dBytes d 40 4

/-- An ACC is refused for its own fields (R117, R116, Table TIL-16); the state of its group is tested when it starts. -/
def accBad (d : Desc) (e : EngId) : Bool :=
  match aOp d with
  | 1 => 3 < aFmt d || cupolaEnd ≤ aAddr d
  | 2 => aSrcEng d == e && aSrcGrp d == aGroup d
  | 4 => 3 < aFmt d || 3 < aRm d || aScaleSrc d == 3 || !within 1 (aRows d) 64 || !within 1 (aCols d) 32
      || cupolaEnd ≤ aAddr d || (aScaleSrc d == 2 && cupolaEnd ≤ aScale d) || (aBias d && cupolaEnd ≤ aBiasAddr d)
      || (aAmax d && cupolaEnd ≤ aAmaxAddr d)
  | 6 | 7 => cupolaEnd ≤ aAddr d
  | 0 | 3 | 5 => false
  | _ => true

/-! ### VEC (Table TIL-8) -/

/-- PROG_ADDR. -/
def vProg (d : Desc) : Nat := dBytes d 8 4
/-- PRELOAD. -/
def vPreload (d : Desc) : Nat := dBits d 12 0 10
/-- Word `n` of ARGS. -/
def vArg (d : Desc) (n : Nat) : Word := BitVec.ofNat 32 (dBytes d (16 + 4 * n) 4)

/-- A VEC is refused (Table TIL-16). -/
def vecBad (d : Desc) : Bool := vProg d % 8 != 0 || cupolaEnd ≤ vProg d

/-! ### Mover types (Tables TIL-9 to TIL-12) -/

/-- MODE of a MOVE. -/
def mMode (d : Desc) : Nat := dBytes d 8 1
/-- SRC. -/
def mSrc (d : Desc) : Nat := dBytes d 16 5
/-- DST. -/
def mDst (d : Desc) : Nat := dBytes d 24 5
/-- ROW_BYTES of a MOVE. -/
def mRowBytes (d : Desc) : Nat := dBytes d 32 4
/-- ROWS of a MOVE. -/
def mRows (d : Desc) : Nat := dBytes d 36 4
/-- SRC_PITCH. -/
def mSrcPitch (d : Desc) : Nat := dBytes d 40 4
/-- DST_PITCH. -/
def mDstPitch (d : Desc) : Nat := dBytes d 44 4
/-- PATTERN. -/
def mPattern (d : Desc) : Nat := dBytes d 48 4

/-- A MOVE is refused (Table TIL-16). -/
def moveBad (d : Desc) : Bool := 1 < mMode d || mRowBytes d == 0 || mRows d == 0 || (mMode d == 1 && mRowBytes d % 4 != 0)

/-- T. -/
def gT (d : Desc) : Nat := dBytes d 8 2
/-- K of a SCATTER or GATHER. -/
def gK (d : Desc) : Nat := dBytes d 10 1
/-- E_COUNT. -/
def gE (d : Desc) : Nat := dBytes d 12 2
/-- COUNT_REG. -/
def gCountReg (d : Desc) : Nat := dBytes d 14 1
/-- INDEX_ADDR. -/
def gIndex (d : Desc) : Nat := dBytes d 16 4
/-- TABLE_ADDR. -/
def gTable (d : Desc) : Nat := dBytes d 20 4
/-- ROW_BYTES of a SCATTER or GATHER. -/
def gRowBytes (d : Desc) : Nat := dBytes d 24 4
/-- ROW_ADDR. -/
def gRowAddr (d : Desc) : Nat := dBytes d 28 4
/-- ROW_PITCH of a SCATTER or GATHER. -/
def gRowPitch (d : Desc) : Nat := dBytes d 32 4
/-- DROP_ADDR. -/
def gDrop (d : Desc) : Nat := dBytes d 36 4
/-- SLOT_ADDR. -/
def gSlot (d : Desc) : Nat := dBytes d 40 4
/-- RECORD_ADDR. -/
def gRecord (d : Desc) : Nat := dBytes d 44 4

/-- A SCATTER (`sc`) or GATHER is refused (Table TIL-16). -/
def routeBad (sc : Bool) (d : Desc) : Bool :=
  gT d == 0 || !within 1 (gK d) 8 || !within 1 (gE d) 256
    || !(gCountReg d == 0 || within 0x80 (gCountReg d) 0x8F)
    || gIndex d % 4 != 0 || gTable d % 16 != 0 || gRowBytes d % 16 != 0 || !within 16 (gRowBytes d) 65536
    || cupolaEnd ≤ gIndex d || cupolaEnd ≤ gTable d || cupolaEnd ≤ gRowAddr d || cupolaEnd ≤ gSlot d
    || (sc && (cupolaEnd ≤ gDrop d || cupolaEnd ≤ gRecord d))

/-- RSIG. -/
def rSig (d : Desc) : Bool := dBits d 8 0 1 == 1
/-- RSIG_CNT. -/
def rSigCnt (d : Desc) : Nat := dBits d 9 0 6
/-- RSIG_INC. -/
def rSigInc (d : Desc) : Nat := dBytes d 10 2
/-- DEST of a remote operation. -/
def rDest (d : Desc) : Nat := dBytes d 12 2
/-- WINDOW of a remote operation. -/
def rWindow (d : Desc) : Nat := dBytes d 14 1
/-- OFFSET of a remote operation. -/
def rOffset (d : Desc) : Nat := dBytes d 16 4
/-- LOCAL. -/
def rLocal (d : Desc) : Nat := dBytes d 20 5
/-- ROW_BYTES of a remote operation. -/
def rRowBytes (d : Desc) : Nat := dBytes d 28 4
/-- ROWS of a remote operation. -/
def rRows (d : Desc) : Nat := dBytes d 32 4
/-- LOCAL_PITCH. -/
def rLocalPitch (d : Desc) : Nat := dBytes d 36 4
/-- REMOTE_PITCH. -/
def rRemotePitch (d : Desc) : Nat := dBytes d 40 4

/-- A REMOTE_WRITE, REMOTE_READ or MCAST is refused (Table TIL-16). -/
def remoteBad (rd : Bool) (d : Desc) : Bool :=
  rRowBytes d % 16 != 0 || rRowBytes d == 0 || rRows d == 0 || (!rd && rSig d && rSigInc d == 0)

/-- DIR of a COMPRESS. -/
def kDir (d : Desc) : Bool := dBits d 8 0 1 == 1
/-- FMT of a COMPRESS. -/
def kFmt (d : Desc) : Nat := dBits d 9 0 4
/-- SCALE_MODE of a COMPRESS. -/
def kMode (d : Desc) : Nat := dBits d 10 0 2
/-- K of a COMPRESS. -/
def kK (d : Desc) : Nat := dBytes d 12 2
/-- N of a COMPRESS. -/
def kN (d : Desc) : Nat := dBytes d 14 2
/-- DENSE_ADDR. -/
def kDense (d : Desc) : Nat := dBytes d 16 4
/-- DENSE_PITCH. -/
def kPitch (d : Desc) : Nat := dBytes d 20 4
/-- VAL_ADDR of a COMPRESS. -/
def kVal (d : Desc) : Nat := dBytes d 24 4
/-- IDX_ADDR of a COMPRESS. -/
def kIdx (d : Desc) : Nat := dBytes d 28 4
/-- SCALE_SRC of a COMPRESS. -/
def kScaleSrc (d : Desc) : Nat := dBytes d 32 4
/-- SCALE_DST. -/
def kScaleDst (d : Desc) : Nat := dBytes d 36 4
/-- RESULT_ADDR. -/
def kResult (d : Desc) : Nat := dBytes d 40 4
/-- RESULT_EN. -/
def kResultEn (d : Desc) : Bool := dBits d 44 0 1 == 1

/-- A COMPRESS is refused (Table TIL-16). -/
def compressBad (d : Desc) : Bool :=
  !within 1 (kK d) 64 || !within 1 (kN d) 32 || !within 1 (kFmt d) 3 || kMode d == 3
    || kVal d % 64 != 0 || kIdx d % 64 != 0
    || cupolaEnd ≤ kDense d || cupolaEnd ≤ kVal d || cupolaEnd ≤ kIdx d
    || (kMode d != 0 && (cupolaEnd ≤ kScaleSrc d || cupolaEnd ≤ kScaleDst d)) || (kResultEn d && cupolaEnd ≤ kResult d)

/-! ### Sequencer types (Tables TIL-13, TIL-14) -/

/-- DEC of a WAIT. -/
def wDec (d : Desc) : Nat := dBytes d 8 2
/-- TIMEOUT of a WAIT. -/
def wTimeout (d : Desc) : Nat := dBytes d 12 4
/-- OP of a SIGNAL. -/
def gnOp (d : Desc) : Nat := dBytes d 8 1
/-- COUNTER of a SIGNAL. -/
def gnCounter (d : Desc) : Nat := dBits d 10 0 6
/-- VALUE of a SIGNAL. -/
def gnValue (d : Desc) : Nat := dBytes d 12 2
/-- DEST of a remote SIGNAL. -/
def gnDest (d : Desc) : Nat := dBytes d 16 2
/-- WINDOW of a remote SIGNAL. -/
def gnWindow (d : Desc) : Nat := dBytes d 18 1
/-- MODE of a JUMP. -/
def jMode (d : Desc) : Nat := dBytes d 8 1
/-- TARGET or COUNT of a JUMP. -/
def jTarget (d : Desc) : Nat := dBytes d 12 4
/-- UNITS of a FENCE. -/
def fUnits (d : Desc) : Nat := dBits d 8 0 7
/-- Loop count `l` of a REPEAT. -/
def pCount (d : Desc) (l : Nat) : Nat := dBytes d (8 + 2 * l) 2
/-- BODY. -/
def pBody (d : Desc) : Nat := dBytes d 14 1
/-- MASK_EN. -/
def pMaskEn (d : Desc) : Bool := dBits d 15 0 1 == 1
/-- ROW_LOOP. -/
def pRowLoop (d : Desc) : Nat := dBits d 15 1 2
/-- COL_LOOP. -/
def pColLoop (d : Desc) : Nat := dBits d 15 3 2
/-- ROW_OFF. -/
def pRowOff (d : Desc) : Nat := dBytes d 16 2
/-- COL_OFF. -/
def pColOff (d : Desc) : Nat := dBytes d 18 2
/-- MASK_ADDR. -/
def pMask (d : Desc) : Nat := dBytes d 20 4
/-- Stride slot `n` (Table TIL-15). -/
def pSlot (d : Desc) (n : Nat) : Nat := dBytes d (24 + 5 * n) 5

/-- A REPEAT is refused for its own fields (Table TIL-16, R185, R139). -/
def repeatBad (d : Desc) : Bool :=
  pCount d 0 == 0 || pCount d 1 == 0 || pCount d 2 == 0 || !within 1 (pBody d) 64
    || (pMaskEn d && (pRowLoop d == pColLoop d || pRowLoop d == 3 || pColLoop d == 3 || cupolaEnd ≤ pMask d))
    || (List.range 8).any fun n => field (pSlot d n) 10 2 != 3 && pBody d ≤ field (pSlot d n) 0 6

/-- A JUMP is refused; `seg` says it lies in a segment (Table TIL-16). -/
def jumpBad (seg : Bool) (d : Desc) : Bool :=
  3 < jMode d || ((jMode d == 2 || jMode d == 3) && !seg) || (jMode d == 1 && (jTarget d % 64 != 0 || cupolaEnd ≤ jTarget d))

/-- A SIGNAL is refused (Table TIL-16). -/
def signalBad (d : Desc) : Bool := 2 < gnOp d || (dBits d 9 0 1 == 1 && gnOp d != 0)

/-- A descriptor is refused for its own fields. `seg` says it lies in a segment. -/
def descBad (seg : Bool) (d : Desc) : Bool :=
  match dKind d with
  | none => true
  | some k => !predOk (dPred d) || (match k with
    | .loadb => loadbBad d
    | .stream => streamBad d
    | .acc => accBad d (dUnit d)
    | .vec => vecBad d
    | .move => moveBad d
    | .gather => routeBad false d
    | .scatter => routeBad true d
    | .remoteWrite | .mcast => remoteBad false d
    | .remoteRead => remoteBad true d
    | .compress => compressBad d
    | .signal => signalBad d
    | .jump => jumpBad seg d
    | .repeatDesc => repeatBad d
    | .wait | .phase | .fence | .halt => false)

end Sys2Proof.Machine
end

