-- ==== Sys2Proof/Machine/Cupola.lean ====
section
/-! DEFINITION. Reads and writes of SRAM that carry poison marks with their data (R236, R396), a unit's accesses to its own
Cupola with the treatment of offsets past its end (R446), and the record of consumed poison (R397). -/

namespace Sys2Proof.Machine

/-- Data with the mark of the word each byte came from. -/
abbrev Marked := List (Byte × Bool)

/-- The `n` bytes from `a` with the marks of their words. -/
def Memory.loadP (m : Memory) (a n : Nat) : Marked :=
  (m.load a n).zipIdx.map fun x => (x.1, m.marked ((a + x.2) / 8))

/-- A word `w` written from marked bytes that begin at `a` takes a mark when one of its bytes carries one. -/
def markOf (a : Nat) (bs : Marked) (w : Nat) : Bool :=
  ((bs.drop (8 * w - a)).take (8 * w + 8 - max a (8 * w))).any (·.2)

/-- A write that covers only part of a 64-bit word reads the word first, which checks it (R219, R235, R236). -/
def State.rmw (s : State) (a n : Nat) : State :=
  if n = 0 then s
  else
    let s := if a % 8 ≠ 0 ∨ n < 8 then s.demand a 1 else s
    if (a + n) % 8 ≠ 0 then s.demand (a + n - 1) 1 else s

/-- Store marked bytes at a die-local address. -/
def State.storeP (s : State) (a : Nat) (bs : Marked) : State :=
  let s := s.rmw a bs.length
  if bs.any (·.2) then s.store a (bs.map (·.1)) (markOf a bs) else s.store a (bs.map (·.1)) fun _ => false

/-- Read `n` bytes at a die-local address, checking damaged words. -/
def State.readP (s : State) (a n : Nat) : State × Marked :=
  let s := s.demand a n
  (s, s.mem.loadP a n)

/-- The `n` bytes from `a` as a read would give them, without reading them: an uncorrectable word is marked. -/
def Memory.peekP (m : Memory) (a n : Nat) : Marked :=
  (m.load a n).zipIdx.map fun x => let w := (a + x.2) / 8; (x.1, m.marked w || m.upsets.contains (w, true))

/-- Store marked bytes of a group, whose words keep the marks they have (R111). -/
def State.storeKeep (s : State) (a : Nat) (bs : Marked) : State :=
  let s := s.rmw a bs.length
  s.store a (bs.map (·.1)) fun w => markOf a bs w || s.mem.marked w

/-- Data without its marks. -/
def bytesOf (bs : Marked) : List Byte := bs.map (·.1)

/-- A unit reads `n` bytes of its Cupola; bytes past its end read zero and poisoned (R446, R22). -/
def State.cupRead (s : State) (c : CoreId) (off n : Nat) : State × Marked :=
  let k := min n (cupolaEnd - off)
  let r := s.readP (coreBase c + off) k
  (r.1, r.2 ++ List.replicate (n - k) (0, true))

/-- A unit writes its Cupola; bytes past its end are discarded. -/
def State.cupWrite (s : State) (c : CoreId) (off : Nat) (bs : Marked) : State :=
  if off < cupolaEnd then s.storeP (coreBase c + off) (bs.take (cupolaEnd - off)) else s

/-- The first offset of an access that lies past Cupola's end. -/
def pastEnd (off n : Nat) : Option Nat := if off + n ≤ cupolaEnd then none else some (max off cupolaEnd)

/-- Log a descriptor's accesses past Cupola's end: the first in a record of 0x202, the others counted (R446, R394). -/
def State.logBounds (s : State) (c : CoreId) (u : UnitId) (logged : Bool) (outs : List Nat) : State :=
  let info := fun a : Nat => ({ cls := .deferred, code := 0x202, block := (unitSource c u).1, inst := (unitSource c u).2
                                pkey := none, detail := 0, address := a } : FaultInfo)
  match outs with
  | [] => s
  | a :: r =>
    let s := if logged then s.countOnly (info a) else s.log (info a)
    r.foldl (fun s a => s.countOnly (info a)) s

/-- Log a started descriptor's accesses past Cupola's end, at most one record per descriptor (R446). -/
def State.noteBounds (s : State) (c : CoreId) (u : UnitId) (desc : Nat) (outs : List Nat) : State :=
  let logged := ((s.core c).unitQ u).active.any fun a => a.entry.id == desc && a.boundsLogged
  (s.logBounds c u logged outs).modQ c u fun q =>
    { q with active := q.active.map fun a => if a.entry.id = desc then { a with boundsLogged := a.boundsLogged || !outs.isEmpty } else a }

/-- Log 0x103 for a descriptor that has consumed its first poisoned word (R397). -/
def State.logPoison (s : State) (c : CoreId) (u : UnitId) (desc : Nat) (addr : Nat) : State :=
  s.log { cls := .deferred, code := 0x103, block := (unitSource c u).1, inst := (unitSource c u).2, pkey := none
          detail := desc, address := addr }

/-- The address of the first marked byte of data read at `a`. -/
def firstMark (a : Nat) (bs : Marked) : Option Nat :=
  (bs.findIdx? (·.2)).map fun i => (a + i) / 8 * 8

/-- Cut a list into pieces of `n`. -/
def chunksOf {α : Type} (n : Nat) : Nat → List α → List (List α)
  | 0, _ => []
  | k + 1, l => l.take n :: chunksOf n k (l.drop n)

/-- The elements of `size` bytes each in marked data: the number and whether a byte is marked. -/
def elements (size count : Nat) (bs : Marked) : List (Nat × Bool) :=
  (chunksOf size count bs).map fun x => (leNat (x.map (·.1)), x.any (·.2))

/-- Elements back to marked bytes. -/
def spell (size : Nat) (xs : List (Nat × Bool)) : Marked :=
  xs.flatMap fun x => (leBytes x.1 size).map fun b => (b, x.2)

end Sys2Proof.Machine
end

