-- ==== Sys2Proof/Machine/Phases.lean ====
section
/-! DEFINITION. Phase entry: the end of the visit before it, the average Bronze learns, and the preset of the core's issue
budget (R186, R342, R343). -/

namespace Sys2Proof.Machine

/-- The next free value's number, taken. -/
def State.takeFree (s : State) : State := { s with free := s.free + 1 }

/-- `a / b` with the rounding left open. -/
def openDiv (key : Nat) (a b : Int) : Int := if a % b ≠ 0 ∧ Config.roundsUp key then a / b + 1 else a / b

/-- The entry after a visit of mean power `p` (R342). -/
def PhaseEntry.learn (e : PhaseEntry) (key : Nat) (p : BitVec 16) : PhaseEntry :=
  if e.locked then e
  else if e.visits = 0 then { e with avg := p, visits := 1 }
  else { e with
    avg := BitVec.ofInt 16 ((e.avg.toNat : Int) + openDiv key ((p.toNat : Int) - e.avg.toNat) 8)
    visits := if e.visits = 0xFFFF then 0xFFFF else e.visits + 1 }

/-- A fixed state of rank 1 holds every core at k = 1 (Table PWR-5). -/
def State.rankOne (s : State) : Bool := s.bronze.alertHold || s.bronze.thermtrip || s.fatal

/-- The lowest ceiling on power of ranks 2 to 4, in 1/16 W: the 1 ms limit, the effective cap, and P(i − 1) + RAMP (R340, Table PWR-5). -/
def Bronze.ceiling (b : Bronze) : Nat := min (16 * Config.limit1ms) (min (16 * b.effective.toNat) (b.p1ms.toNat + 16 * b.rampNow.toNat))

/-- The VDD_ENG current allowed over an interval, mA (Table PWR-4). -/
def currentLimit : Nat := 300000

/-- Thermal throttling holds core `c`: its own sensors or those of Dome and Spire (R346). -/
def State.heatHolds (s : State) (c : CoreId) : Bool := bitOf s.bronze.hot.toNat c.val || bitOf s.bronze.hot.toNat 16

/-- The die fits every ceiling with one core of phase average `avg` at level `k` and the rest of the die as predicted (R343): that core draws
(k / 16) × avg, and its current at the present voltage. -/
def State.presetFits (s : State) (avg k : Nat) : Bool :=
  let mv := s.bronze.vddMv
  decide (16 * Config.restPower s.free + k * avg ≤ 16 * s.bronze.ceiling
    ∧ 256 * mv * Config.restCurrent s.free + 1000000 * (k * avg) ≤ 256 * mv * currentLimit)

/-- The preset of core `c` for phase `ph` (R343): the largest level that fits every ceiling, 1 where none does; an entry without visits keeps the
present level, rank 1 holds k = 1, and while the core throttles for heat its level does not rise (R340). -/
def State.presetFor (s : State) (c : CoreId) (ph : BitVec 6) : State :=
  let e := s.bronze.phases[Fin.ofNat 64 ph.toNat]
  if s.rankOne then s.modCore c fun k => { k with k := 1 }
  else if e.visits = 0 then s
  else
    let best := (((List.range 15).map (16 - ·)).find? (s.presetFits e.avg.toNat)).getD 1
    (s.modCore c fun k => { k with k := BitVec.ofNat 5 (if s.heatHolds c then min best k.k.toNat else best) }).takeFree

/-- Core `c` dispatches a descriptor of phase `ph`: at a change of phase the visit that ends is learned when it lasted at least
10 µs, and the new phase presets k (R342, R343). -/
def State.enterPhase (s : State) (c : CoreId) (ph : BitVec 6) (noLearn : Bool) : State :=
  let k := s.core c
  if k.seq.phase = ph then s
  else
    let old := Fin.ofNat 64 k.seq.phase.toNat
    let s := if k.visitStart + 1000 ≤ s.now ∧ k.visitNoLearn = false
      then (s.modBrz fun b => { b with phases := upd b.phases old fun e => e.learn s.free (Config.visitPower s.free) }).takeFree
      else s
    let s := s.presetFor c ph
    (s.modCore c fun k => { k with visitStart := s.now, visitNoLearn := noLearn }).modSeq c fun q => { q with phase := ph }

end Sys2Proof.Machine
end

