-- ==== Sys2Proof/Machine/Sequencer.lean ====
section
/-! DEFINITION. The sequencer (06): where the next descriptor comes from, its dispatch into a queue or its performance by the
sequencer, the REPEAT loop with its mask table, and the ends of FENCE and HALT. -/

namespace Sys2Proof.Machine

/-- The next descriptor: its bits after striding, its offset, and whether it comes from a segment. -/
structure NextDesc where
  d : Desc
  off : Nat
  seg : Bool
deriving DecidableEq, Repr

/-- Slots handed over and not yet released. -/
def Sequencer.held (q : Sequencer) : Nat := (q.tail.toNat + q.size - q.head.toNat) % q.size

/-- Release `n` ring slots (R159). -/
def Sequencer.release (q : Sequencer) (n : Nat) : Sequencer :=
  { q with head := BitVec.ofNat 16 ((q.head.toNat + n) % q.size) }

/-- Skip `n` more ring slots, releasing those handed over now and keeping count of the rest (R183). -/
def Sequencer.skip (q : Sequencer) (n : Nat) : Sequencer :=
  let m := min (q.loopSkip + n) q.held
  { q.release m with loopSkip := q.loopSkip + n - m }

/-- Add to 32-bit word `w` of a descriptor, modulo 2^32. -/
def addWord (d : Desc) (w : Nat) (v : Int) : Desc :=
  let old := field d.toNat (32 * w) 32
  BitVec.ofNat 512 (d.toNat - old * 2 ^ (32 * w) + ((old + v) % 4294967296).toNat * 2 ^ (32 * w))

/-- Loop counter of a level. -/
def Loop.count (l : Loop) (level : Nat) : Nat := if level = 0 then l.i0 else if level = 1 then l.i1 else l.i2

/-- The copy of the current body descriptor with every stride slot that names it applied (R184). -/
def Loop.current (l : Loop) : Desc × Nat :=
  let b := (l.body[l.b]?).getD (0, 0)
  ((List.range 8).foldl (fun d n =>
      let sl := pSlot l.desc n
      if field sl 10 2 ≠ 3 ∧ field sl 0 6 = l.b
      then addWord d (field sl 6 4) ((l.count (field sl 10 2) : Int) * sext 24 (field sl 12 24)) else d) b.1, b.2)

/-- The next descriptor, if one has been handed over. -/
def State.nextDesc (s : State) (c : CoreId) : Option NextDesc :=
  let q := (s.core c).seq
  match q.loop with
  | some l => some { d := l.current.1, off := l.current.2, seg := q.segment.isSome }
  | none => match q.segment with
    | some a => some { d := s.fetchDesc c a, off := a, seg := true }
    | none =>
      if q.head = q.tail then none
      else some { d := s.fetchDesc c (q.slotOff q.head.toNat), off := q.slotOff q.head.toNat, seg := false }

/-- The sequencer may dispatch: enabled, not frozen, halted, waiting or fencing. -/
def State.seqReady (s : State) (c : CoreId) : Bool :=
  let q := (s.core c).seq
  (s.core c).live && q.enable && q.freeze.isNone && q.halting.isNone && !q.halted && q.fencing.isNone && q.wait.isNone

/-- The sequencer reads the descriptor it is about to dispatch from Cupola, checking damaged words (R235); a copy from the loop buffer is not
read again (R184). -/
def State.fetched (s : State) (c : CoreId) (off : Nat) : State :=
  if (s.core c).seq.loop.isSome then s else s.demand (coreBase c + off) (min 64 (cupolaEnd - off))

/-! ### Data held early, by place in the program (R190) -/

/-- `n` descriptors have been passed: data held early for one of them that has not been dispatched is dropped, with the READs still to be
sent for it. -/
def Mover.passed (m : Mover) (n : Nat) : Mover :=
  let gone := fun b : PrefetchData => b.forId.isNone && decide (b.after < n)
  { m with
    buffer := (m.buffer.filter fun b => !gone b).map fun b => if b.forId.isNone then { b with after := b.after - n } else b
    work := m.work.filter fun w => !(w.spec && m.buffer.any fun b => gone b && b.id == w.desc) }

/-- The program goes on elsewhere: nothing held early for a descriptor not yet dispatched is used. -/
def Mover.diverted (m : Mover) : Mover := m.passed (1 + (m.buffer.map (·.after)).foldl max 0)

/-- The next descriptor is dispatched as queue entry `en`: data held early for it belongs to that entry from now on. -/
def Mover.bound (m : Mover) (en : QEntry) : Mover :=
  { m with buffer := m.buffer.map fun b =>
      if b.forId.isNone && b.after == 0 && b.off == en.off && b.bits == en.bits then { b with forId := some en.id } else b }

/-- A descriptor the sequencer performs completes and retires at once: its completion signal, the count of retired
descriptors and, for a skipped one, of skipped ones (R169, R144). -/
def State.completeOwn (s : State) (c : CoreId) (d : Desc) (skipped : Bool) : State :=
  let s := if dSigEn d then s.cntOp c (Fin.ofNat 64 (dSigCnt d)) (.add 1) else s
  s.modSeq c fun q => { q with retired := q.retired + 1, skipped := if skipped then satAdd q.skipped 1 else q.skipped }

/-- Step the loop past the current body descriptor; none when the loops have ended (R184). -/
def Loop.advance (l : Loop) : Option Loop :=
  if l.b + 1 < l.body.length then some { l with b := l.b + 1 }
  else
    let l := { l with b := 0, mask := none }
    if l.i0 + 1 < pCount l.desc 0 then some { l with i0 := l.i0 + 1 }
    else if l.i1 + 1 < pCount l.desc 1 then some { l with i0 := 0, i1 := l.i1 + 1 }
    else if l.i2 + 1 < pCount l.desc 2 then some { l with i0 := 0, i1 := 0, i2 := l.i2 + 1 }
    else none

/-- Move past the next descriptor: the next loop copy (the REPEAT completes after its last), the next of the segment, or the next
ring slot. -/
def State.advance (s : State) (c : CoreId) : State :=
  let q := (s.core c).seq
  let s := s.modMov c fun m => m.passed 1
  match q.loop with
  | some l => match l.advance with
    | some l' => s.modSeq c fun q => { q with loop := some l', waitMet := none }
    | none => (s.modSeq c fun q => { q with loop := none, waitMet := none }).completeOwn c l.desc false
  | none => s.modSeq c fun q =>
    match q.segment with
    | some a => { q with segment := some (a + 64), waitMet := none }
    | none => { q.release 1 with waitMet := none }

/-- The sequencer refuses one of its own descriptors: 0x502, SEQ_FAULT_DESC and a freeze (R192). One read past Cupola's end logs 0x202
first (R22). -/
def State.refuseOwn (s : State) (c : CoreId) (off : Nat) : State :=
  let s := if off + 64 ≤ cupolaEnd then s else
    s.log { cls := .deferred, code := 0x202, block := 4, inst := c.val, pkey := none, detail := 0, address := coreBase c + off }
  s.refuse c .seq off

/-! ### Mask tables (R139 to R142) -/

/-- The COMPUTE and PARTIAL bits of block (i, j); none outside ROWS × COLS. -/
def State.maskBits (s : State) (c : CoreId) (addr i j : Nat) : Option (Bool × Bool) :=
  let rd := fun off n => leNat (bytesOf (s.cupRead c (addr + off) n).2)
  let rows := rd 0 2
  let cols := rd 2 2
  if i < rows ∧ j < cols then
    let w := (cols + 63) / 64
    let o := 8 * (i * w + j / 64)
    some (bitOf (rd (0x40 + o) 8) (j % 64), bitOf (rd (0x40 + rows * w * 8 + o) 8) (j % 64))
  else none

/-- What the mask says of a descriptor (Table SPA-3): it runs, is skipped, or is to be refused (R141). -/
inductive MaskSays where
  | run | skip | bad
deriving DecidableEq, Repr

/-- The bits a REPEAT in progress gives its current iteration. -/
def State.loopBits (s : State) (c : CoreId) (l : Loop) : Option (Bool × Bool) :=
  match l.mask with
  | some b => some b
  | none => s.maskBits c (pMask l.desc) (l.count (pRowLoop l.desc) + pRowOff l.desc) (l.count (pColLoop l.desc) + pColOff l.desc)

/-- The mask's word on the next descriptor. -/
def State.maskSays (s : State) (c : CoreId) (d : Desc) : MaskSays :=
  if !dMskC d && !dMskP d then .run
  else match (s.core c).seq.loop with
    | none => .bad
    | some l =>
      if !pMaskEn l.desc then .bad
      else match s.loopBits c l with
        | none => .bad
        | some b => if (!dMskC d || b.1) && (!dMskP d || (b.1 && b.2)) then .run else .skip

/-- The words of a mask table that give block (i, j), read with their damage checked (R235). -/
def State.readMask (s : State) (c : CoreId) (addr i j : Nat) : State :=
  let s := (s.cupRead c addr 4).1
  let rd := fun off => leNat (bytesOf (s.cupRead c (addr + off) 2).2)
  let w := (rd 2 + 63) / 64
  let o := 8 * (i * w + j / 64)
  if i < rd 0 ∧ j < rd 2 then ((s.cupRead c (addr + 0x40 + o) 8).1.cupRead c (addr + 0x40 + rd 0 * w * 8 + o) 8).1 else s

/-- The block a loop's mask bits are read for. -/
def State.touchMask (s : State) (c : CoreId) : State :=
  match (s.core c).seq.loop with
  | some l => if pMaskEn l.desc && l.mask.isNone then
      s.readMask c (pMask l.desc) (l.count (pRowLoop l.desc) + pRowOff l.desc) (l.count (pColLoop l.desc) + pColOff l.desc)
    else s
  | none => s

/-- The bits are read once per iteration, when its first gated descriptor reaches dispatch (R142). -/
def State.keepMask (s : State) (c : CoreId) (d : Desc) : State :=
  if !dMskC d && !dMskP d then s
  else (s.touchMask c).modSeq c fun q => { q with loop := q.loop.map fun l => { l with mask := if pMaskEn l.desc then s.loopBits c l else none } }

/-! ### Dispatch -/

/-- Descriptors of the core that hold a tracker entry: queued and executing (R167). -/
def Core.inFlight (k : Core) : Nat :=
  let n := fun q : UnitQ => q.queue.length + q.active.length
  (k.eng.toList.map fun x => n x.q).sum + n k.vec.q + n k.mov.q

/-- Put the next descriptor into its performer's queue, if a queue credit and a tracker entry are free (R166, R167). -/
def State.enqueue (s : State) (c : CoreId) (u : UnitId) (n : NextDesc) : State :=
  let k := s.core c
  if 64 ≤ (k.unitQ u).queue.length ∨ 1024 ≤ k.inFlight then s
  else
    let mark := s.maskSays c n.d
    let s := ((s.fetched c n.off).keepMask c n.d).enterPhase c (BitVec.ofNat 6 (dPhase n.d)) false
    let mode := match u with
      | .eng e => (k.eng[e].subn, k.eng[e].zgate)
      | _ => (true, true)
    let entry : QEntry :=
      { id := k.seq.issued, bits := n.d, off := n.off, maskSkip := mark == .skip
        runs := if dWaitThresh n.d = 0 then some (mark != .skip && k.predRuns n.d) else none, subn := mode.1, zgate := mode.2
        taken := if mark = .bad then .malformed else .no, inSegment := n.seg }
    (((s.modQ c u fun q => { q with queue := q.queue ++ [entry] }).modSeq c fun q => { q with issued := q.issued + 1 }).modMov c fun m =>
      m.bound entry).advance c

/-- Dispatch the next descriptor when it is one that `p` accepts and a unit performs; one of a reserved type is refused by the
sequencer (R164). -/
def State.dispatchQueued (s : State) (c : CoreId) (p : Desc → Bool) : State :=
  if !s.seqReady c then s
  else match s.nextDesc c with
    | none => s
    | some n =>
      if (dKind n.d).isNone then s.refuseOwn c n.off
      else if p n.d then (match dPerformer n.d with
        | some u => s.enqueue c u n
        | none => s)
      else s

/-- A descriptor of kind `k`. -/
def isKind (k : DKind) (d : Desc) : Bool := dKind d == some k

/-- An ACC of operation `op`, or of a reserved operation, which its engine refuses. -/
def isAcc (op : Nat) (d : Desc) : Bool := isKind .acc d && (aOp d == op || 8 ≤ aOp d)

/-- The sequencer performs the next descriptor, of kind `k`: its header wait is tested, then its mask bits and predicate decide
whether `run` acts or it is skipped, `past` moving on (R168, R144, R145). A WAIT is left to `waitDesc`. -/
def State.performOwn (s : State) (c : CoreId) (k : DKind) (past : State → State) (run : NextDesc → State → State) : State :=
  if !s.seqReady c then s
  else match s.nextDesc c with
    | none => s
    | some n =>
      if (dKind n.d).isNone then s.refuseOwn c n.off
      else if !isKind k n.d || (dPerformer n.d).isSome then s
      else
        let mark := s.maskSays c n.d
        let s := s.fetched c n.off
        if descBad n.seg n.d || mark = .bad then s.refuseOwn c n.off
        else
          let s := (s.keepMask c n.d).enterPhase c (BitVec.ofNat 6 (dPhase n.d)) (k = .phase ∧ dBits n.d 8 0 1 = 1)
          if dWaitThresh n.d ≠ 0 ∧ (s.core c).seq.waitMet = none ∧ s.cntMet c (dWaitCnt n.d) (dWaitThresh n.d) = false then
            s.modSeq c fun q => { q with wait := some (s.newWait .header (dWaitCnt n.d) (dWaitThresh n.d) n.off 0) }
          else if mark = .skip ∨ (s.core c).seq.waitMet.getD ((s.core c).predRuns n.d) = false then past (s.completeOwn c n.d true)
          else run n s

/-- The sequencer's header wait is met: its sleep ends, and the predicate of the descriptor is read (R145). -/
def State.seqMet (s : State) (c : CoreId) : State :=
  let runs := match s.nextDesc c with
    | some n => (s.core c).predRuns n.d
    | none => true
  s.modSeq c fun q => { q with wait := none, waitMet := some runs }

/-- Complete an own descriptor and move on. -/
def State.finishOwn (s : State) (c : CoreId) (d : Desc) : State := (s.completeOwn c d false).advance c

/-- The WAIT's effect once its condition holds: the subtraction of DEC, one counter operation with the test (R181). -/
def State.waitDone (s : State) (c : CoreId) (d : Desc) : State :=
  (s.cntOp c (Fin.ofNat 64 (dWaitCnt d)) (.sub (wDec d))).finishOwn c d

/-- WAIT at dispatch (R181): skipped without waiting, met at once, or the sequencer sleeps. -/
def State.waitOp (s : State) (c : CoreId) : State :=
  if !s.seqReady c then s
  else match s.nextDesc c with
    | none => s
    | some n =>
      if (dKind n.d).isNone then s.refuseOwn c n.off
      else if !isKind .wait n.d then s
      else
        let mark := s.maskSays c n.d
        let s := s.fetched c n.off
        if descBad n.seg n.d || mark = .bad then s.refuseOwn c n.off
        else
          let s := (s.keepMask c n.d).enterPhase c (BitVec.ofNat 6 (dPhase n.d)) false
          if mark = .skip ∨ (s.core c).predRuns n.d = false then (s.completeOwn c n.d true).advance c
          else if dWaitThresh n.d = 0 then s.finishOwn c n.d
          else if s.cntMet c (dWaitCnt n.d) (dWaitThresh n.d) then s.waitDone c n.d
          else s.modSeq c fun q => { q with wait := some (s.newWait .waitDesc (dWaitCnt n.d) (dWaitThresh n.d) n.off (wTimeout n.d)) }

/-- A local SIGNAL's counter operation (Table TIL-13). -/
def signalOp (d : Desc) : CntOp :=
  match gnOp d with
  | 0 => .add (gnValue d)
  | 1 => .sub (gnValue d)
  | _ => .set (gnValue d)

/-- A local SIGNAL (R182). -/
def State.signalLocal (s : State) (c : CoreId) : State :=
  s.performOwn c .signal (·.advance c) fun n s => (s.cntOp c (Fin.ofNat 64 (gnCounter n.d)) (signalOp n.d)).finishOwn c n.d

/-- JUMP (R183). MODE 0 in a segment skips ring slots from the slot it would return to. -/
def State.jumpOp (s : State) (c : CoreId) : State :=
  s.performOwn c .jump (·.advance c) fun n s =>
    match jMode n.d with
    | 0 => (((s.completeOwn c n.d false).advance c).modMov c fun m => if n.seg then m else m.passed (jTarget n.d)).modSeq c fun q => q.skip (jTarget n.d)
    | 1 => ((s.completeOwn c n.d false).modMov c Mover.diverted).modSeq c fun q =>
        let q := if n.seg then q else q.release 1
        { q with segment := some (jTarget n.d), waitMet := none }
    | 2 => ((s.completeOwn c n.d false).modMov c Mover.diverted).modSeq c fun q =>
        { q with segment := some (((n.off : Int) + 64 * sext 32 (jTarget n.d)) % 4294967296).toNat, waitMet := none }
    | _ => ((s.completeOwn c n.d false).modMov c Mover.diverted).modSeq c fun q => { q with segment := none, waitMet := none }

/-- PHASE does no work beyond entering its phase (R186). -/
def State.phaseOp (s : State) (c : CoreId) : State := s.performOwn c .phase (·.advance c) fun n s => s.finishOwn c n.d

/-- An entry that keeps a descriptor the sequencer is working on. -/
def ownEntry (k : Core) (n : NextDesc) : QEntry :=
  { id := k.seq.issued, bits := n.d, off := n.off, maskSkip := false, runs := none, subn := true, zgate := true, taken := .no, inSegment := n.seg }

/-- FENCE begins to hold dispatch (R187). -/
def State.fenceOp (s : State) (c : CoreId) : State :=
  s.performOwn c .fence (·.advance c) fun n s =>
    s.modSeq c fun q => { q with fencing := some { entry := ownEntry (s.core c) n, marks := none, failed := false }, issued := q.issued + 1 }

/-- HALT stops fetching (R188). -/
def State.haltOp (s : State) (c : CoreId) : State :=
  s.performOwn c .halt (·.advance c) fun n s => s.modSeq c fun q => { q with halting := some (ownEntry (s.core c) n), issued := q.issued + 1 }

/-! ### REPEAT (R184, R185) -/

/-- The offsets of the body of the REPEAT at `n`. -/
def bodyOffs (q : Sequencer) (n : NextDesc) : List Nat :=
  (List.range (pBody n.d)).map fun i => if n.seg then n.off + 64 * (i + 1) else q.slotOff (q.head.toNat + 1 + i)

/-- Move past a REPEAT and its body. -/
def Sequencer.pastBody (q : Sequencer) (n : NextDesc) : Sequencer :=
  if n.seg then { q with segment := some (n.off + 64 * (pBody n.d + 1)), waitMet := none }
  else { q.release (pBody n.d + 1) with waitMet := none }

/-- The body of a REPEAT in the ring has been handed over. -/
def Sequencer.hasBody (q : Sequencer) (n : NextDesc) : Bool := n.seg || pBody n.d + 1 ≤ q.held

/-- The body reaches past its segment, or holds a REPEAT or a JUMP. -/
def State.bodyBad (s : State) (c : CoreId) (n : NextDesc) : Bool :=
  (bodyOffs (s.core c).seq n).any fun o =>
    cupolaEnd < o + 64 || isKind .jump (s.fetchDesc c o) || isKind .repeatDesc (s.fetchDesc c o)

/-- REPEAT: its body enters the loop buffer, or is skipped whole. A body not yet handed over is waited for. -/
def State.repeatOp (s : State) (c : CoreId) : State :=
  match s.nextDesc c with
  | none => s
  | some n =>
    if isKind .repeatDesc n.d && !descBad n.seg n.d && s.seqReady c && !(s.core c).seq.hasBody n then s
    else if isKind .repeatDesc n.d && !descBad n.seg n.d && s.seqReady c && s.bodyBad c n then s.refuseOwn c n.off
    else s.performOwn c .repeatDesc (fun s => (s.modMov c fun m => m.passed (pBody n.d + 1)).modSeq c fun q => q.pastBody n) fun n s =>
      let s := ((bodyOffs (s.core c).seq n).foldl (fun s o => s.fetched c o) s).modMov c fun m => m.passed 1
      let l : Loop := { desc := n.d, off := n.off, issued := (s.core c).seq.issued, body := (bodyOffs (s.core c).seq n).map fun o => (s.fetchDesc c o, o)
                        i0 := 0, i1 := 0, i2 := 0, b := 0, mask := none }
      s.modSeq c fun q => { q.pastBody n with loop := some l }

/-! ### The ends of FENCE and HALT (R187, R188) -/

/-- A performer holds no descriptor. -/
def UnitQ.idle (q : UnitQ) : Bool := q.queue.isEmpty && q.active.isEmpty

/-- The units that bits 0 to 5 of UNITS name hold no descriptor. -/
def Core.unitsIdle (k : Core) (mask : Nat) : Bool :=
  (bitsSet mask 6).all fun n => match unitOf n with
    | some u => (k.unitQ u).idle
    | none => true

/-- The work item that sends a FENCE_MARK of the FENCE numbered `id` to a die, or along a multicast group's tree; `dest` holds the die or group,
`signal` that it is a group. -/
def fenceItem (id off : Nat) (x : BitVec 6 × Bool) : NetItem :=
  { kind := .fence, dest := x.1.setWidth 16, window := 0, offset := 0, loc := 0
    rowBytes := 0, rows := 1, localPitch := 0, remotePitch := 0, signal := x.2, sigCnt := 0, sigInc := 0, group := 0
    spec := false, row := 0, pos := 0, seq := 0, desc := id, off := off }

/-- FENCE releases dispatch once the named units have retired their work and, with REMOTE, every mark it sent has come back. -/
def State.fenceStep (s : State) (c : CoreId) (f : Fencing) : State :=
  let k := s.core c
  let d := f.entry.bits
  if !k.unitsIdle (fUnits d) then s
  else if bitOf (fUnits d) 6 && f.marks.isNone && !k.mov.fenceDests.isEmpty then
    (s.modMov c fun m => { m with work := m.work ++ m.fenceDests.map (fenceItem f.entry.id f.entry.off), fenceDests := [] }).modSeq c fun q =>
      { q with fencing := some { f with marks := some k.mov.fenceDests.length } }
  else if f.marks.getD 0 ≠ 0 then s
  else (s.modSeq c fun q => { q with fencing := none }).finishOwn c d

/-- HALT completes once every earlier descriptor has retired. -/
def State.haltStep (s : State) (c : CoreId) (e : QEntry) : State :=
  if (s.core c).unitsIdle 0x3F then
    ((s.modSeq c fun q => { q with halting := none }).finishOwn c e.bits).modSeq c fun q => { q with halted := true }
  else s

/-- The sequencer's own waiting descriptors are tried again. -/
def State.retireSeq (s : State) (c : CoreId) : State :=
  let q := (s.core c).seq
  if q.freeze.isSome || !(s.core c).live then s
  else match q.fencing, q.halting with
    | some f, _ => s.fenceStep c f
    | none, some e => s.haltStep c e
    | none, none => s

/-! ### The meanings of the sequencer's rows -/

/-- LOADB is dispatched into its engine's queue (R172). -/
def execLoadb (c : CoreId) (s : State) : Out := ev s fun s => s.dispatchQueued c (isKind .loadb)
/-- STREAM is dispatched into its engine's queue (R173). -/
def execStream (c : CoreId) (s : State) : Out := ev s fun s => s.dispatchQueued c (isKind .stream)
/-- WAIT (R181). -/
def execWait (c : CoreId) (s : State) : Out := ev s fun s => s.waitOp c
/-- JUMP (R183). -/
def execJump (c : CoreId) (s : State) : Out := ev s fun s => s.jumpOp c
/-- REPEAT (R184). -/
def execRepeatDesc (c : CoreId) (s : State) : Out := ev s fun s => s.repeatOp c
/-- PHASE (R186). -/
def execPhase (c : CoreId) (s : State) : Out := ev s fun s => s.phaseOp c
/-- FENCE (R187). -/
def execFence (c : CoreId) (s : State) : Out := ev s fun s => s.fenceOp c
/-- HALT (R188). -/
def execHalt (c : CoreId) (s : State) : Out := ev s fun s => s.haltOp c

end Sys2Proof.Machine
end

