-- ==== Sys2Proof/Machine/Engine.lean ====
section
/-! DEFINITION. The cube array and its feeder (02), the short sums and their promotion (04): staging, installing, the entry of a
step with its chunks, its replay, and its promotion into a group. -/

namespace Sys2Proof.Machine

/-! ### Elements (R102, R86, R54) -/

/-- An element as the array sees it: its value with the block scale folded in, whether its block's scale is 0xFF, its exponent
in the maximum search, and whether it was flushed. -/
structure El where
  v : FVal
  ff : Bool
  exp : Option Int
  flushed : Bool
deriving DecidableEq, Repr

/-- The element +0 fed or staged beyond an extent (R37, R48). -/
def El.zero : El := { v := .fin false 0 0, ff := false, exp := none, flushed := false }

/-- An element of widened format `f` under block scale `scale` (R32, R74, R86, R102). -/
def elem (f : Fmt) (subn : Bool) (scale bits : Nat) : El :=
  if scale = 0xFF then { v := .nan false, ff := true, exp := none, flushed := false }
  else if !subn && f.subnormal bits then { v := .fin (f.neg bits) 0 0, ff := false, exp := none, flushed := true }
  else match decodeF f bits with
    | .fin n m e =>
      { v := .fin n m (e + scale - 127), ff := false
        exp := if m = 0 then none else if f.subnormal bits then some (f.emin + scale - 127)
          else some ((Nat.log2 m : Int) + e + scale - 127)
        flushed := false }
    | v => { v := v, ff := false, exp := none, flushed := false }

/-- The element contributes only zero to the S20 path (R54). -/
def El.isZero (x : El) : Bool := !x.ff && (match x.v with
  | .fin _ m _ => m == 0
  | _ => true)

/-- The larger of two exponents where they exist. -/
def maxExp (a b : Option Int) : Option Int :=
  match a, b with
  | none, y => y
  | x, none => x
  | some x, some y => some (max x y)

/-- The largest exponent that takes part. -/
def maxExps (xs : List El) : Option Int := xs.foldl (fun a x => maxExp a x.exp) none

/-- Entry (r, c) of a table of elements; +0 outside it. -/
def elAt (t : Array (Array El)) (r c : Nat) : El := ((t[r]?).getD #[])[c]? |>.getD El.zero

/-! ### The stationary tile -/

/-- The format a geometry holds after widening: FP16, or FP32. -/
def geomFmt (g : Nat) : Fmt := if g = 2 then .fp32 else .fp16

/-- The byte base of B-stage slot `s`. -/
def slotBase (c : CoreId) (e : EngId) (s : Fin 16) : Nat := lanternBase c e + 0x10000 + s.val * 0x800
/-- The byte base of a slot's B scales. -/
def scaleBase (c : CoreId) (e : EngId) (s : Fin 16) : Nat := lanternBase c e + 0x18000 + s.val * 64
/-- The byte base of a 2:4 index area. -/
def areaBase (c : CoreId) (e : EngId) (a : Fin 4) : Nat := lanternBase c e + 0x18C00 + a.val * 256
/-- The byte base of an A-feed entry of 256 bytes. -/
def feedBase (c : CoreId) (e : EngId) (p : Nat) : Nat := lanternBase c e + p * 256
/-- The byte base of an A-feed entry's scales. -/
def feedScaleBase (c : CoreId) (e : EngId) (p : Nat) : Nat := lanternBase c e + 0x18400 + p * 8

/-- The index pair (i0, i1) of group `g` in column `n` (R130). -/
def indexPair (area : List Byte) (g n : Nat) : Nat × Nat :=
  let b := ((area[g * 16 + n / 2]?).getD 0).toNat
  let nib := if n % 2 = 0 then b % 16 else b / 16
  (nib % 4, nib / 4)

/-- The K position that stored row `r`, column `n` serves: the row itself, or the selected one of its group of four (R129). -/
def storedK (geom : Nat) (area : List Byte) (r n : Nat) : Nat :=
  if geom = 1 then
    let p := indexPair area (r / 2) n
    4 * (r / 2) + (if r % 2 = 0 then p.1 else p.2)
  else r

/-- The K position whose block scale applies to stored row `r` (R132). -/
def scaleK (geom r : Nat) : Nat := if geom = 1 then 4 * (r / 2) else r

/-- The elements of a staged tile from its Lantern contents: 32 stored rows of 32 or 16 columns; positions beyond the extents are
+0 (R37). -/
def tileElems (geom mode : Nat) (subn : Bool) (kExt nExt : Nat) (vals area scales : List Byte) : Array (Array El) :=
  let f := geomFmt geom
  let n := geomN geom
  ((List.range 32).map fun r =>
    let row := (vals.drop (64 * r)).take 64
    ((chunksOf f.size n row).zipIdx.map fun x =>
      let sc := if mode = 0 then 0x7F else ((scales[scaleK geom r / blockLen mode * 32 + x.2]?).getD 0x7F).toNat
      if x.2 < nExt ∧ storedK geom area r x.2 < kExt then elem f subn sc (leNat x.1) else El.zero).toArray).toArray

/-- The tile's index area. -/
def State.tileArea (s : State) (c : CoreId) (e : EngId) (t : Tile) : List Byte :=
  match t.area with
  | some a => s.mem.load (areaBase c e a) 256
  | none => []

/-- The tile's elements as they stand in the B-stage. -/
def State.tileEls (s : State) (c : CoreId) (e : EngId) (slot : Fin 16) (t : Tile) : Array (Array El) :=
  tileElems t.geom.toNat t.scaleMode.toNat t.subn t.k t.n (s.mem.load (slotBase c e slot) 2048) (s.tileArea c e t)
    (s.mem.load (scaleBase c e slot) (if t.geom = 1 then 128 else 64))

/-- Which cubes of the array hold only zeros: bit 8r + c (R37, R54). -/
def zeroBlocks (geom : Nat) (t : Array (Array El)) : Nat :=
  let w := if geom = 2 then 2 else 4
  ((List.range 64).map fun i =>
    let z := (List.range 4).all fun r => (List.range w).all fun c => (elAt t (4 * (i / 8) + r) (w * (i % 8) + c)).isZero
    b2n z * 2 ^ i).sum

/-! ### Staging (R37, R38, R52) -/

/-- Slot `s` holds a tile. -/
def Engine.slotUsed (x : Engine) (s : Nat) : Bool := (if h : s < 16 then x.slots[s] else none).isSome

/-- Slot `s`'s scale space is taken by the 2:4 tile in slot s − 1 (R52). -/
def Engine.scaleTaken (x : Engine) (s : Nat) : Bool :=
  s != 0 && (match (if h : s - 1 < 16 then x.slots[s - 1] else none) with
    | some t => t.geom == 1
    | none => false)

/-- The lowest-numbered free slot for a geometry (R38). -/
def Engine.freeSlot (x : Engine) (geom : Nat) : Option (Fin 16) :=
  (List.finRange 16).find? fun s =>
    !x.slotUsed s.val && !x.scaleTaken s.val && (geom != 1 || (s.val ≤ 14 && !x.slotUsed (s.val + 1)))

/-- The lowest-numbered free index area. -/
def Engine.freeArea (x : Engine) : Option (Fin 4) :=
  (List.finRange 4).find? fun a => x.slots.toList.all fun t => (t.bind (·.area)) != some a

/-- The oldest LOADB of the queue not yet taken. -/
def UnitQ.oldestLoadb (q : UnitQ) : Option QEntry :=
  q.queue.find? fun e => isKind .loadb e.bits && (e.taken == .no || e.taken == .malformed)

/-- Mark a queued entry. -/
def UnitQ.mark (q : UnitQ) (id : Nat) (t : Taken) : UnitQ :=
  { q with queue := q.queue.map fun e => if e.id = id then { e with taken := t } else e }

/-- Record that a queued entry's predicate has been read (R145). -/
def UnitQ.decide (q : UnitQ) (id : Nat) (runs : Bool) : UnitQ :=
  { q with queue := q.queue.map fun e => if e.id = id then { e with runs := some runs } else e }

/-- The Cupola rows of a LOADB's values: offset and elements, by stored row (R131, Table TIL-5). -/
def loadbRows (d : Desc) : List (Nat × Nat) :=
  let es := ((fmtOf (lFmt d)).getD .fp16).size
  (List.range 32).map fun r =>
    if lGeom d = 1 then (lVal d + r * 32 * es, if 4 * (r / 2) < lK d then lN d else 0)
    else (lVal d + r * lPitch d, if r < lK d then lN d else 0)

/-- Read rows of Cupola in turn: the state, the data of each, and the first past-end offset of each. -/
def State.readRows (s : State) (c : CoreId) (rows : List (Nat × Nat)) : State × List Marked × List Nat :=
  rows.foldl (fun acc r =>
    let x := acc.1.cupRead c r.1 r.2
    (x.1, acc.2.1 ++ [x.2], acc.2.2 ++ (if r.2 = 0 then [] else (pastEnd r.1 r.2).toList))) (s, [], [])

/-- Stage a LOADB into a slot: read, widen, zero-fill beyond the extents, and record the maxima, zero blocks, flushes and poison
(R37, R447). -/
def State.stageInto (s : State) (c : CoreId) (e : EngId) (en : QEntry) (slot : Fin 16) (area : Option (Fin 4)) : State :=
  let d := en.bits
  let g := lGeom d
  let src := (fmtOf (lFmt d)).getD .fp16
  let f := geomFmt g
  let n := geomN g
  let nb := (lK d + blockLen (lMode d) - 1) / blockLen (lMode d)
  let (s, idx, o1) := s.readRows c (if g = 1 then [(lIdx d, 256)] else [])
  let idx := idx.flatten
  let (s, vals, o2) := s.readRows c ((loadbRows d).map fun x => (x.1, x.2 * src.size))
  let (s, scl, o3) := s.readRows c (if lMode d = 0 then [] else (List.range nb).map fun b => (lScale d + b * 32, lN d))
  let els := vals.zipIdx.map fun x =>
    let xs := (elements src.size n x.1).zipIdx.map fun v =>
      if v.2 < lN d ∧ storedK g (bytesOf idx) x.2 v.2 < lK d then (if g = 2 then v.1.1 else widen16 src v.1.1, v.1.2) else (0, v.1.2)
    xs
  let bytes := els.flatMap fun row => spell f.size row ++ List.replicate (64 - f.size * n) (0, false)
  let scales := if lMode d = 0 then List.replicate 32 (0x7F, false)
    else scl.flatMap fun row => row ++ List.replicate (32 - lN d) (0x7F, false)
  let s := s.storeP (slotBase c e slot) bytes
  let s := s.storeP (scaleBase c e slot) scales
  let s := match area with
    | some a => s.storeP (areaBase c e a) idx
    | none => s
  let t := tileElems g (lMode d) en.subn (lK d) (lN d) (bytesOf bytes) (bytesOf idx) (bytesOf scales)
  let poisoned := bytes.any (·.2) || scales.any (·.2) || idx.any (·.2)
  let tile : Tile :=
    { geom := BitVec.ofNat 2 g, scaleMode := BitVec.ofNat 2 (lMode d), subn := en.subn
      colMax := (List.range n).map fun j => maxExps ((List.range 32).map fun r => elAt t r j)
      rowMax := t.toList.map fun r => maxExps r.toList
      zeroMap := BitVec.ofNat 64 (zeroBlocks g t), flushed := t.toList.any fun r => r.toList.any (·.flushed)
      poisoned := poisoned, area := area, k := lK d, n := lN d, installed := false }
  (s.logBounds c (.eng e) false (o1 ++ o2 ++ o3)).modEng c e fun x =>
    { x with slots := upd x.slots slot fun _ => some tile, q := x.q.mark en.id (.staged slot), stageWait := none }

/-- Take the oldest LOADB not yet taken (R37): its header wait is tested, its predicate and mask read, and it is staged when a slot
fits it. -/
def State.stage (s : State) (c : CoreId) (e : EngId) : State :=
  let k := s.core c
  let x := k.eng[e]
  if !k.live || x.q.freeze.isSome then s
  else match x.q.oldestLoadb with
    | none => s
    | some en =>
      let d := en.bits
      if en.runs.isNone ∧ s.cntMet c (dWaitCnt d) (dWaitThresh d) = false then
        if x.stageWait.isSome then s
        else s.modEng c e fun x => { x with stageWait := some (s.newWait .header (dWaitCnt d) (dWaitThresh d) en.off 0) }
      else if en.taken = .malformed ∨ predOk (dPred d) = false then
        (s.modEng c e fun x => { x with q := x.q.mark en.id .refused, stageWait := none }).refuse c (.eng e) en.off
      else if !(en.runs.getD (!en.maskSkip && k.predRuns d)) then
        s.modEng c e fun x => { x with q := x.q.mark en.id .skipped, stageWait := none }
      else if loadbBad d then
        (s.modEng c e fun x => { x with q := x.q.mark en.id .refused, stageWait := none }).refuse c (.eng e) en.off
      else match x.freeSlot (lGeom d), (if lGeom d = 1 then x.freeArea.map some else some none) with
        | some slot, some area => s.stageInto c e en slot area
        | _, _ => s.modEng c e fun x => { x with q := x.q.decide en.id true, stageWait := none }

/-! ### Installing (R39 to R42) -/

/-- The STREAM in the feeder: the first started one with steps left to enter. -/
def UnitQ.feeding (q : UnitQ) : Option Active :=
  q.active.find? fun a => isKind .stream a.entry.bits && !a.null && a.steps < sSteps a.entry.bits

/-- A unit goes on with work it has begun: it is not frozen, or frozen by a cause that lets begun work finish (R399). -/
def UnitQ.goesOn (q : UnitQ) : Bool :=
  match q.freeze with
  | none => true
  | some f => f.cause != .command && f.cause != .fatal

/-- Free the slots of tiles once installed, no longer installed, and used by no uncommitted step (R41). -/
def Engine.freeSlots (x : Engine) : Engine :=
  { x with slots := Vector.ofFn fun i : Fin 16 =>
      match x.slots[i] with
      | some t => if t.installed && x.installed != some i && !x.toInstall.contains i && !x.flight.any (fun f => f.slot == i) then none else some t
      | none => none }

/-- The elements of the tile in the array. -/
def ArrayTile.els (a : ArrayTile) : Array (Array El) :=
  tileElems a.tile.geom.toNat a.tile.scaleMode.toNat a.tile.subn a.tile.k a.tile.n a.vals a.area a.scales

/-- The install's copy of a slot (R39): its reads check the words (R235), and a word found marked poisons the tile (R447, log entry 121). -/
def State.copyTile (s : State) (c : CoreId) (e : EngId) (slot : Fin 16) (t : Tile) : State × ArrayTile :=
  let v := s.readP (slotBase c e slot) 2048
  let w := v.1.readP (scaleBase c e slot) (if t.geom = 1 then 128 else 64)
  let a := match t.area with
    | some a => w.1.readP (areaBase c e a) 256
    | none => (w.1, [])
  (a.1, { slot := slot, tile := { t with poisoned := t.poisoned || v.2.any (·.2) || w.2.any (·.2) || a.2.any (·.2), installed := true }
          vals := bytesOf v.2, area := bytesOf a.2, scales := bytesOf w.2 })

/-- An unfinished replay belongs to another tile than the one in the array: its restore comes first (R42). -/
def Engine.restoreDue (x : Engine) : Bool := x.flight.any fun f => f.overflow && x.installed != some f.slot

/-- The next install may not begin (R39, R40, R42): a STREAM of the installed tile still has steps to enter, or a replay needs the old
tile, or the old tile has been restored and a step of it still awaits its replay. -/
def Engine.installHeld (x : Engine) : Bool :=
  x.q.feeding.isSome || x.restoreDue || (x.restore != .none && x.flight.any (·.overflow))

/-- Install the next tile whose LOADB has left the queue (R39); after a restore this is the stopped install, from row 0 (R42). -/
def State.install (s : State) (c : CoreId) (e : EngId) : State :=
  let k := s.core c
  let x := k.eng[e]
  if !k.live || !x.q.goesOn || x.installHeld then s
  else match x.toInstall with
    | [] => s
    | slot :: rest => match x.slots[slot] with
      | none => s
      | some t =>
        let y := s.copyTile c e slot t
        y.1.modEng c e fun x => Engine.freeSlots
          { x with array := some y.2, toInstall := rest, restore := .none, installCk := x.installCk + 32
                   slots := upd x.slots slot fun t => t.map fun t => { t with installed := true } }

/-! ### A step (R31, R35, R47 to R50, R54 to R56, R101 to R106) -/

/-- One A element: its bits after widening, its scale code, and the mark of the words it and its scale came from. -/
structure AElem where
  bits : Nat
  scale : Nat
  poison : Bool
deriving DecidableEq, Repr

/-- Where A element k of output row m lies, with its scale; none for padding (R50, R173, R174). -/
def aAddrOf (d : Desc) (m k : Nat) : Option (Nat × Nat) :=
  let es := ((fmtOf (sFmt d)).getD .fp16).size
  if !sConv d then some (sAddr d + m * sPitch d + k * es, sScale d + m * sScalePitch d + k / blockLen (sMode d))
  else
    let mo := sM0 d + m
    let kk := sK0 d + k
    let oy := mo / sOutW d
    let ox := mo % sOutW d
    let ch := kk % sC d
    let fx := kk / sC d % sFw d
    let fy := kk / (sC d * sFw d)
    let iy : Int := (oy * sSy d + fy * sDy d : Nat) - (sPy d : Int)
    let ix : Int := (ox * sSx d + fx * sDx d : Nat) - (sPx d : Int)
    if sFh d * sFw d * sC d ≤ kk ∨ iy < 0 ∨ (sInH d : Int) ≤ iy ∨ ix < 0 ∨ (sInW d : Int) ≤ ix then none
    else
      let p := iy.toNat * sInW d + ix.toNat
      some (sAddr d + (p * sC d + ch) * es, sScale d + p * sScalePitch d + ch / blockLen (sMode d))

/-- Read one row of A for output row `m` of the STREAM: the state, the elements of the contraction, the past-end offsets, and the
first poisoned address. -/
def State.readARow (s : State) (c : CoreId) (d : Desc) (m : Nat) : State × List AElem × List Nat × Option Nat :=
  let src := (fmtOf (sFmt d)).getD .fp16
  let len := if sOrient d then geomN (sGeom d) else geomK (sGeom d)
  (List.range len).foldl (fun acc k =>
      let pad : AElem := { bits := 0, scale := 0x7F, poison := false }
      if sK d ≤ k then (acc.1, acc.2.1 ++ [pad], acc.2.2)
      else match aAddrOf d m k with
        | none => (acc.1, acc.2.1 ++ [pad], acc.2.2)
        | some (a, sa) =>
          let (s, v) := acc.1.cupRead c a src.size
          let (s, w) := if sMode d = 0 then (s, [(0x7F, false)]) else s.cupRead c sa 1
          let b := leNat (bytesOf v)
          let x : AElem := { bits := if src = .fp32 then b else widen16 src b, scale := leNat (bytesOf w)
                             poison := v.any (·.2) || w.any (·.2) }
          let outs := acc.2.2.1 ++ (pastEnd a src.size).toList ++ (if sMode d = 0 then [] else (pastEnd sa 1).toList)
          (s, acc.2.1 ++ [x], outs, acc.2.2.2.orElse fun _ => (firstMark (coreBase c + a) v).orElse fun _ => firstMark (coreBase c + sa) w))
    (s, [], [], none)

/-- The products each cube sums for output column `j`, cube by cube in array order: A position, stored row, stored column (R31, R43,
R129). -/
def cubeTerms (geom : Nat) (orient : Bool) (area : List Byte) (j : Nat) : List (List (Nat × Nat × Nat)) :=
  if orient then
    let w := if geom = 2 then 2 else 4
    (List.range 8).map fun b => (List.range w).map fun i => (b * w + i, j, b * w + i)
  else if geom = 1 then
    (List.range 8).map fun r => (List.range 4).map fun i => (storedK 1 area (4 * r + i) j, 4 * r + i, j)
  else (List.range 8).map fun b => (List.range 4).map fun i => (4 * b + i, 4 * b + i, j)

/-- The side bits of a product that is not finite by finite (Table NUM-6). -/
def sideOf (a b : FVal) : BitVec 4 :=
  match a, b with
  | .nan x, y => if x || y.isSig then 12 else 4
  | x, .nan y => if x.isSig || y then 12 else 4
  | .inf x, .inf y => if x = y then 1 else 2
  | .inf x, .fin n m _ => if m = 0 then 12 else if x = n then 1 else 2
  | .fin n m _, .inf y => if m = 0 then 12 else if n = y then 1 else 2
  | .fin _ _ _, .fin _ _ _ => 0

/-- A signed integer multiple of 2^e rounded to a multiple of 2^u, nearest with ties to even: the quotient and whether it was
inexact. -/
def roundGrid (v : Int) (e u : Int) : Int × Bool :=
  if u ≤ e then (v * (2 ^ (e - u).toNat : Nat), false)
  else
    let r := roundAt .rne 0 (exactly (v < 0) v.natAbs e) u
    (if v < 0 then -(r.1 : Int) else r.1, r.2)

/-- The exact sum of four products of finite elements, as v × 2^e. -/
def dotExact (ps : List (FVal × FVal)) : Int × Int :=
  let ts : List (Int × Int) := ps.map fun p => match p with
    | (.fin n1 m1 e1, .fin n2 m2 e2) => (if n1 != n2 then -((m1 * m2 : Nat) : Int) else ((m1 * m2 : Nat) : Int), e1 + e2)
    | _ => (0, 0)
  let ts := ts.filter fun t => t.1 != 0
  let e := ts.foldl (fun a t => min a t.2) ((ts.head?.map (·.2)).getD 0)
  ((ts.map fun t => t.1 * ((2 ^ (t.2 - e).toNat : Nat) : Int)).sum, e)

/-- One output of a step: the chunk, and whether a sum left its range (R31, R101 to R103). -/
def outputChunk (geom : Nat) (hr : Nat) (eA eB : Option Int) (row : Array El) (tile : Array (Array El))
    (cubes : List (List (Nat × Nat × Nat))) : Chunk × Bool :=
  let bits : Int := if geom = 2 then 38 else 18
  let lim : Int := if geom = 2 then 2 ^ 39 else 2 ^ 19
  let pairs := cubes.map fun cb => cb.map fun t => ((row[t.1]?).getD El.zero |>.v, (elAt tile t.2.1 t.2.2).v)
  let side := pairs.foldl (fun a cb => cb.foldl (fun a p => a ||| sideOf p.1 p.2) a) (0 : BitVec 4)
  match eA, eB with
  | some a, some b =>
    let u := a + b + hr - bits
    let r := pairs.foldl (fun (acc : Int × Bool × Bool) cb =>
      let t := dotExact cb
      let q := roundGrid t.1 t.2 u
      let part := acc.1 + q.1
      let out := q.1 < -lim || lim ≤ q.1 || part < -lim || lim ≤ part
      (part, acc.2.1 || q.2, acc.2.2 || out)) (0, false, false)
    ({ q := r.1, unit := u, side := side, inexact := r.2.1 }, r.2.2)
  | _, _ => ({ q := 0, unit := 0, side := side, inexact := false }, false)

/-- Chunks of a step, and whether it overflows. -/
structure StepResult where
  chunks : List (List Chunk)
  overflow : Bool
  gated : Nat
  flushed : Bool
deriving DecidableEq, Repr

/-- A step through the array at headroom `hr` (R31 to R35, R54 to R56, R99 to R106). -/
def stepResult (t : Tile) (tile : Array (Array El)) (area : List Byte) (orient subn zgate : Bool) (hr : Nat)
    (a : List (List (Nat × Nat))) : StepResult :=
  let g := t.geom.toNat
  let f := geomFmt g
  let rows := a.map fun r => (r.map fun x => elem f subn x.2 x.1).toArray
  let nout := if orient then 32 else geomN g
  let maxB := if orient then t.rowMax else t.colMax
  let cubes := (List.range nout).map fun j => cubeTerms g orient area j
  let outs := rows.map fun row =>
    let eA := maxExps row.toList
    cubes.zipIdx.map fun x => outputChunk g hr eA ((maxB[x.2]?).join) row tile x.1
  let w := if g = 1 then 8 else if g = 2 && orient then 2 else 4
  let zeroA := (List.range 8).map fun b => rows.all fun row => (List.range w).all fun i => ((row[b * w + i]?).getD El.zero).isZero
  let gated := ((List.range 64).filter fun i =>
    ((zeroA[if orient then i % 8 else i / 8]?).getD true) || bitOf t.zeroMap.toNat i).length
  { chunks := outs.map fun r => r.map (·.1), overflow := outs.any fun r => r.any (·.2), gated := if zgate then gated else 0
    flushed := t.flushed || rows.any fun row => row.toList.any (·.flushed) }

/-- Change the started descriptor with a number. -/
def UnitQ.modActive (q : UnitQ) (id : Nat) (f : Active → Active) : UnitQ :=
  { q with active := q.active.map fun a => if a.entry.id = id then f a else a }

/-- The first row a step writes. -/
def stepRow0 (d : Desc) (i : Nat) : Nat := sRow0 d + i * geomRows (sGeom d)

/-- The feeder holds a step of `n` rows from `row0`: an earlier one that writes any of these rows is uncommitted (R109), a replay is due within the window of R107 or
needs another tile in the array (R42), or the replay window is full (R46). -/
def Engine.holdsEntry (x : Engine) (g : GroupId) (row0 n : Nat) : Bool :=
  x.flight.any (fun f => f.group == g && f.row0 < row0 + n && row0 < f.row0 + f.a.length)
    || x.flight.any (fun f => f.overflow && f.id + 19 < x.nextStep)
    || x.restore != .none || x.restoreDue || 24 ≤ x.flight.length

/-- The Cupola ranges that an ACC operation writes, as offset and length (R119 to R121, Table TIL-7). -/
def accWrites (d : Desc) : List (Nat × Nat) :=
  let size := ((fmtOf (aFmt d)).getD .fp32).size
  match aOp d with
  | 4 => (List.range (aRows d)).flatMap fun i =>
      (aAddr d + i * aPitch d, size * aCols d) :: if aAmax d then [(aAmaxAddr d + 4 * i, 4)] else []
  | 6 => (List.range 64).map fun i => (aAddr d + i * aPitch d, 128)
  | 7 => [(aAddr d, 16)]
  | _ => []

/-- The Cupola ranges that an ACC operation reads. -/
def accReads (d : Desc) : List (Nat × Nat) :=
  match aOp d with
  | 1 => (List.range 64).map fun i => (aAddr d + i * aPitch d, 32 * ((fmtOf (aFmt d)).getD .fp32).size)
  | 4 => (if aScaleSrc d = 2 then [(aScale d, 128)] else []) ++ if aBias d then [(aBiasAddr d, 128)] else []
  | _ => []

/-- Two lists of ranges meet. -/
def rangeListsMeet (xs ys : List (Nat × Nat)) : Bool :=
  xs.any fun x => ys.any fun y => decide (x.1 < y.1 + y.2 ∧ y.1 < x.1 + x.2)

/-- A started ACC that has not completed. -/
def Active.openAcc (a : Active) : Bool := isKind .acc a.entry.bits && !a.null && a.progress != .done

/-- The started descriptors ahead of number `id`. -/
def UnitQ.ahead (q : UnitQ) (id : Nat) : List Active := q.active.takeWhile fun a => a.entry.id != id

/-- The Cupola ranges that the A rows `rows` of a STREAM are read from. -/
def streamReads (d : Desc) (rows : List Nat) : List (Nat × Nat) :=
  rows.flatMap fun m => (List.range (sK d)).flatMap fun k => match aAddrOf d m k with
    | some (a, sa) => (a, ((fmtOf (sFmt d)).getD .fp16).size) :: if sMode d = 0 then [] else [(sa, 1)]
    | none => []

/-- A step must observe the Cupola writes of the descriptors ahead of its STREAM in the queue (R171): one of them is still to write what the
step's rows are read from. -/
def UnitQ.writesAhead (q : UnitQ) (a : Active) (rows : List Nat) : Bool :=
  let w := ((q.ahead a.entry.id).filter Active.openAcc).flatMap fun b => accWrites b.entry.bits
  !w.isEmpty && rangeListsMeet (streamReads a.entry.bits rows) w

/-- The bytes of an A-feed entry and of its scales, as this model lays them out (log entry 25). -/
def feedImage (geom : Nat) (rows : List (List AElem)) (mode : Nat) : Marked × Marked :=
  let f := geomFmt geom
  let nb := if geom = 1 then 4 else 2
  (rows.flatMap fun r => spell f.size (r.map fun x => (x.bits, x.poison)),
   rows.flatMap fun r => (List.range nb).map fun b => match r[b * blockLen mode]? with
     | some x => (BitVec.ofNat 8 x.scale, x.poison)
     | none => (0x7F, false))

/-- A step enters the feeder and passes through the array to its overflow check (R57): it reads A, forms its chunks, and an
overflowed step waits for its replay with ACCR set (R106). Rows of the A-feed entry beyond M keep the bytes they held, where the array takes +0 for
them (R48; DESIGN CHOICE, log entry 25). -/
def State.stepEntry (s : State) (c : CoreId) (e : EngId) : State :=
  let k := s.core c
  let x := k.eng[e]
  match x.q.feeding, x.array with
  | some a, some ar =>
      let d := a.entry.bits
      let row0 := stepRow0 d a.steps
      let t := ar.tile
      let n := min (geomRows (sGeom d)) (sM d - a.steps * geomRows (sGeom d))
      if !k.live || !x.q.goesOn || x.holdsEntry (sGroup d) row0 n
        || x.q.writesAhead a ((List.range n).map fun i => a.steps * geomRows (sGeom d) + i) then s
      else
        let r := (List.range n).foldl (fun (acc : State × List (List AElem) × List Nat × Option Nat) i =>
          let y := acc.1.readARow c d (a.steps * geomRows (sGeom d) + i)
          (y.1, acc.2.1 ++ [y.2.1], acc.2.2.1 ++ y.2.2.1, acc.2.2.2.orElse fun _ => y.2.2.2)) (s, [], [], none)
        let rows := r.2.1
        let img := feedImage (sGeom d) rows (sMode d)
        let pos := if sGeom d = 1 then (x.feedPos + x.feedPos % 2) % 256 else x.feedPos % 256
        let s := ((r.1.logBounds c (.eng e) a.boundsLogged r.2.2.1).storeP (feedBase c e pos) img.1).storeP (feedScaleBase c e pos) img.2
        let plain := rows.map fun row => row.map fun y => (y.bits, y.scale)
        let res := stepResult t ar.els ar.area (sOrient d) a.entry.subn a.entry.zgate (sHr d) plain
        let st : FlightStep :=
          { id := x.nextStep, slot := ar.slot, group := sGroup d, row0 := row0, a := plain, orient := sOrient d, subn := a.entry.subn
            zgate := a.entry.zgate, flushed := res.flushed
            poisoned := t.poisoned || rows.any fun row => row.any (·.poison), poisonAt := r.2.2.2.getD 0
            overflow := res.overflow, chunks := if res.overflow then [] else res.chunks, desc := a.entry.id }
        let s := s.modEng c e fun x =>
          { x with
            q := x.q.modActive a.entry.id fun y => { y with steps := y.steps + 1, boundsLogged := y.boundsLogged || !r.2.2.1.isEmpty }
            flight := x.flight ++ [st], nextStep := x.nextStep + 1, feedPos := (pos + if sGeom d = 1 then 2 else 1) % 256
            orient := sOrient d, stepCount := x.stepCount + 1, zgateCount := x.zgateCount + BitVec.ofNat 64 res.gated
            flags := if res.overflow then x.flags ||| fACCR else x.flags
            replayCount := if res.overflow then satAdd x.replayCount 1 else x.replayCount }
        if res.overflow then s.modGroup c e (sGroup d) fun g => { g with replayed := satAdd g.replayed 1 } else s
  | _, _ => s

/-- The old tile comes back from its slot for the replay of a step that used it (R42): the install of the later tile stops, its slot is staged and not yet
installed again, and it goes first when the replays are served. -/
def State.restoreTile (s : State) (c : CoreId) (e : EngId) (slot : Fin 16) : State :=
  let x := s.eng c e
  match x.slots[slot] with
  | none => s
  | some t =>
    let y := s.copyTile c e slot t
    (y.1.modEng c e fun z =>
      { z with
        array := some y.2, toInstall := x.installed.toList ++ z.toInstall, restore := .restoring
        installCk := z.installCk + (Config.stoppedCk s.free).setWidth 64
        slots := match x.installed with
          | some i => upd z.slots i fun t => t.map fun t => { t with installed := false }
          | none => z.slots }).takeFree

/-- A step is replayed at HR = 6 with the tile in the array (R107). Its gated cubes count in ENG_ZGATE_COUNT again, for the replay is a pass of the step
through the cubes (DESIGN CHOICE, log entry 122). -/
def State.replayStep (s : State) (c : CoreId) (e : EngId) (ar : ArrayTile) (st : FlightStep) : State :=
  let res := stepResult ar.tile ar.els ar.area st.orient st.subn st.zgate 6 st.a
  s.modEng c e fun x =>
    { x with
      flight := x.flight.map fun f => if f.id = st.id then { f with overflow := false, chunks := res.chunks, flushed := res.flushed } else f
      zgateCount := x.zgateCount + BitVec.ofNat 64 res.gated
      restore := if x.restore = .none then .none else .restored }

/-- The oldest overflowed step is served (R107, R108): it is replayed when its tile stands in the array, and otherwise that tile is restored first
(R42). -/
def State.stepReplay (s : State) (c : CoreId) (e : EngId) : State :=
  let x := s.eng c e
  match x.flight.find? (·.overflow), x.array with
  | some st, some ar =>
    if !(s.core c).live then s
    else if ar.slot = st.slot then s.replayStep c e ar st
    else s.restoreTile c e st.slot
  | _, _ => s

/-! ### Promotion (R111, R113, Table NUM-7) -/

/-- A chunk's value as FP32 with its flags (Table NUM-7). -/
def chunkValue (subn : Bool) (x : Chunk) : Nat × Flags :=
  if x.side &&& 8 != 0 || x.side &&& 3 == 3 then (0x7FC00000, fNV)
  else if x.side &&& 4 != 0 then (0x7FC00000, 0)
  else if x.side &&& 1 != 0 then (0x7F800000, 0)
  else if x.side &&& 2 != 0 then (0xFF800000, 0)
  else if x.q = 0 then (0, 0)
  else roundTo .fp32 .rne 0 false subn (exactly (x.q < 0) x.q.natAbs x.unit)

/-- A chunk added to a group value (R90), with NX where a cube rounded it; a NaN result suppresses OF, UF and NX (R93). -/
def promoteOne (subn : Bool) (g : Nat) (x : Chunk) : Nat × Flags :=
  let v := chunkValue subn x
  let r := fAdd .fp32 subn g v.1
  let fl := v.2 ||| r.2 ||| if x.inexact then fNX else 0
  (r.1, if (decodeF .fp32 r.1).isNan then fl &&& ~~~(fOF ||| fUF ||| fNX) else fl)

/-- Raise flags of an engine. -/
def State.engFlags (s : State) (c : CoreId) (e : EngId) (f : Flags) : State := s.modEng c e fun x => { x with flags := x.flags ||| f }

/-- Promote one row of chunks into row `r` of a group: the state, the flags, and the first poisoned group word consumed. -/
def State.promoteRow (s : State) (c : CoreId) (e : EngId) (g : GroupId) (r : Nat) (subn poisoned : Bool) (xs : List Chunk) :
    State × Flags × Option Nat :=
  let a := groupBase c e g + r * 128
  let (s, old) := s.readP a (4 * xs.length)
  let vs := ((elements 4 xs.length old).zip xs).map fun p => (promoteOne subn p.1.1 p.2, p.1.2)
  let fl := joinFlags (vs.map fun v => v.1.2)
  (s.storeP a (spell 4 (vs.map fun v => (v.1.1, v.2 || poisoned))), fl, firstMark a old)

/-- The step at the head of the commit stage: the first that is not awaiting a replay (R109). -/
def Engine.toPromote (x : Engine) : Option FlightStep := x.flight.find? fun f => !f.overflow

/-- One more term in a band, and whether it passes the length limit (R113). -/
def Group.term (g : Group) (band : Fin 32) : Group × Bool :=
  if 65536 ≤ g.bands[band] then (g, true) else ({ g with bands := upd g.bands band (· + 1) }, false)

/-- Rows per band of a tile geometry. -/
def bandRows (geom : Nat) : Nat := geomRows geom

/-- The length limit passed: LEN, and 0x501 once per opening (R113). -/
def State.lengthPassed (s : State) (c : CoreId) (e : EngId) (g : GroupId) : State :=
  let i : FaultInfo := { cls := .corrected, code := 0x501, block := 1, inst := c.val * 4 + e.val, pkey := none, detail := g.val, address := 0 }
  let s := s.engFlags c e fLEN
  if (s.group c e g).len then s.countOnly i else (s.modGroup c e g fun x => { x with len := true }).log i

/-- A committed step is promoted into its group: values, flags, marks, the band's count, and the STREAM completes with its last step
(R111, R113, R447, R67). Each step counts in the band its own height gives it, also in a group that takes dense and FP32 steps (DESIGN CHOICE, log entry 123). -/
def State.promote (s : State) (c : CoreId) (e : EngId) : State :=
  let x := s.eng c e
  match x.toPromote with
  | none => s
  | some st =>
    if !(s.core c).live then s
    else
      let geom := match x.slots[st.slot] with
        | some t => t.geom.toNat
        | none => 0
      let r := st.chunks.zipIdx.foldl (fun (acc : State × Flags × Option Nat) row =>
        let y := acc.1.promoteRow c e st.group (st.row0 + row.2) st.subn st.poisoned row.1
        (y.1, acc.2.1 ||| y.2.1, acc.2.2.orElse fun _ => y.2.2)) (s, 0, none)
      let s := r.1
      let consumed := st.poisoned || r.2.2.isSome
      let a := x.q.active.find? fun a => a.entry.id = st.desc
      let fl := r.2.1 ||| (if st.flushed then fFLUSH else 0) ||| (if consumed then fPOISON else 0)
      let s := s.engFlags c e fl
      let s := match a with
        | some a => if consumed && !a.poisonLogged
            then s.logPoison c (.eng e) a.entry.off (if st.poisoned then st.poisonAt else r.2.2.getD 0) else s
        | none => s
      let t := (s.group c e st.group).term (Fin.ofNat 32 (st.row0 / bandRows geom))
      let s := s.modGroup c e st.group fun _ => { t.1 with promoted := satAdd t.1.promoted 1 }
      let s := if t.2 then s.lengthPassed c e st.group else s
      s.modEng c e fun x => Engine.freeSlots { x with
        flight := x.flight.filter fun f => f.id != st.id
        q := x.q.modActive st.desc fun a => { a with
          promoted := a.promoted + 1, poisonLogged := a.poisonLogged || consumed
          progress := if a.promoted + 1 = sSteps a.entry.bits then .done else a.progress } }

/-! ### The meanings -/

/-- LOADB_STAGING (R37). -/
def execLoadbStaging (c : CoreId) (e : EngId) (s : State) : Out := ev s fun s => s.stage c e
/-- TILE_INSTALL (R39). -/
def execTileInstall (c : CoreId) (e : EngId) (s : State) : Out := ev s fun s => s.install c e
/-- STEP_ENTRY (R57). -/
def execStepEntry (c : CoreId) (e : EngId) (s : State) : Out := ev s fun s => s.stepEntry c e
/-- STEP_REPLAY (R107). -/
def execStepReplay (c : CoreId) (e : EngId) (s : State) : Out := ev s fun s => s.stepReplay c e
/-- PROMOTION (R111). -/
def execPromotion (c : CoreId) (e : EngId) (s : State) : Out := ev s fun s => s.promote c e

end Sys2Proof.Machine
end

