-- ==== Sys2Proof/Machine/Acc.lean ====
section
/-! DEFINITION. Accumulation groups (04): the ACC operations in their engine, the epilogue of CLOSE, the status record, and the two
ends of a chain. -/

namespace Sys2Proof.Machine

/-- An earlier open descriptor of engine `e` whose writes the ACC operation `d` has to observe, or whose Cupola reads it must not overtake (R171): its Cupola
ranges meet those of `d`, or it writes the group that an OPEN_GROUP copies. -/
def accObserves (e : EngId) (d b : Desc) : Bool :=
  (isKind .acc b && (rangeListsMeet (accReads d ++ accWrites d) (accWrites b) || rangeListsMeet (accWrites d) (accReads b)))
    || (aOp d == 2 && aSrcEng d == e && ((isKind .stream b && sGroup b == aSrcGrp d) || (isKind .acc b && aOp b != 7 && aGroup b == aSrcGrp d)))

/-- The started ACC of operation `op` that may start now (R118, R171): every earlier step of its group is promoted, every earlier ACC of its group has
completed but for STATUS, and nothing it has to observe is still to come. -/
def readyAcc (e : EngId) (op : Nat) : List Active → List Active → Option Active
  | _, [] => none
  | before, a :: r =>
    let d := a.entry.bits
    let blocks := fun b : Active => b.progress != .done && !b.null &&
      ((isKind .stream b.entry.bits && sGroup b.entry.bits == aGroup d)
        || (op != 7 && isKind .acc b.entry.bits && aGroup b.entry.bits == aGroup d) || accObserves e d b.entry.bits)
    if isKind .acc d && aOp d == op && a.progress == .started && !before.any blocks then some a
    else readyAcc e op (before ++ [a]) r

/-- Perform an ACC operation in engine `e`: `legal` is the group state it needs, and `f` its effect; another state refuses it
(R117). -/
def State.performAcc (s : State) (c : CoreId) (e : EngId) (op : Nat) (legal : GState → Bool) (f : State → Active → State) : State :=
  let x := s.eng c e
  if !(s.core c).live || x.q.freeze.isSome then s
  else match readyAcc e op [] x.q.active with
    | none => s
    | some a =>
      if legal (s.group c e (aGroup a.entry.bits)).state then f s a
      else (s.modQ c (.eng e) fun q => q.modActive a.entry.id fun y => { y with progress := .failed }).refuse c (.eng e) a.entry.off

/-- Set the progress of a started descriptor of a unit. -/
def State.setProgress (s : State) (c : CoreId) (u : UnitId) (id : Nat) (p : Progress) : State :=
  s.modQ c u fun q => q.modActive id fun a => { a with progress := p }

/-- A group opens with its counters at 0, every band at 0 or, seeded, at 1 (R113, R121). -/
def Group.opened (g : Group) (seeded : Bool) : Group :=
  { g with state := .opened, bands := Vector.replicate 32 (b2n seeded), len := false, seeded := seeded, promoted := 0, replayed := 0
           arrived := 0, wait := none }

/-- Zero a group's values and marks (R116). -/
def State.zeroGroup (s : State) (c : CoreId) (e : EngId) (g : GroupId) : State := s.setMem (s.mem.clear (groupBase c e g) 0x2000)

/-- OPEN_ZERO. -/
def State.openZero (s : State) (c : CoreId) (e : EngId) (a : Active) : State :=
  let g := aGroup a.entry.bits
  ((s.zeroGroup c e g).modGroup c e g fun x => x.opened false).setProgress c (.eng e) a.entry.id .done

/-- OPEN_CUPOLA: the tile is widened exactly and its marks follow it (R116, R75). -/
def State.openCupola (s : State) (c : CoreId) (e : EngId) (a : Active) : State :=
  let d := a.entry.bits
  let g := aGroup d
  let src := (fmtOf (aFmt d)).getD .fp32
  let (s, rows, outs) := s.readRows c ((List.range 64).map fun r => (aAddr d + r * aPitch d, 32 * src.size))
  let s := rows.zipIdx.foldl (fun s r =>
    s.storeP (groupBase c e g + r.2 * 128) (spell 4 ((elements src.size 32 r.1).map fun v => (widen32 src v.1, v.2)))) s
  ((s.logBounds c (.eng e) false outs).modGroup c e g fun x => x.opened true).setProgress c (.eng e) a.entry.id .done

/-- OPEN_GROUP: the source as of its latest committed promotion, with its marks. -/
def State.openGroup (s : State) (c : CoreId) (e : EngId) (a : Active) : State :=
  let d := a.entry.bits
  let g := aGroup d
  let (s, data) := s.readP (groupBase c (aSrcEng d) (aSrcGrp d)) 0x2000
  ((s.storeP (groupBase c e g) data).modGroup c e g fun x => x.opened true).setProgress c (.eng e) a.entry.id .done

/-- OPEN_CHAIN enters WAIT_CHAIN, and the receive wait begins (R123, R250). The counters start from 0 at the opening that follows, so until then STATUS shows
those of the group's last life (DESIGN CHOICE, log entry 116). -/
def State.openChain (s : State) (c : CoreId) (e : EngId) (a : Active) : State :=
  let g := aGroup a.entry.bits
  let w := s.newWait .chainRecv 0 16 a.entry.off 0
  (s.modGroup c e g fun x => { x with state := .waitChain, arrived := 0, wait := some w }).setProgress c (.eng e) a.entry.id .busy

/-- The number 1.0 in FP32. -/
def one32 : Nat := 0x3F800000

/-- One value through the epilogue (R119): v2, the output, and the flags. A scale of exactly 1.0 and an absent bias are steps not
performed. A NaN v2 suppresses OF, UF and NX of every step of its element (R93; DEDUCED, log entry 124). -/
def epilogue (d : Desc) (subn : Bool) (v scale : Nat) (bias : Option Nat) : Nat × Nat × Flags :=
  let (v1, f1) := if scale = one32 then (v, 0) else fMul .fp32 subn v scale
  let (v2, f2) := match bias with
    | none => (v1, 0)
    | some b => fAdd .fp32 subn v1 b
  let dst := (fmtOf (aFmt d)).getD .fp32
  let (o, f3) := if dst = .fp32 then (v2, 0) else convert .fp32 dst ((rmodeOf (aRm d)).getD .rne) 0 (aSat d) subn 127 v2
  let fl := f1 ||| f2
  (v2, o, (if (decodeF .fp32 v2).isNan then fl &&& ~~~(fOF ||| fUF ||| fNX) else fl) ||| f3)

/-- The largest |v2| of a row, NaNs ignored; the canonical NaN when all are NaNs (R120). Finding it sets no flag of its own, a signalling or subnormal v2
included (DESIGN CHOICE, log entry 125). -/
def amaxOf (vs : List Nat) : Nat :=
  let m := (vs.map fun v => v % 0x80000000).filter fun v => v ≤ 0x7F800000
  match m with
  | [] => 0x7FC00000
  | x :: r => r.foldl max x

/-- The scales of the 32 columns with their marks (Table TIL-7). -/
def State.closeScales (s : State) (c : CoreId) (d : Desc) : State × List (Nat × Bool) × List Nat :=
  match aScaleSrc d with
  | 2 =>
    let r := s.cupRead c (aScale d) 128
    (r.1, elements 4 32 r.2, (pastEnd (aScale d) 128).toList)
  | 1 => (s, List.replicate 32 (aScale d, false), [])
  | _ => (s, List.replicate 32 (one32, false), [])

/-- The biases of the 32 columns, where they are named. -/
def State.closeBias (s : State) (c : CoreId) (d : Desc) : State × Option (List (Nat × Bool)) × List Nat :=
  if aBias d then
    let r := s.cupRead c (aBiasAddr d) 128
    (r.1, some (elements 4 32 r.2), (pastEnd (aBiasAddr d) 128).toList)
  else (s, none, [])

/-- What CLOSE has done so far: the state, the flags raised, the first poisoned word consumed, and the accesses past Cupola's
end. -/
structure CloseAcc where
  s : State
  flags : Flags
  first : Option Nat
  outs : List Nat

/-- CLOSE of one row: the outputs and the AMAX word are written (R119, R120). -/
def closeRow (c : CoreId) (e : EngId) (d : Desc) (subn : Bool) (scales : List (Nat × Bool)) (bias : Option (List (Nat × Bool)))
    (z : CloseAcc) (i : Nat) : CloseAcc :=
  let base := groupBase c e (aGroup d) + i * 128
  let (s, old) := z.s.readP base (4 * aCols d)
  let cells := (elements 4 (aCols d) old).zipIdx.map fun v =>
    let sc := (scales[v.2]?).getD (one32, false)
    let b := bias.map fun l => (l[v.2]?).getD (0, false)
    let r := epilogue d subn v.1.1 sc.1 (b.map (·.1))
    let hot := if v.1.2 then some ((base + 4 * v.2) / 8 * 8)
      else if sc.2 && sc.1 != one32 then some ((coreBase c + aScale d + 4 * v.2) / 8 * 8)
      else match b with
        | some (_, true) => some ((coreBase c + aBiasAddr d + 4 * v.2) / 8 * 8)
        | _ => none
    (r, hot)
  let dst := (fmtOf (aFmt d)).getD .fp32
  let off := aAddr d + i * aPitch d
  let out := spell dst.size (cells.map fun x => (x.1.2.1, x.2.isSome))
  let s := s.cupWrite c off out
  let row := cells.any (·.2.isSome)
  let (s, outs) := if aAmax d then
      (s.cupWrite c (aAmaxAddr d + 4 * i) (spell 4 [(amaxOf (cells.map (·.1.1)), row)]), (pastEnd (aAmaxAddr d + 4 * i) 4).toList)
    else (s, [])
  { s := s, flags := cells.foldl (fun f x => f ||| x.1.2.2) z.flags
    first := z.first.orElse fun _ => cells.findSome? (·.2)
    outs := z.outs ++ (pastEnd off (dst.size * aCols d)).toList ++ outs }

/-- CLOSE starts: the group is CLOSING while its epilogue reads it (Table ACC-3). -/
def State.closeBegins (s : State) (c : CoreId) (e : EngId) (a : Active) : State :=
  (s.modGroup c e (aGroup a.entry.bits) fun g => { g with state := .closing }).setProgress c (.eng e) a.entry.id .epilogue

/-- CLOSE ends: the epilogue to Cupola, then CLOSED (R119, R120, R397). -/
def State.closeGroup (s : State) (c : CoreId) (e : EngId) (a : Active) : State :=
  let d := a.entry.bits
  let (s, scales, o1) := s.closeScales c d
  let (s, bias, o2) := s.closeBias c d
  let z := (List.range (aRows d)).foldl (closeRow c e d a.entry.subn scales bias) { s := s, flags := 0, first := none, outs := o1 ++ o2 }
  let s := z.s.logBounds c (.eng e) false z.outs
  let s := match z.first with
    | some w => (s.engFlags c e fPOISON).logPoison c (.eng e) a.entry.off w
    | none => s
  ((s.engFlags c e z.flags).modGroup c e (aGroup d) fun g => { g with state := .closed }).setProgress c (.eng e) a.entry.id .done

/-- CLOSE_CHAIN begins: the group is CLOSING and its 16 packets wait to be sent (R122, R124). -/
def State.closeChain (s : State) (c : CoreId) (e : EngId) (a : Active) : State :=
  let w := s.newWait .chainSend 0 16 a.entry.off 0
  (s.modGroup c e (aGroup a.entry.bits) fun g =>
    { g with state := .closing, sent := 0, accepted := 0, resend := 0, chainDesc := a.entry.id, failed := false, wait := some w }).setProgress c (.eng e) a.entry.id .busy

/-- SAVE: values and marks are copied to Cupola; the group stays OPEN. -/
def State.saveGroup (s : State) (c : CoreId) (e : EngId) (a : Active) : State :=
  let d := a.entry.bits
  let r := (List.range 64).foldl (fun (acc : State × List Nat) i =>
    let x := acc.1.readP (groupBase c e (aGroup d) + i * 128) 128
    (x.1.cupWrite c (aAddr d + i * aPitch d) x.2, acc.2 ++ (pastEnd (aAddr d + i * aPitch d) 128).toList)) (s, [])
  (r.1.logBounds c (.eng e) false r.2).setProgress c (.eng e) a.entry.id .done

/-- The state code of Table ACC-5. -/
def GState.code : GState → Nat
  | .closed => 0
  | .opened => 1
  | .waitChain => 2
  | .closing => 3

/-- The largest m of a group's bands. -/
def Group.most (g : Group) : Nat := g.bands.toList.foldl max 0

/-- The status record (Table ACC-5); `poisoned` says that a word of the group carries a mark. -/
def statusRecord (g : Group) (poisoned : Bool) : List Byte :=
  leBytes (min (g.most - 1) 0xFFFF + 65536 * b2n (g.most == 0) + 131072 * b2n g.len + 262144 * g.state.code
      + 1048576 * b2n g.seeded + 2097152 * b2n poisoned) 4
    ++ leBytes g.promoted.toNat 4 ++ leBytes g.replayed.toNat 4 ++ leBytes 0 4

/-- STATUS: the record of the group as it stands (R121). -/
def State.statusGroup (s : State) (c : CoreId) (e : EngId) (a : Active) : State :=
  let d := a.entry.bits
  let rec_ := statusRecord (s.group c e (aGroup d)) (s.mem.poisoned (groupBase c e (aGroup d)) 0x2000)
  ((s.cupWrite c (aAddr d) (rec_.map fun b => (b, false))).logBounds c (.eng e) false
    (pastEnd (aAddr d) 16).toList).setProgress c (.eng e) a.entry.id .done

/-- All 16 row blocks have arrived: the group opens seeded with CHUNKS = 0 and its OPEN_CHAIN completes (R123). -/
def State.chainOpens (s : State) (c : CoreId) (e : EngId) (g : GroupId) : State :=
  let done := fun a : Active => if isKind .acc a.entry.bits ∧ aOp a.entry.bits = 3 ∧ aGroup a.entry.bits = g ∧ a.progress = .busy
    then { a with progress := .done } else a
  (s.modGroup c e g fun x => x.opened true).modQ c (.eng e) fun q => { q with active := q.active.map done }

/-- All 16 packets are accepted: the group is CLOSED and its CLOSE_CHAIN completes (R123). -/
def State.chainSent (s : State) (c : CoreId) (e : EngId) (g : GroupId) : State :=
  let done := fun a : Active => if isKind .acc a.entry.bits ∧ aOp a.entry.bits = 5 ∧ aGroup a.entry.bits = g ∧ a.progress = .busy
    then { a with progress := .done } else a
  (s.modGroup c e g fun x => { x with state := .closed, wait := none }).modQ c (.eng e) fun q => { q with active := q.active.map done }

/-! ### The meanings -/

/-- CLOSE in its engine: the one that has begun ends, unless a freeze suspends it (Table FLT-5); otherwise the next one begins. -/
def State.performClose (s : State) (c : CoreId) (e : EngId) : State :=
  let q := (s.eng c e).q
  match q.active.find? fun a => a.progress == .epilogue with
  | some a => if (s.core c).live && q.goesOn then s.closeGroup c e a else s
  | none => s.performAcc c e 4 (· == .opened) fun s a => s.closeBegins c e a

/-- An ACC operation's dispatch, or its performance in an engine. -/
def State.accRow (s : State) (c : CoreId) (act : AccAct) (op : Nat) (legal : GState → Bool)
    (f : State → CoreId → EngId → Active → State) : State :=
  match act with
  | .dispatch => s.dispatchQueued c (isAcc op)
  | .perform e => s.performAcc c e op legal fun s a => f s c e a

/-- OPEN_ZERO (R116). -/
def execOpenZero (c : CoreId) (a : AccAct) (s : State) : Out := ev s fun s => s.accRow c a 0 (· == .closed) State.openZero
/-- OPEN_CUPOLA (R116). -/
def execOpenCupola (c : CoreId) (a : AccAct) (s : State) : Out := ev s fun s => s.accRow c a 1 (· == .closed) State.openCupola
/-- OPEN_GROUP (R116). -/
def execOpenGroup (c : CoreId) (a : AccAct) (s : State) : Out := ev s fun s => s.accRow c a 2 (· == .closed) State.openGroup
/-- OPEN_CHAIN (R123). -/
def execOpenChain (c : CoreId) (a : AccAct) (s : State) : Out := ev s fun s => s.accRow c a 3 (· == .closed) State.openChain
/-- CLOSE (R119). -/
def execClose (c : CoreId) (a : AccAct) (s : State) : Out := ev s fun s =>
  match a with
  | .dispatch => s.dispatchQueued c (isAcc 4)
  | .perform e => s.performClose c e
/-- CLOSE_CHAIN (R122). -/
def execCloseChain (c : CoreId) (a : AccAct) (s : State) : Out := ev s fun s => s.accRow c a 5 (· == .opened) State.closeChain
/-- SAVE (R116). -/
def execSave (c : CoreId) (a : AccAct) (s : State) : Out := ev s fun s => s.accRow c a 6 (· == .opened) State.saveGroup
/-- STATUS (R121). -/
def execStatus (c : CoreId) (a : AccAct) (s : State) : Out := ev s fun s => s.accRow c a 7 (fun _ => true) State.statusGroup

end Sys2Proof.Machine
end

