-- ==== Sys2Proof/Machine/Crypto.lean ====
section
/-! DEFINITION. The algorithms R420 names and does not describe: SHA-384 and the ECDSA verification over P-384, as FIPS 180-4 and
FIPS 186-5 give them (PRESUMED, log entry 30). All values are plain numbers, evaluated at each step by `withVal`. -/

namespace Sys2Proof.Machine

/-- Continue with the evaluated number. -/
def withVal {α : Type} (x : Nat) (k : Nat → α) : α :=
  match x with
  | 0 => k 0
  | n + 1 => k (n + 1)

/-- The number a big-endian byte list spells. -/
def beNat (bs : List Byte) : Nat := bs.foldl (fun n b => n * 256 + b.toNat) 0

/-! ### SHA-384 -/

/-- Rotation of a 64-bit number to the right. -/
def ror64 (x n : Nat) : Nat := ((x >>> n) ||| (x <<< (64 - n))) % 2 ^ 64

/-- The largest number whose `e`-th power does not pass `m`, found from bit `i` down. -/
def rootFloor (e m : Nat) : Nat → Nat → Nat
  | 0, r => r
  | i + 1, r => withVal (if (r + 2 ^ i) ^ e ≤ m then r + 2 ^ i else r) fun r => rootFloor e m i r

/-- The primes below 410, the 80 that SHA-384's constants come from: no divisor from 2 to 20 but itself. -/
def shaPrimes : List Nat :=
  ((List.range 408).map fun n => n + 2).filter fun n => (List.range 19).all fun d => n % (d + 2) != 0 || n == d + 2

/-- The first 64 bits of the fraction of the `e`-th root of each number, packed: word `i` lies at bit 64 `i`. -/
def shaRoots (e : Nat) (ns : List Nat) : Nat :=
  ns.foldr (fun n acc => withVal acc fun acc => acc <<< 64 + rootFloor e (n <<< (64 * e)) 69 0 % 2 ^ 64) 0

/-- The 80 round constants come from cube roots. -/
def shaK : Nat := shaRoots 3 shaPrimes

/-- The initial value comes from the square roots of the ninth to the sixteenth prime. -/
def shaInit : Nat := shaRoots 2 ((shaPrimes.drop 8).take 8)

/-- One round on the packed working variables and the packed window of 16 message words; both are returned. -/
def shaRound (k st win : Nat) (go : Nat → Nat → Nat) : Nat :=
  let w := field win 0 64
  let w1 := field win 64 64
  let w14 := field win 896 64
  let a := field st 0 64
  let e := field st 256 64
  withVal (field st 448 64 + ((ror64 e 14 ^^^ ror64 e 18) ^^^ ror64 e 41) + ((e &&& field st 320 64) ^^^ ((2 ^ 64 - 1 - e) &&& field st 384 64)) + k + w)
    fun t1 =>
  withVal (((ror64 a 28 ^^^ ror64 a 34) ^^^ ror64 a 39)
      + (((a &&& field st 64 64) ^^^ (a &&& field st 128 64)) ^^^ (field st 64 64 &&& field st 128 64))) fun t2 =>
  withVal ((t1 + t2) % 2 ^ 64 + (st % 2 ^ 192) <<< 64 + ((field st 192 64 + t1) % 2 ^ 64) <<< 256 + (field st 256 192) <<< 320) fun st' =>
  withVal (win >>> 64 + ((((ror64 w14 19 ^^^ ror64 w14 61) ^^^ (w14 >>> 6)) + field win 576 64
      + ((ror64 w1 1 ^^^ ror64 w1 8) ^^^ (w1 >>> 7)) + w) % 2 ^ 64) <<< 960) fun win' => go st' win'

/-- The last `n` rounds of one block, `ks` holding their constants. -/
def shaRounds : Nat → Nat → Nat → Nat → Nat
  | 0, _, st, _ => st
  | n + 1, ks, st, win => shaRound (field ks 0 64) st win fun st win => withVal (ks >>> 64) fun ks => shaRounds n ks st win

/-- The sum of two packed values, word by word. -/
def addWords (x y : Nat) : Nat := ((List.range 8).map fun i => ((field x (64 * i) 64 + field y (64 * i) 64) % 2 ^ 64) <<< (64 * i)).sum

/-- The message words of a block of 128 bytes, packed. -/
def shaBlock (bs : List Byte) : Nat := ((List.range 16).map fun i => (beNat ((bs.drop (8 * i)).take 8)) <<< (64 * i)).sum

/-- Hash `n` blocks, `ks` being the round constants. -/
def shaBlocks (ks : Nat) : Nat → List Byte → Nat → Nat
  | 0, _, st => st
  | n + 1, bs, st =>
    withVal (shaBlock (bs.take 128)) fun win => withVal (addWords st (shaRounds 80 ks st win)) fun next => shaBlocks ks n (bs.drop 128) next

/-- SHA-384 of a byte string, as a number (the digest's byte 0 is the most significant). -/
def sha384 (bs : List Byte) : Nat :=
  let n := (bs.length + 17 + 127) / 128
  let padded := bs ++ 0x80 :: List.replicate (128 * n - bs.length - 17) 0 ++ (leBytes (8 * bs.length) 16).reverse
  withVal shaK fun ks => withVal (shaBlocks ks n padded shaInit) fun st => ((List.range 6).map fun i => (field st (64 * i) 64) <<< (320 - 64 * i)).sum

/-! ### ECDSA over P-384 -/

/-- The field prime. -/
def ecP : Nat := 2 ^ 384 - 2 ^ 128 - 2 ^ 96 + 2 ^ 32 - 1
/-- The order of the base point. -/
def ecN : Nat := 0xffffffffffffffffffffffffffffffffffffffffffffffffc7634d81f4372ddf581a0db248b0a77aecec196accc52973
/-- The curve's constant. -/
def ecB : Nat := 0xb3312fa7e23ee7e4988e056be3f82d19181d9c6efe8141120314088f5013875ac656398d8a2ed19d2a85c8edd3ec2aef
/-- The base point, x. -/
def ecGx : Nat := 0xaa87ca22be8b05378eb1c71ef320ad746e1d3b628ba79b9859f741e082542a385502f25dbf55296c3a545e3872760ab7
/-- The base point, y. -/
def ecGy : Nat := 0x3617de4a96262c6f5d9e98bf9292dc29f8f41dbd289a147ce9da3113b5f0b8c00a60b1ce1d7e819d7a431d7c90ea0e5f

/-- A power modulo `m`, from the exponent's highest bit down. -/
def powMod (b e m : Nat) : Nat → Nat → Nat
  | 0, acc => acc
  | i + 1, acc => withVal (if bitOf e i then acc * acc % m * b % m else acc * acc % m) fun acc => powMod b e m i acc

/-- The inverse modulo a prime above 2^383. -/
def invMod (x m : Nat) : Nat := powMod x (m - 2) m 384 1

/-- Subtraction modulo the field prime. -/
def subP (a b : Nat) : Nat := (a + ecP - b % ecP) % ecP

/-- A point in Jacobian coordinates, packed as x + y 2^384 + z 2^768; z = 0 is the point at infinity. -/
def packPt (x y z : Nat) : Nat := x + y <<< 384 + z <<< 768

/-- Doubling. -/
def dblPt (t : Nat) : Nat :=
  withVal (field t 0 384) fun x => withVal (field t 384 384) fun y => withVal (field t 768 384) fun z =>
  withVal (z * z % ecP) fun d => withVal (y * y % ecP) fun g => withVal (x * g % ecP) fun b =>
  withVal (3 * subP x d * (x + d) % ecP) fun a =>
  withVal (subP (a * a) (8 * b)) fun x3 =>
  withVal (subP (a * subP (4 * b) x3) (8 * g * g)) fun y3 => packPt x3 y3 (2 * y * z % ecP)

/-- Addition of an affine point (qx, qy). -/
def addPt (t qx qy : Nat) : Nat :=
  withVal (field t 0 384) fun x => withVal (field t 384 384) fun y => withVal (field t 768 384) fun z =>
  if z = 0 then packPt qx qy 1
  else withVal (z * z % ecP) fun zz => withVal (subP (qx * zz) x) fun h => withVal (subP (qy * z % ecP * zz) y) fun r =>
    if h = 0 then (if r = 0 then dblPt t else packPt 1 1 0)
    else withVal (h * h % ecP) fun hh => withVal (h * hh % ecP) fun hhh => withVal (x * hh % ecP) fun v =>
      withVal (subP (r * r) (hhh + 2 * v)) fun x3 => withVal (subP (r * subP v x3) (y * hhh)) fun y3 => packPt x3 y3 (z * h % ecP)

/-- u1 G + u2 Q, from the highest bit down. -/
def mulPt (u1 u2 qx qy : Nat) : Nat → Nat → Nat
  | 0, t => t
  | i + 1, t =>
    withVal (dblPt t) fun t => withVal (if bitOf u1 i then addPt t ecGx ecGy else t) fun t =>
    withVal (if bitOf u2 i then addPt t qx qy else t) fun t => mulPt u1 u2 qx qy i t

/-- (qx, qy) is a point of the curve. -/
def onCurve (qx qy : Nat) : Bool := decide (qx < ecP ∧ qy < ecP) && (qy * qy % ecP == subP (qx * qx % ecP * qx + ecB) (3 * qx))

/-- The signature (r, s) of a digest verifies against the key (qx, qy). -/
def ecdsaOk (qx qy digest r s : Nat) : Bool :=
  onCurve qx qy && decide (0 < r ∧ r < ecN ∧ 0 < s ∧ s < ecN) &&
    withVal (invMod s ecN) fun w => withVal (digest * w % ecN) fun u1 => withVal (r * w % ecN) fun u2 =>
    withVal (mulPt u1 u2 qx qy 384 (packPt 1 1 0)) fun t => withVal (field t 768 384) fun z =>
      z != 0 && (withVal (invMod z ecP) fun zi => field t 0 384 * (zi * zi % ecP) % ecP % ecN == r)

end Sys2Proof.Machine
end

