-- ==== Sys2Proof/Machine/Units.lean ====
section
/-! DEFINITION. How a queued descriptor starts at the head of its queue, retires, and how waits are tested again and expire
(R168, R169, R247 to R252). -/

namespace Sys2Proof.Machine

/-! ### Starting (R168, R145, R144, R192) -/

/-- The descriptor at the head of a queue is refused: it stays there, marked, until UNFREEZE discards it (Table FLT-5). -/
def State.refuseHead (s : State) (c : CoreId) (u : UnitId) (en : QEntry) : State :=
  (s.modQ c u fun q => { q.mark en.id .refused with wait := none }).refuse c u en.off

/-- A descriptor leaves its queue, returning the queue credit (R166). -/
def UnitQ.leave (q : UnitQ) (en : QEntry) (null : Bool) (p : Progress) : UnitQ :=
  { q with
    queue := q.queue.filter fun x => x.id != en.id
    wait := none
    active := q.active ++ [{ entry := en, progress := p, null := null, steps := 0, promoted := 0, poisonLogged := false, boundsLogged := false }] }

/-- Data held early for a queued descriptor. -/
def PrefetchData.isFor (b : PrefetchData) (en : QEntry) : Bool := b.forId == some en.id

/-- The data held early for a descriptor is dropped, with the READs still to be sent for it (R190). -/
def Mover.discard (m : Mover) (en : QEntry) : Mover :=
  let ids := (m.buffer.filter fun b => b.isFor en).map (·.id)
  { m with buffer := m.buffer.filter fun b => !b.isFor en, work := m.work.filter fun w => !(w.spec && ids.contains w.desc) }

/-- A skipped descriptor becomes a null entry (R144). -/
def State.startNull (s : State) (c : CoreId) (u : UnitId) (en : QEntry) : State :=
  let s := s.modQ c u fun q => q.leave en true .done
  if u = .mover then s.modMov c fun m => m.discard en else s

/-- A LOADB at the head: one whose staging has ended has completed (Table TIL-4), also in a frozen engine, and its tile is installed in its turn; a skipped one
becomes a null entry. -/
def State.startLoadb (s : State) (c : CoreId) (e : EngId) (en : QEntry) : State :=
  match en.taken with
  | .staged slot => s.modEng c e fun x => { x with q := x.q.leave en false .done, toInstall := x.toInstall ++ [slot] }
  | .skipped => if (s.eng c e).q.freeze.isSome then s else s.startNull c (.eng e) en
  | _ => s

/-- A STREAM may start: no install is due, the feeder is free, its group neither waits for a chain nor sends one, no earlier ACC of its
group is open, and no replay of an earlier tile is due (R36, R115, R118, R42). -/
def Engine.streamFree (x : Engine) (d : Desc) : Bool :=
  let g := sGroup d
  let st := (x.groups[g]).state
  x.toInstall.isEmpty && x.q.feeding.isNone && st != .waitChain && st != .closing
    && !(x.q.active.any fun a => a.progress != .done && isKind .acc a.entry.bits && aGroup a.entry.bits == g)
    && !x.restoreDue

/-- A STREAM that the installed tile refuses (Table ENG-7). -/
def Engine.streamUnfit (x : Engine) (d : Desc) : Bool :=
  match x.array with
  | none => true
  | some a => a.tile.geom.toNat != sGeom d || (sOrient d && a.tile.geom == 1)

/-- A STREAM starts, opening a closed group zeroed (R115). -/
def State.startStream (s : State) (c : CoreId) (e : EngId) (en : QEntry) : State :=
  let g := sGroup en.bits
  if !(s.eng c e).streamFree en.bits then s
  else if (s.eng c e).streamUnfit en.bits then s.refuseHead c (.eng e) en
  else
    let s := if (s.group c e g).state = .closed then (s.zeroGroup c e g).modGroup c e g fun x => x.opened false else s
    s.modQ c (.eng e) fun q => q.leave en false .started

/-- A descriptor that is to run leaves its queue when its performer can start it. The vector engine and the mover perform one
descriptor at a time. -/
def State.startRun (s : State) (c : CoreId) (u : UnitId) (en : QEntry) : State :=
  match u with
  | .eng e => if isKind .stream en.bits then s.startStream c e en else s.modQ c u fun q => q.leave en false .started
  | _ => if ((s.core c).unitQ u).active.all fun a => a.progress == .done then s.modQ c u fun q => q.leave en false .started else s

/-- The head of a queue: its header wait is tested, then its predicate is read, and it starts, is skipped, or is refused. -/
def State.startHead (s : State) (c : CoreId) (u : UnitId) : State :=
  let k := s.core c
  let q := k.unitQ u
  match q.queue with
  | [] => s
  | en :: _ =>
    let d := en.bits
    if !k.live then s
    else match u, isKind .loadb d with
      | .eng e, true => s.startLoadb c e en
      | _, _ =>
        if q.freeze.isSome then s
        else if en.runs.isNone ∧ s.cntMet c (dWaitCnt d) (dWaitThresh d) = false then
          if q.wait.isSome then s
          else s.modQ c u fun q => { q with wait := some (s.newWait .header (dWaitCnt d) (dWaitThresh d) en.off 0) }
        else
          let runs := en.runs.getD (!en.maskSkip && k.predRuns d)
          let s := s.modQ c u fun q => { q.decide en.id runs with wait := none }
          if en.taken = .malformed ∨ predOk (dPred d) = false ∨ (runs = true ∧ descBad en.inSegment d = true) then s.refuseHead c u en
          else if runs then s.startRun c u en
          else s.startNull c u en

/-- The header wait of the sequencer's next descriptor is met (R168). -/
def State.seqHeaderMet (s : State) (c : CoreId) : State :=
  let k := s.core c
  match k.seq.wait with
  | some w =>
    if k.live && k.seq.freeze.isNone && w.kind == .header && s.cntMet c w.counter.toNat w.thresh.toNat
    then s.seqMet c else s
  | none => s

/-! ### Retiring (R169) -/

/-- The oldest started descriptor of a performer retires once it has completed: its completion signal, the tracker entry, the
counts. -/
def State.retireUnit (s : State) (c : CoreId) (u : UnitId) : State :=
  match ((s.core c).unitQ u).active with
  | [] => s
  | a :: r =>
    if a.progress = .done then
      let d := a.entry.bits
      let s := s.modQ c u fun q => { q with active := r }
      let s := if dSigEn d then s.cntOp c (Fin.ofNat 64 (dSigCnt d)) (.add 1) else s
      s.modSeq c fun q => { q with retired := q.retired + 1, skipped := if a.null then satAdd q.skipped 1 else q.skipped }
    else s

/-- Retire at a unit; the sequencer's own waiting descriptors are tried again. -/
def State.retire (s : State) (c : CoreId) (u : UnitId) : State :=
  match u with
  | .seq => s.retireSeq c
  | u => s.retireUnit c u

/-! ### Waits tested again (R247) -/

/-- The sequencer, woken, tests its wait again. -/
def State.retestSeq (s : State) (c : CoreId) : State :=
  let k := s.core c
  match k.seq.wait with
  | none => s
  | some w =>
    if !w.woken || k.seq.freeze.isSome || !k.live then s
    else if s.cntMet c w.counter.toNat w.thresh.toNat = false then
      s.modSeq c fun q => { q with wait := some { w with woken := false } }
    else if w.kind = .header then s.seqMet c
    else
      let s := s.modSeq c fun q => { q with wait := none }
      match s.nextDesc c with
      | some n => s.waitDone c n.d
      | none => s

/-- A performer, woken, tests its header wait again, and starts its head when it is met. -/
def State.retestHead (s : State) (c : CoreId) (u : UnitId) : State :=
  let k := s.core c
  match (k.unitQ u).wait with
  | none => s
  | some w =>
    if !w.woken || (k.unitQ u).freeze.isSome || !k.live then s
    else
      let s := s.modQ c u fun q => { q with wait := some { w with woken := false } }
      if s.cntMet c w.counter.toNat w.thresh.toNat then s.startHead c u else s

/-- An engine, woken, tests the header wait of the LOADB to be staged again (R37). -/
def State.retestStage (s : State) (c : CoreId) (e : EngId) : State :=
  let x := s.eng c e
  match x.stageWait with
  | none => s
  | some w =>
    if !w.woken || x.q.freeze.isSome || !(s.core c).live then s
    else
      let s := s.modEng c e fun x => { x with stageWait := some { w with woken := false } }
      if s.cntMet c w.counter.toNat w.thresh.toNat then s.stage c e else s

/-- A woken unit tests its wait again. -/
def State.retest (s : State) (c : CoreId) (u : UnitId) : State :=
  match u with
  | .seq => s.retestSeq c
  | .eng e => (s.retestHead c (.eng e)).retestStage c e
  | u => s.retestHead c u

/-! ### Timeouts (R250 to R252) -/

/-- ADDRESS of a wait's 0x601 record (R251). -/
def Wait.address (w : Wait) (g : Option GroupId) : Nat :=
  match g with
  | some g => 64 + g.val
  | none => w.counter.toNat

/-- A wait may expire: its unit is not frozen, its core is not asleep, and it is not met. -/
def State.mayExpire (s : State) (c : CoreId) (u : UnitId) (w : Wait) : Bool :=
  let k := s.core c
  (s.frozen c u).isNone && k.cstate == .c0
    && ((w.kind != .waitDesc && w.kind != .header) || !s.cntMet c w.counter.toNat w.thresh.toNat)

/-- A wait's timeout expires: 0x601, and its unit is frozen. `f` marks the wait. -/
def State.expire (s : State) (c : CoreId) (u : UnitId) (g : Option GroupId) (w : Wait) (f : State → State) : State :=
  if !s.mayExpire c u w then s
  else
    let s := s.advanceTo (s.now + (w.timeout - w.elapsed))
    let src := unitSource c u
    f ((s.log { cls := .contained, code := 0x601, block := src.1, inst := src.2, pkey := none, detail := w.desc
                address := w.address g }).freezeUnit c u .waitTimeout false (some w.desc))

/-- A wait marked expired. -/
def Wait.lapse (w : Wait) : Wait := { w with expired := true }

/-- The header wait of an engine that expires first, and whether it is that of the LOADB to be staged. -/
def Engine.firstWait (x : Engine) : Option (Wait × Bool) :=
  match x.q.wait, x.stageWait with
  | some w, some v => some (if v.timeout - v.elapsed < w.timeout - w.elapsed then (v, true) else (w, false))
  | some w, none => some (w, false)
  | none, some v => some (v, true)
  | none, none => none

/-- WAIT_TIMEOUT: of a chain wait of an engine's group, the sequencer's wait, a performer's header wait, or the wait of the LOADB to be
staged. -/
def State.waitTimeout (s : State) (c : CoreId) (u : UnitId) (g : Option GroupId) : State :=
  match u, g with
  | .eng e, some g => match (s.group c e g).wait with
    | some w => s.expire c u (some g) w fun s => s.modGroup c e g fun x => { x with wait := x.wait.map Wait.lapse }
    | none => s
  | .eng e, none => match (s.eng c e).firstWait with
    | some (w, false) => s.expire c u none w fun s => s.modQ c u fun q => { q with wait := q.wait.map Wait.lapse }
    | some (w, true) => s.expire c u none w fun s => s.modEng c e fun x => { x with stageWait := x.stageWait.map Wait.lapse }
    | none => s
  | .seq, none => match (s.core c).seq.wait with
    | some w => s.expire c u none w fun s => s.modSeq c fun q => { q with wait := q.wait.map Wait.lapse }
    | none => s
  | u, none => match ((s.core c).unitQ u).wait with
    | some w => s.expire c u none w fun s => s.modQ c u fun q => { q with wait := q.wait.map Wait.lapse }
    | none => s
  | _, some _ => s

/-- A failed CLOSE_CHAIN whose packets are all answered returns its group to OPEN (R124). -/
def State.chainSettles (s : State) (c : CoreId) (e : EngId) : State :=
  let k := s.core c
  let busy := fun g : GroupId =>
    (k.outst.any fun o => o.unit.toNat == e.val && o.desc == ((k.eng[e].groups[g]).chainDesc))
    || s.spire.nocQ.any fun p => p.srcCore.toNat == c.val && p.srcUnit.toNat == e.val && p.tag.toNat == g.val
  s.modEng c e fun x => { x with groups := Vector.ofFn fun g : GroupId =>
    let y := x.groups[g]
    if y.state == .closing && y.failed && !busy g then { y with state := .opened, wait := none, failed := false } else y }

/-- The operation with descriptor number `id` of a unit ends failed: its unsent packets are dropped, its other entries no longer
log (R252), and a chain returns its group to OPEN in time (R124). -/
def State.failOp (s : State) (c : CoreId) (u : UnitId) (id : Nat) : State :=
  let s := s.modCore c fun k => { k with
    outst := k.outst.map fun o => if o.unit.toNat = unitNum u ∧ o.desc = id ∧ o.spec = false ∧ o.pkt.opcode ≠ 0x20 then { o with failed := true } else o }
  let s := s.modQ c u fun q => q.modActive id fun a => if a.progress = .done then a else { a with progress := .failed }
  match u with
  | .mover => s.modMov c fun m => { m with work := m.work.filter fun w => w.spec || w.kind == .fence || w.desc != id }
  | .eng e =>
    match ((s.eng c e).q.active.find? fun a => a.entry.id == id) with
    | some a => (s.modGroup c e (aGroup a.entry.bits) fun g => { g with failed := true, resend := 0 }).chainSettles c e
    | none => s
  | _ => s

/-- The operation an outstanding entry belongs to ends failed; for a FENCE_MARK that is the FENCE, whose other marks no longer log (R252). -/
def State.failEntry (s : State) (c : CoreId) (u : UnitId) (o : Outst) : State :=
  if o.pkt.opcode = 0x20 then
    (s.modCore c fun k => { k with outst := k.outst.map fun x => if x.pkt.opcode = 0x20 ∧ x.desc = o.desc then { x with failed := true } else x }).modSeq c fun q =>
      { q with fencing := q.fencing.map fun f => if f.entry.id = o.desc then { f with failed := true } else f }
  else s.failOp c u o.desc

/-- An answer wait that froze its unit stays known to WAIT_GRAPH (R255). -/
def State.noteAnswer (s : State) (c : CoreId) (u : UnitId) (o : Outst) : State :=
  s.modQ c u fun q => { q with freeze := q.freeze.map fun f => if f.cause = .answerTimeout ∧ f.answer = none then { f with answer := some (o.off, o.began) } else f }

/-- ANSWER_WAIT_TIMEOUT: the entry is freed, its operation ends failed, 0x601 is logged once per operation, the unit is frozen, and
the TAG rests for the default timeout (R252). A run-ahead read logs and freezes nothing (R190); its data is asked for again. -/
def State.answerTimeout (s : State) (c : CoreId) (u : UnitId) (tag : Nat) : State :=
  let k := s.core c
  match k.outst.find? fun o => o.unit.toNat == unitNum u && o.pkt.tag.toNat == tag with
  | none => s
  | some o =>
    if k.cstate = .c2 ∨ k.cstate = .c3 then s
    else
      let s := s.advanceTo (s.now + (o.timeout - o.elapsed))
      let s := s.modCore c fun k => { k with
        outst := k.outst.filter fun x => !(x.unit.toNat == unitNum u && x.pkt.tag.toNat == tag)
        deadTags := (tag, s.now + s.waitDefault) :: k.deadTags.filter fun x => x.1 != tag }
      if o.spec then s.modMov c fun m => { m with buffer := m.buffer.map fun b =>
        if b.id = o.desc then { b with refused := true, remaining := b.remaining - 1 } else b }
      else
        let src := unitSource c u
        let s := if o.failed then s
          else s.log { cls := .contained, code := 0x601, block := src.1, inst := src.2, pkey := none, detail := o.off, address := 128 + tag }
        ((s.failEntry c u o).freezeUnit c u .answerTimeout true (some o.off)).noteAnswer c u o

/-! ### The meanings -/

/-- HEADER_WAIT_MET (R168). -/
def execHeaderWaitMet (c : CoreId) (u : UnitId) (s : State) : Out := ev s fun s =>
  if u = .seq then s.seqHeaderMet c else s.startHead c u
/-- DESCRIPTOR_RETIRE (R169). -/
def execDescriptorRetire (c : CoreId) (u : UnitId) (s : State) : Out := ev s fun s => s.retire c u
/-- WAIT_RETEST (R247). -/
def execWaitRetest (c : CoreId) (u : UnitId) (s : State) : Out := ev s fun s => s.retest c u
/-- WAIT_TIMEOUT (R251). -/
def execWaitTimeout (c : CoreId) (u : UnitId) (g : Option GroupId) (s : State) : Out := ev s fun s => s.waitTimeout c u g
/-- ANSWER_WAIT_TIMEOUT (R252). -/
def execAnswerWaitTimeout (c : CoreId) (u : UnitId) (tag : Nat) (s : State) : Out := ev s fun s => s.answerTimeout c u tag

end Sys2Proof.Machine
end

