-- ==== Sys2Proof/Machine/Vector.lean ====
section
/-! DEFINITION. The vector engine (07): instruction fields and refusals (R197, R198, R212), lanes with their poison bits (R194),
and one meaning per opcode. -/

namespace Sys2Proof.Machine

/-! ### Instructions (Tables VEC-1, VEC-2) -/

/-- The fields of an instruction word. -/
structure VIns where
  op : Nat
  vd : Nat
  va : Nat
  vb : Nat
  vc : Nat
  fmt : Nat
  rm : Nat
  imm : Nat
deriving DecidableEq, Repr

/-- The fields of a 64-bit word (Table VEC-1). -/
def decodeIns (w : Nat) : VIns :=
  { op := field w 56 8, vd := field w 51 5, va := field w 46 5, vb := field w 41 5, vc := field w 36 5, fmt := field w 32 4
    rm := field w 28 4, imm := field w 0 28 }

/-- IMM as a signed number. -/
def VIns.simm (i : VIns) : Int := sext 28 i.imm

/-- What a register field names: nothing, a vector register, an address register, or the first of three vector registers. -/
inductive FieldUse where
  | off | vec | adr | tri
deriving DecidableEq, Repr

/-- The fields an opcode uses: vd, va, vb, vc, whether it uses IMM, and the formats it allows. -/
structure OpUse where
  vd : FieldUse
  va : FieldUse
  vb : FieldUse
  vc : FieldUse
  imm : Bool
  fmts : List Nat
deriving DecidableEq, Repr

/-- Table VEC-2; none for a reserved opcode. "Any" is FP32, FP16, E4M3 and E5M2 (R71 keeps BF16 to CVT). -/
def opUse (op : Nat) : Option OpUse :=
  match op with
  | 0x00 | 0x01 => some ⟨.off, .off, .off, .off, false, [0, 1, 2, 3]⟩
  | 0x02 => some ⟨.off, .adr, .off, .off, false, [0, 1, 2, 3]⟩
  | 0x03 | 0x04 => some ⟨.adr, .off, .off, .off, true, [0, 1, 2, 3]⟩
  | 0x05 => some ⟨.adr, .adr, .off, .off, true, [0, 1, 2, 3]⟩
  | 0x06 => some ⟨.off, .adr, .off, .off, true, [0, 1, 2, 3]⟩
  | 0x07 => some ⟨.vec, .adr, .off, .off, false, [0, 1]⟩
  | 0x10 | 0x11 => some ⟨.vec, .adr, .adr, .off, true, [0, 1, 2, 3]⟩
  | 0x12 | 0x13 => some ⟨.vec, .adr, .adr, .off, true, [0, 1]⟩
  | 0x20 | 0x21 | 0x22 | 0x24 | 0x25 | 0x30 | 0x31 | 0x32 | 0x33 => some ⟨.vec, .vec, .vec, .off, false, [0, 1]⟩
  | 0x23 | 0x34 => some ⟨.vec, .vec, .vec, .vec, false, [0, 1]⟩
  | 0x26 | 0x27 | 0x28 | 0x40 | 0x41 | 0x42 | 0x43 | 0x50 | 0x51 | 0x52 => some ⟨.vec, .vec, .off, .off, false, [0, 1]⟩
  | 0x53 => some ⟨.vec, .vec, .off, .vec, true, [0, 1]⟩
  | 0x54 => some ⟨.tri, .vec, .off, .off, true, [0, 1]⟩
  | 0x55 | 0x56 => some ⟨.tri, .tri, .off, .off, false, [0]⟩
  | 0x58 => some ⟨.vec, .vec, .vec, .off, true, [0, 1]⟩
  | 0x60 => some ⟨.vec, .vec, .vec, .off, true, [0, 1, 2, 3, 4]⟩
  | 0x61 => some ⟨.vec, .vec, .vec, .vec, true, [2, 3]⟩
  | _ => none

/-- A register field's value suits its use. -/
def FieldUse.fits (u : FieldUse) (n : Nat) : Bool :=
  match u with
  | .off => n == 0
  | .vec => true
  | .adr => n ≤ 15
  | .tri => n ≤ 29

/-- An instruction is refused for its fields alone (Table VEC-4, first row). -/
def VIns.fieldsBad (i : VIns) : Bool :=
  match opUse i.op with
  | none => true
  | some u => !(u.vd.fits i.vd && u.va.fits i.va && u.vb.fits i.vb && u.vc.fits i.vc)
      || (!u.imm && i.imm != 0) || !u.fmts.contains i.fmt
      || (if i.op = 0x60 ∨ i.op = 0x61 then 4 < i.rm else i.rm != 0)

/-- Two ranges of three registers overlap without being equal. -/
def triClash (a b : Nat) : Bool := a != b && a < b + 3 && b < a + 3

/-- IMM bits of a CVT or CVT.AMAX. -/
def VIns.src (i : VIns) : Nat := field i.imm 0 4
/-- SAT. -/
def VIns.sat (i : VIns) : Bool := bitOf i.imm 4
/-- SCL. -/
def VIns.scl (i : VIns) : Bool := bitOf i.imm 5
/-- Elements per block. -/
def VIns.blk (i : VIns) : Nat := if bitOf i.imm 6 then 32 else 16
/-- POS. -/
def VIns.pos (i : VIns) : Nat := field i.imm 7 2
/-- H of ACCSQ and WELFORD, and POS[7]: IMM bit 7. -/
def VIns.half (i : VIns) : Nat := field i.imm 7 1
/-- MODE of CVT.AMAX. -/
def VIns.mode (i : VIns) : Bool := bitOf i.imm 9

/-- The format of an instruction. -/
def VIns.fm (i : VIns) : Fmt := (fmtOf i.fmt).getD .fp32

/-- An FP32 instruction has 256 lanes of 4 bytes, the others 512 of 2 (R194, R196). -/
def VIns.lanes (i : VIns) : Nat := if i.fmt = 0 then 256 else 512
/-- Bytes per lane. -/
def VIns.size (i : VIns) : Nat := if i.fmt = 0 then 4 else 2

/-- A register-only instruction is refused for its operands (Table VEC-4, from the fourth row). -/
def VIns.operandsBad (i : VIns) : Bool :=
  match i.op with
  | 0x53 => i.vd == i.vc
  | 0x54 => i.vd ≤ i.va && i.va < i.vd + 3
  | 0x55 | 0x56 => triClash i.vd i.va
  | 0x58 =>
    let k := field i.imm 0 4
    let e := field i.imm 4 9
    k == 0 || 8 < k || e < k || e < 2 || 256 < e || i.vb == i.vd
  | 0x60 => 4 < i.src || (i.src == 4 && i.fmt != 0) || (i.fmt == 4 && i.src == 0 && i.scl)
      || (i.scl && !(i.fmt == 2 || i.fmt == 3)) || field i.imm 9 19 != 0 || (!i.scl && i.vb != 0)
  | 0x61 => i.scl || field i.imm 10 18 != 0 || i.vb == i.vc || i.vb == i.vd || i.vc == i.vd
      || (!i.mode && 3 < i.src)
  | _ => false

/-! ### Registers and lanes (R194) -/

/-- Vector register `n`. -/
def VecEngine.reg (v : VecEngine) (n : Nat) : VReg := v.v[Fin.ofNat 32 n]
/-- Address register `n`. -/
def VecEngine.adr (v : VecEngine) (n : Nat) : Nat := (v.a[Fin.ofNat 16 n]).toNat
/-- Write an address register. -/
def VecEngine.setAdr (v : VecEngine) (n : Nat) (x : Int) : VecEngine := { v with a := upd v.a (Fin.ofNat 16 n) fun _ => wrap32 x }

/-- Part `j` of `sz` bytes of a register. -/
def VReg.part (r : VReg) (sz j : Nat) : Nat := field (r.lane[Fin.ofNat 256 (j * sz / 4)]).toNat (8 * (j * sz % 4)) (8 * sz)
/-- The poison bit of the lane that holds part `j`. -/
def VReg.hot (r : VReg) (sz j : Nat) : Bool := r.poison[Fin.ofNat 256 (j * sz / 4)]

/-- A part written: its value and whether it is poisoned. -/
abbrev Part := Nat × Bool

/-- Write parts of `sz` bytes; none leaves a part as it was. A lane written in part keeps its poison (R194). -/
def VReg.blend (sz : Nat) (r : VReg) (f : Array (Option Part)) : VReg :=
  let at_ := fun i p => (f[i * (4 / sz) + p]?).join
  { lane := Vector.ofFn fun i : Fin 256 => BitVec.ofNat 32 (((List.range (4 / sz)).map fun p =>
      (match at_ i.val p with
        | some x => x.1
        | none => field (r.lane[i]).toNat (8 * sz * p) (8 * sz)) * 2 ^ (8 * sz * p)).sum)
    poison := Vector.ofFn fun i : Fin 256 => (List.range (4 / sz)).any fun p =>
      match at_ i.val p with
      | some x => x.2
      | none => r.poison[i] }

/-- The lanes below the effective length are active (R196). -/
def VecEngine.active (v : VecEngine) (n : Nat) : Nat := min v.vl.toNat n

/-! ### Fetch, refusal and completion (R199, R200, R212) -/

/-- The offset of the VEC descriptor that runs. -/
def VecEngine.desc (v : VecEngine) : Nat := ((v.q.active.find? fun a => a.progress == .busy).map (·.entry.off)).getD 0

/-- The instruction at `pc` is refused (R212). -/
def State.refuseIns (s : State) (c : CoreId) : State :=
  let v := (s.core c).vec
  let s := s.log { cls := .contained, code := 0x502, block := 2, inst := c.val, pkey := none, detail := v.pc, address := 0 }
  let s := s.freezeUnit c .vec .refusal true (some v.desc)
  s.modVec c fun v => { v with
    running := false, faultPc := BitVec.ofNat 23 v.pc
    q := { v.q with active := v.q.active.map fun a => if a.progress = .busy then { a with progress := .failed } else a } }

/-- The word at the program counter. -/
def State.insWord (s : State) (c : CoreId) : Nat := leNat (s.mem.load (coreBase c + (s.core c).vec.pc) 8)

/-- The vector engine issues the instruction at its program counter when its opcode is `op`: refused under Table VEC-4, or run by
`f` with the program counter moved on and the instruction counted. A reserved opcode, or a program counter outside Cupola, is
refused whatever the row. The instruction word is read through the error check (R235, R236). -/
def State.vecRow (s : State) (c : CoreId) (op : Nat) (bad : VecEngine → VIns → Bool) (f : VIns → State → State) : State :=
  let v := (s.core c).vec
  if !(s.core c).live || !v.running || v.q.freeze.isSome then s
  else if cupolaEnd ≤ v.pc then s.refuseIns c
  else
    let i := decodeIns (s.insWord c)
    if (opUse i.op).isNone then (s.demand (coreBase c + v.pc) 8).refuseIns c
    else if i.op ≠ op then s
    else
      let s := s.demand (coreBase c + v.pc) 8
      if i.fieldsBad || i.operandsBad || bad v i then s.refuseIns c
      else f i (s.modVec c fun v => { v with
        pc := v.pc + 8, lastPc := BitVec.ofNat 23 v.pc, instrCount := v.instrCount + 1 })

/-- An instruction that changes the vector engine alone. -/
def State.vecLocal (s : State) (c : CoreId) (op : Nat) (f : VIns → VecEngine → VecEngine) : State :=
  s.vecRow c op (fun _ _ => false) fun i s => s.modVec c (f i)

/-- What a computing instruction leaves: registers written, flags, whether it consumed poison, and the random sources. -/
structure VOut where
  regs : List (Nat × VReg)
  flags : Flags
  hot : Bool
  sr : Option (Vector Word 512)

/-- The poison flag and 0x103 once per descriptor (R203, R397). -/
def State.vecPoison (s : State) (c : CoreId) : State :=
  let v := (s.core c).vec
  let s := if v.q.active.any fun a => a.progress == .busy && !a.poisonLogged then s.logPoison c .vec v.desc 0 else s
  s.modVec c fun v => { v with
    flags := v.flags ||| fPOISON
    q := { v.q with active := v.q.active.map fun a => if a.progress = .busy then { a with poisonLogged := true } else a } }

/-- A computing instruction writes its registers and sets its flags (R214). -/
def State.vecCompute (s : State) (c : CoreId) (op : Nat) (f : VecEngine → VIns → VOut) : State :=
  s.vecRow c op (fun _ _ => false) fun i s =>
    let o := f (s.core c).vec i
    let s := s.modVec c fun v => { v with
      v := o.regs.foldl (fun r x => upd r (Fin.ofNat 32 x.1) fun _ => x.2) v.v
      flags := v.flags ||| o.flags
      sr := o.sr.getD v.sr }
    if o.hot then s.vecPoison c else s

/-! ### Lane-wise instructions -/

/-- One lane's result: its value, its flags, its poison. -/
structure LaneRes where
  v : Nat
  fl : Flags
  hot : Bool

/-- Gather lane results: the parts to write, the flags, and whether an active lane was poisoned. -/
def gatherLanes (rs : List (Option LaneRes)) : Array (Option Part) × Flags × Bool :=
  ((rs.map fun r => r.map fun x => (x.v, x.hot)).toArray,
   rs.foldl (fun f r => match r with
     | some x => f ||| x.fl
     | none => f) 0,
   rs.any fun r => match r with
     | some x => x.hot
     | none => false)

/-- A lane-wise instruction. -/
def lanewise (v : VecEngine) (i : VIns) (f : Nat → LaneRes) : VOut :=
  let rs := (List.range i.lanes).map fun j => if j < v.active i.lanes then some (f j) else none
  let g := gatherLanes rs
  { regs := [(i.vd, (v.reg i.vd).blend i.size g.1)], flags := g.2.1, hot := g.2.2, sr := none }

/-- A lane-wise move: it never sets POISON (R203). -/
def laneMove (v : VecEngine) (i : VIns) (f : Nat → Part) : VOut :=
  { lanewise v i (fun j => { v := (f j).1, fl := 0, hot := (f j).2 }) with hot := false }

/-- Lane `j` of a source register. -/
def VecEngine.src (v : VecEngine) (i : VIns) (n j : Nat) : Nat := (v.reg n).part i.size j
/-- The poison of lane `j` of a source register. -/
def VecEngine.srcHot (v : VecEngine) (i : VIns) (n j : Nat) : Bool := (v.reg n).hot i.size j

/-- A two-operand arithmetic instruction. -/
def vBin (f : Fmt → Bool → Nat → Nat → Nat × Flags) (v : VecEngine) (i : VIns) : VOut :=
  lanewise v i fun j =>
    let r := f i.fm v.subnNow (v.src i i.va j) (v.src i i.vb j)
    { v := r.1, fl := r.2, hot := v.srcHot i i.va j || v.srcHot i i.vb j }

/-- A one-operand arithmetic instruction. -/
def vUn (f : Fmt → Bool → Nat → Nat × Flags) (v : VecEngine) (i : VIns) : VOut :=
  lanewise v i fun j =>
    let r := f i.fm v.subnNow (v.src i i.va j)
    { v := r.1, fl := r.2, hot := v.srcHot i i.va j }

/-- FMA. -/
def vFma (v : VecEngine) (i : VIns) : VOut :=
  lanewise v i fun j =>
    let r := fFma i.fm v.subnNow (v.src i i.va j) (v.src i i.vb j) (v.src i i.vc j)
    { v := r.1, fl := r.2, hot := v.srcHot i i.va j || v.srcHot i i.vb j || v.srcHot i i.vc j }

/-- A comparison: all ones or 0. -/
def vCmp (k : Cmp) (v : VecEngine) (i : VIns) : VOut :=
  vBin (fun f subn a b => let r := fCmp k f subn a b; (if r.1 then 2 ^ (8 * f.size) - 1 else 0, r.2)) v i

/-- SEL: the chosen lane's value and mark. -/
def vSel (v : VecEngine) (i : VIns) : VOut :=
  laneMove v i fun j => if v.src i i.vc j ≠ 0 then (v.src i i.va j, v.srcHot i i.va j) else (v.src i i.vb j, v.srcHot i i.vb j)

/-- ABS, NEG and MOV. -/
def vMov (f : Fmt → Nat → Nat) (v : VecEngine) (i : VIns) : VOut :=
  laneMove v i fun j => (f i.fm (v.src i i.va j), v.srcHot i i.va j)

/-- SPLAT. -/
def vSplat (v : VecEngine) (i : VIns) : VOut := laneMove v i fun _ => (v.adr i.va % 2 ^ (8 * i.size), false)

/-- The sign bit inverted. -/
def flipSign (f : Fmt) (b : Nat) : Nat := if f.neg b then b - f.signBit else b + f.signBit

/-! ### Reductions and statistics (R204 to R206) -/

/-- One level of the pairwise tree. -/
def treeLevel {α : Type} (op : α → α → α × Flags) : List α → List α × Flags
  | a :: b :: r =>
    let x := op a b
    let y := treeLevel op r
    (x.1 :: y.1, x.2 ||| y.2)
  | l => (l, 0)

/-- The tree over `k` levels. -/
def treeFold {α : Type} (op : α → α → α × Flags) : Nat → List α → List α × Flags
  | 0, l => (l, 0)
  | k + 1, l =>
    let x := treeLevel op l
    let y := treeFold op k x.1
    (y.1, x.2 ||| y.2)

/-- A register of +0 but for part 0. -/
def firstOnly (sz : Nat) (x : Part) : VReg :=
  VReg.zero.blend sz ((some x) :: List.replicate (1024 / sz - 1) (some (0, false))).toArray

/-- RSUM, RMAX and RMIN (R204). -/
def vReduce (op : Fmt → Bool → Nat → Nat → Nat × Flags) (unit : Fmt → Nat) (v : VecEngine) (i : VIns) : VOut :=
  let n := v.active i.lanes
  let w := (List.range i.lanes).map fun j => if j < n then v.src i i.va j else unit i.fm
  let r := treeFold (op i.fm v.subnNow) 9 w
  let hot := (List.range n).any fun j => v.srcHot i i.va j
  { regs := [(i.vd, firstOnly i.size ((r.1.head?).getD 0, hot))], flags := r.2, hot := hot, sr := none }

/-- The x of ACCSQ and WELFORD in FP32 lane `j`, flushed and widened, with its flags and poison; none when inactive (R205, R85). -/
def statX (v : VecEngine) (i : VIns) (j : Nat) : Option LaneRes :=
  let l := if i.fmt = 0 then j else 256 * i.half + j
  if l < v.active i.lanes then
    let x := flushIn i.fm v.subnNow (v.src i i.va l)
    some { v := widen32 i.fm x.1, fl := x.2, hot := v.srcHot i i.va l }
  else none

/-- A NaN result carries no OF, UF or NX (R93). -/
def nanFix (r : Nat × Flags) : Nat × Flags := if (decodeF .fp32 r.1).isNan then (r.1, r.2 &&& ~~~(fOF ||| fUF ||| fNX)) else r

/-- ACCSQ (R205). -/
def vAccsq (v : VecEngine) (i : VIns) : VOut :=
  let rs := (List.range 256).map fun j => (statX v i j).map fun x =>
    let a := nanFix (fAdd .fp32 v.subnNow ((v.reg i.vd).part 4 j) x.v)
    let q := fMul .fp32 v.subnNow x.v x.v
    let b := fAdd .fp32 v.subnNow ((v.reg i.vc).part 4 j) q.1
    let b := nanFix (b.1, b.2 ||| q.2)
    ((a.1, x.hot || (v.reg i.vd).hot 4 j), (b.1, x.hot || (v.reg i.vc).hot 4 j), x.fl ||| a.2 ||| b.2)
  { regs := [(i.vd, (v.reg i.vd).blend 4 (rs.map fun r => r.map (·.1)).toArray),
             (i.vc, (v.reg i.vc).blend 4 (rs.map fun r => r.map (·.2.1)).toArray)]
    flags := rs.foldl (fun f r => match r with
      | some x => f ||| x.2.2
      | none => f) 0
    hot := rs.any fun r => match r with
      | some x => x.1.2 || x.2.1.2
      | none => false
    sr := none }

/-- The state held in lane `j` of registers `n` to `n` + 2, and its poison (R206). -/
def VecEngine.wstate (v : VecEngine) (n j : Nat) : WState × Bool :=
  (((v.reg n).part 4 j, (v.reg (n + 1)).part 4 j, (v.reg (n + 2)).part 4 j),
   (v.reg n).hot 4 j || (v.reg (n + 1)).hot 4 j || (v.reg (n + 2)).hot 4 j)

/-- Write states into lanes of registers `n` to `n` + 2. -/
def writeStates (v : VecEngine) (n : Nat) (rs : List (Option (WState × Bool × Flags))) : VOut :=
  let p := fun f : WState → Nat => (rs.map fun r => r.map fun x => (f x.1, x.2.1)).toArray
  { regs := [(n, (v.reg n).blend 4 (p fun w => w.1)), (n + 1, (v.reg (n + 1)).blend 4 (p fun w => w.2.1)),
             (n + 2, (v.reg (n + 2)).blend 4 (p fun w => w.2.2))]
    flags := rs.foldl (fun f r => match r with
      | some x => f ||| x.2.2
      | none => f) 0
    hot := rs.any fun r => match r with
      | some x => x.2.1
      | none => false
    sr := none }

/-- WELFORD: each active lane's state merges (1, x, +0). -/
def vWelford (v : VecEngine) (i : VIns) : VOut :=
  writeStates v i.vd ((List.range 256).map fun j => (statX v i j).map fun x =>
    let a := v.wstate i.vd j
    let r := wMerge v.subnNow a.1 (1, x.v, 0)
    (r.1, a.2 || x.hot, r.2 ||| x.fl))

/-- MERGE, lane by lane. -/
def vMerge (v : VecEngine) (i : VIns) : VOut :=
  writeStates v i.vd ((List.range 256).map fun j =>
    if j < v.active 256 then
      let a := v.wstate i.vd j
      let b := v.wstate i.va j
      let r := wMerge v.subnNow a.1 b.1
      some (r.1, a.2 || b.2, r.2)
    else none)

/-- RMERGE: the tree of R204 with MERGE. -/
def vRmerge (v : VecEngine) (i : VIns) : VOut :=
  let n := v.active 256
  let r := treeFold (wMerge v.subnNow) 8 ((List.range 256).map fun j => if j < n then (v.wstate i.va j).1 else (0, 0, 0))
  let w := (r.1.head?).getD (0, 0, 0)
  let hot := (List.range n).any fun j => (v.wstate i.va j).2
  { regs := [(i.vd, firstOnly 4 (w.1, hot)), (i.vd + 1, firstOnly 4 (w.2.1, hot)), (i.vd + 2, firstOnly 4 (w.2.2, hot))]
    flags := r.2, hot := hot, sr := none }

/-! ### TOPK (R147, R148, R207) -/

/-- A candidate: its place in the order of R95 (none: a NaN), its expert index, its bits. -/
structure Cand where
  key : Option Int
  idx : Nat
  bits : Nat
deriving DecidableEq, Repr

/-- Candidate `a` ranks before `b`. -/
def Cand.before (a b : Cand) : Bool :=
  match a.key, b.key with
  | some x, some y => x > y || (x == y && a.idx < b.idx)
  | some _, none => true
  | none, some _ => false
  | none, none => a.idx < b.idx

/-- Insert a candidate into a ranked list. -/
def Cand.insert (x : Cand) : List Cand → List Cand
  | [] => [x]
  | y :: r => if x.before y then x :: y :: r else y :: Cand.insert x r

/-- A ranked group: the candidates in order, the flags, whether a lane is poisoned. -/
structure Ranked where
  order : List Cand
  flags : Flags
  hot : Bool

/-- Rank group `g` of `e` lanes; inactive lanes are quiet NaNs. -/
def rankGroup (v : VecEngine) (i : VIns) (e g : Nat) : Ranked :=
  let cs := (List.range e).map fun j =>
    let l := g * e + j
    if l < v.active i.lanes then
      let b := v.src i i.va l
      let x := flushIn i.fm v.subnNow b
      let d := decodeF i.fm x.1
      (({ key := if d.isNan then none else some (orderKey i.fm x.1), idx := j, bits := b } : Cand), x.2 ||| (if d.isSig then fNV else 0))
    else ({ key := none, idx := j, bits := i.fm.nanBits }, 0)
  { order := cs.foldl (fun l x => x.1.insert l) [], flags := joinFlags (cs.map fun x => x.2)
    hot := (List.range e).any fun j => v.srcHot i i.va (g * e + j) }

/-- TOPK. -/
def vTopk (v : VecEngine) (i : VIns) : VOut :=
  let k := field i.imm 0 4
  let e := field i.imm 4 9
  let step := if bitOf i.imm 13 then k else e
  let n := i.lanes / e
  let gs := ((List.range n).map (rankGroup v i e)).toArray
  let ones := 2 ^ (8 * i.size) - 1
  let out := fun (l : Nat) =>
    match gs[l / step]? with
    | some g => (if l % step < k then g.order[l % step]? else none, g.hot)
    | none => (none, false)
  let vals := (List.range i.lanes).map fun l => let x := out l; some (((x.1.map (·.bits)).getD 0), x.2)
  let ids := (List.range i.lanes).map fun l => let x := out l; some (((x.1.map (·.idx)).getD ones), x.2)
  { regs := [(i.vd, VReg.zero.blend i.size vals.toArray), (i.vb, VReg.zero.blend i.size ids.toArray)]
    flags := gs.foldl (fun f g => f ||| g.flags) 0, hot := gs.any (·.hot), sr := none }

/-! ### Conversion (R208 to R210) -/

/-- The source format is E4M3 or E5M2. -/
def VIns.src8 (i : VIns) : Bool := i.src == 2 || i.src == 3
/-- Bytes of a source element. -/
def VIns.srcSize (i : VIns) : Nat := if i.src = 0 then 4 else if i.src8 then 1 else 2
/-- Elements a conversion has (Table VEC-3). -/
def VIns.convCount (i : VIns) : Nat := if i.src = 0 ∨ i.fmt = 0 then 256 else 512
/-- The source part of element `e`. Table VEC-3 places no FP8 source: its bytes lie as those of an FP8 destination of as many elements (DESIGN
CHOICE, log entry 34). -/
def VIns.srcPart (i : VIns) (e : Nat) : Nat :=
  if i.src8 then (if i.fmt = 0 then 256 * i.pos else 512 * i.half) + e
  else if i.src ≠ 0 ∧ i.fmt = 0 then 256 * i.half + e else e

/-- The format in which a source element is computed with: an FP8 one is widened to FP16 (R75). -/
def VIns.srcFmt (i : VIns) : Fmt := if i.src8 then .fp16 else (fmtOf i.src).getD .fp32
/-- Source element `e`, widened (R75). -/
def VecEngine.elem (v : VecEngine) (i : VIns) (e : Nat) : Nat :=
  let b := (v.reg i.va).part i.srcSize (i.srcPart e)
  if i.src8 then widen16 ((fmtOf i.src).getD .fp32) b else b
/-- The first destination part, in parts of the target's size. FP16 to BF16, which Table VEC-3 does not place, stays in its lanes. -/
def VIns.dstBase (i : VIns) : Nat :=
  if i.fmt = 0 then 0
  else if i.fmt = 2 ∨ i.fmt = 3 then (if i.src = 0 then 256 * i.pos else 512 * i.half)
  else if i.src = 0 then 256 * i.half else 0

/-- The draw of random source `j`: its new state and the 16 bits (R80). -/
def draw (st : Word) : Word × Nat :=
  let n := st * 0x0019660D + 0x3C6EF35F
  (n, n.toNat / 65536)

/-- The conversion of R208, in which widening FP8 to FP16 keeps a NaN (R75): the destination register's parts, flags and poison, and the random sources. `scaled` says that vb holds
block scales. -/
def convertReg (v : VecEngine) (i : VIns) (scaled : Bool) : VOut :=
  let mode := (rmodeOf i.rm).getD .rne
  let n := v.active i.convCount
  let rs := (List.range n).map fun e =>
    let b := e / i.blk
    let sc := if scaled then (v.reg i.vb).part 1 b else 127
    let r := if mode = .sr then (draw v.sr[Fin.ofNat 512 e]).2 else 0
    let x := if i.src8 && i.fm == .fp16 && (decodeF .fp16 (v.elem i e)).isNan then (v.elem i e, 0)
      else convert i.srcFmt i.fm mode r i.sat v.subnNow sc (v.elem i e)
    ({ v := x.1, fl := x.2, hot := (v.reg i.va).hot i.srcSize (i.srcPart e) || (scaled && (v.reg i.vb).hot 1 b) } : LaneRes)
  let g := gatherLanes (rs.map some)
  { regs := [(i.vd, (v.reg i.vd).blend i.fm.size ((List.replicate i.dstBase none).toArray ++ g.1))], flags := g.2.1, hot := g.2.2
    sr := if mode = .sr then some (Vector.ofFn fun j : Fin 512 => if j.val < n then (draw v.sr[j]).1 else v.sr[j]) else none }

/-- CVT. -/
def vCvt (v : VecEngine) (i : VIns) : VOut := convertReg v i i.scl

/-- A block's gathered maximum: the running maximum, its flags, its poison (R210). -/
def gatherBlock (v : VecEngine) (i : VIns) (n b : Nat) : LaneRes :=
  let src := i.srcFmt
  let es := (List.range i.blk).map (fun j => b * i.blk + j) |>.filter fun e => e < n
  es.foldl (fun (acc : LaneRes) e =>
    let x := flushIn src v.subnNow (v.elem i e)
    let hot := acc.hot || (v.reg i.va).hot i.srcSize (i.srcPart e)
    match decodeF src x.1 with
    | .fin _ _ _ =>
      let m := fMaxMin true .fp32 v.subnNow acc.v (widen32 src (src.mag x.1))
      { v := m.1, fl := acc.fl ||| (x.2 ||| m.2) &&& fFLUSH, hot := hot }
    | _ => { acc with hot := hot })
    { v := (v.reg i.vc).part 4 b, fl := 0, hot := (v.reg i.vc).hot 4 b }

/-- CVT.AMAX. -/
def vCvtAmax (v : VecEngine) (i : VIns) : VOut :=
  if i.mode then
    let rs := (List.range (v.active 256)).map fun j =>
      let x := flushIn .fp32 v.subnNow ((v.reg i.va).part 4 j)
      some ({ v := suggest i.fm x.1, fl := x.2, hot := (v.reg i.va).hot 4 j } : LaneRes)
    let g := gatherLanes rs
    { regs := [(i.vb, (v.reg i.vb).blend 1 g.1)], flags := g.2.1, hot := g.2.2, sr := none }
  else
    let n := v.active i.convCount
    let cv := convertReg v i false
    let bs := (List.range ((n + i.blk - 1) / i.blk)).map fun b => gatherBlock v i n b
    let g := gatherLanes (bs.map some)
    let sg := gatherLanes (bs.map fun x => some { x with v := suggest i.fm x.v })
    { regs := cv.regs ++ [(i.vc, (v.reg i.vc).blend 4 g.1), (i.vb, (v.reg i.vb).blend 1 sg.1)]
      flags := cv.flags ||| g.2.1, hot := cv.hot || g.2.2, sr := cv.sr }

/-! ### Loads and stores (R201 to R203) -/

/-- Bytes of a memory element. -/
def VIns.esize (i : VIns) : Nat := i.fm.size

/-- The offset of element `e`, modulo 2^32; `strided` for LDS and STS. -/
def elemOff (v : VecEngine) (i : VIns) (strided : Bool) (e : Nat) : Nat :=
  let per := 64 / i.esize
  let o := if strided then e * v.adr i.vb else e / per * v.adr i.vb + e % per * i.esize
  (wrap32 ((v.adr i.va : Int) + i.simm + o)).toNat

/-- An active element lies outside Cupola or is misaligned. -/
def memBad (strided : Bool) (v : VecEngine) (i : VIns) : Bool :=
  (List.range (v.active i.lanes)).any fun e =>
    let o := elemOff v i strided e
    cupolaEnd ≤ o || o % i.esize != 0

/-- Load the active elements in order; FP8 elements widen to FP16 lanes. -/
def State.vecLoad (s : State) (c : CoreId) (i : VIns) (strided : Bool) : State :=
  let v := (s.core c).vec
  let r := (List.range (v.active i.lanes)).foldl (fun (acc : State × List (Option Part)) e =>
    let x := acc.1.cupRead c (elemOff v i strided e) i.esize
    let b := leNat (bytesOf x.2)
    (x.1, some ((if i.esize = 1 then widen16 i.fm b else b), x.2.any (·.2)) :: acc.2)) (s, [])
  r.1.modVec c fun v => { v with v := upd v.v (Fin.ofNat 32 i.vd) fun g => g.blend i.size r.2.reverse.toArray }

/-- Elements `e` to `e + n - 1` of register vd as marked bytes (R203); FP8 elements are register bytes. -/
def vecBytes (v : VecEngine) (i : VIns) (e n : Nat) : Marked :=
  spell i.esize ((List.range' e n).map fun j => ((v.reg i.vd).part i.esize j, (v.reg i.vd).hot i.esize j))

/-- Store the active elements in order: element by element for STS (R202), row by row for ST (R201), whose rows write whole words
(R236). -/
def State.vecStore (s : State) (c : CoreId) (i : VIns) (strided : Bool) : State :=
  let v := (s.core c).vec
  let n := v.active i.lanes
  let per := if strided then 1 else 64 / i.esize
  (List.range ((n + per - 1) / per)).foldl (fun s r =>
    s.cupWrite c (elemOff v i strided (r * per)) (vecBytes v i (r * per) (min per (n - r * per)))) s

/-! ### The meanings -/

/-- NOP. -/
def execNop (c : CoreId) (s : State) : Out := ev s fun s => s.vecLocal c 0x00 fun _ v => v
/-- END completes the program and its VEC descriptor (R200). -/
def execEndProg (c : CoreId) (s : State) : Out := ev s fun s => s.vecLocal c 0x01 fun _ v => { v with
  running := false
  q := { v.q with active := v.q.active.map fun a => if a.progress = .busy then { a with progress := .done } else a } }
/-- SETVL. -/
def execSetvl (c : CoreId) (s : State) : Out := ev s fun s => s.vecLocal c 0x02 fun i v =>
  { v with vl := if v.adr i.va = 0 then 512 else BitVec.ofNat 10 (min (v.adr i.va) 512) }
/-- LIL. -/
def execLil (c : CoreId) (s : State) : Out := ev s fun s => s.vecLocal c 0x03 fun i v =>
  v.setAdr i.vd (v.adr i.vd / 65536 * 65536 + i.imm % 65536 : Nat)
/-- LIH. -/
def execLih (c : CoreId) (s : State) : Out := ev s fun s => s.vecLocal c 0x04 fun i v =>
  v.setAdr i.vd (v.adr i.vd % 65536 + i.imm % 65536 * 65536 : Nat)
/-- ADDA. -/
def execAdda (c : CoreId) (s : State) : Out := ev s fun s => s.vecLocal c 0x05 fun i v => v.setAdr i.vd ((v.adr i.va : Int) + i.simm)

/-- The target of a branch, relative to the branch itself. -/
def branchTo (pc : Nat) (i : VIns) : Int := (pc : Int) + 8 * i.simm

/-- BNZ; a target outside Cupola is refused when the branch is taken. -/
def execBnz (c : CoreId) (s : State) : Out := ev s fun s =>
  s.vecRow c 0x06 (fun v i => v.adr i.va != 0 && (branchTo v.pc i < 0 || (cupolaEnd : Int) ≤ branchTo v.pc i)) fun i s =>
    s.modVec c fun v =>
      if v.adr i.va = 0 then v
      else { v.setAdr i.va ((v.adr i.va : Int) - 1) with pc := (branchTo (v.pc - 8) i).toNat }

/-- SPLAT. -/
def execSplat (c : CoreId) (s : State) : Out := ev s fun s => s.vecCompute c 0x07 vSplat
/-- LD. -/
def execLd (c : CoreId) (s : State) : Out := ev s fun s => s.vecRow c 0x10 (memBad false) fun i s => s.vecLoad c i false
/-- ST stores register vd. -/
def execSt (c : CoreId) (s : State) : Out := ev s fun s => s.vecRow c 0x11 (memBad false) fun i s => s.vecStore c i false
/-- LDS. -/
def execLds (c : CoreId) (s : State) : Out := ev s fun s => s.vecRow c 0x12 (memBad true) fun i s => s.vecLoad c i true
/-- STS. -/
def execSts (c : CoreId) (s : State) : Out := ev s fun s => s.vecRow c 0x13 (memBad true) fun i s => s.vecStore c i true
/-- ADD. -/
def execAdd (c : CoreId) (s : State) : Out := ev s fun s => s.vecCompute c 0x20 (vBin fAdd)
/-- SUB. -/
def execSub (c : CoreId) (s : State) : Out := ev s fun s => s.vecCompute c 0x21 (vBin fSub)
/-- MUL. -/
def execMul (c : CoreId) (s : State) : Out := ev s fun s => s.vecCompute c 0x22 (vBin fMul)
/-- FMA. -/
def execFma (c : CoreId) (s : State) : Out := ev s fun s => s.vecCompute c 0x23 vFma
/-- MAX (R94). -/
def execMax (c : CoreId) (s : State) : Out := ev s fun s => s.vecCompute c 0x24 (vBin (fMaxMin true))
/-- MIN (R94). -/
def execMin (c : CoreId) (s : State) : Out := ev s fun s => s.vecCompute c 0x25 (vBin (fMaxMin false))
/-- ABS. -/
def execAbs (c : CoreId) (s : State) : Out := ev s fun s => s.vecCompute c 0x26 (vMov Fmt.mag)
/-- NEG. -/
def execNeg (c : CoreId) (s : State) : Out := ev s fun s => s.vecCompute c 0x27 (vMov flipSign)
/-- MOV. -/
def execMov (c : CoreId) (s : State) : Out := ev s fun s => s.vecCompute c 0x28 (vMov fun _ b => b)
/-- CMPEQ. -/
def execCmpeq (c : CoreId) (s : State) : Out := ev s fun s => s.vecCompute c 0x30 (vCmp .eq)
/-- CMPNE. -/
def execCmpne (c : CoreId) (s : State) : Out := ev s fun s => s.vecCompute c 0x31 (vCmp .ne)
/-- CMPLT. -/
def execCmplt (c : CoreId) (s : State) : Out := ev s fun s => s.vecCompute c 0x32 (vCmp .lt)
/-- CMPLE. -/
def execCmple (c : CoreId) (s : State) : Out := ev s fun s => s.vecCompute c 0x33 (vCmp .le)
/-- SEL. -/
def execSel (c : CoreId) (s : State) : Out := ev s fun s => s.vecCompute c 0x34 vSel
/-- RECIP (R445). -/
def execRecip (c : CoreId) (s : State) : Out := ev s fun s => s.vecCompute c 0x40 (vUn (fSpecial .recip))
/-- RSQRT (R445). -/
def execRsqrt (c : CoreId) (s : State) : Out := ev s fun s => s.vecCompute c 0x41 (vUn (fSpecial .rsqrt))
/-- EXP2 (R445). -/
def execExp2 (c : CoreId) (s : State) : Out := ev s fun s => s.vecCompute c 0x42 (vUn (fSpecial .exp2))
/-- LOG2 (R445). -/
def execLog2 (c : CoreId) (s : State) : Out := ev s fun s => s.vecCompute c 0x43 (vUn (fSpecial .log2))
/-- RSUM. -/
def execRsum (c : CoreId) (s : State) : Out := ev s fun s => s.vecCompute c 0x50 (vReduce fAdd Fmt.signBit)
/-- RMAX. -/
def execRmax (c : CoreId) (s : State) : Out := ev s fun s => s.vecCompute c 0x51 (vReduce (fMaxMin true) Fmt.nanBits)
/-- RMIN. -/
def execRmin (c : CoreId) (s : State) : Out := ev s fun s => s.vecCompute c 0x52 (vReduce (fMaxMin false) Fmt.nanBits)
/-- ACCSQ (R205). -/
def execAccsq (c : CoreId) (s : State) : Out := ev s fun s => s.vecCompute c 0x53 vAccsq
/-- WELFORD (R206). -/
def execWelford (c : CoreId) (s : State) : Out := ev s fun s => s.vecCompute c 0x54 vWelford
/-- MERGE (R206). -/
def execMerge (c : CoreId) (s : State) : Out := ev s fun s => s.vecCompute c 0x55 vMerge
/-- RMERGE (R206). -/
def execRmerge (c : CoreId) (s : State) : Out := ev s fun s => s.vecCompute c 0x56 vRmerge
/-- TOPK (R207). -/
def execTopk (c : CoreId) (s : State) : Out := ev s fun s => s.vecCompute c 0x58 vTopk
/-- CVT (R208). -/
def execCvt (c : CoreId) (s : State) : Out := ev s fun s => s.vecCompute c 0x60 vCvt
/-- CVT.AMAX (R210). -/
def execCvtAmax (c : CoreId) (s : State) : Out := ev s fun s => s.vecCompute c 0x61 vCvtAmax

/-- The first started descriptor of kind `k` at a performer of one descriptor at a time. -/
def UnitQ.ready (q : UnitQ) (k : DKind) : Option Active := q.active.find? fun a => isKind k a.entry.bits && a.progress == .started

/-- A VEC descriptor starts its program: VL, the preloaded address registers, VEC_MODE (R176, R195). -/
def State.vecStart (s : State) (c : CoreId) : State :=
  let v := (s.core c).vec
  if !(s.core c).live || v.q.freeze.isSome then s
  else match v.q.ready .vec with
    | none => s
    | some a =>
      let d := a.entry.bits
      s.modVec c fun v => { v with
        q := v.q.modActive a.entry.id fun y => { y with progress := .busy }
        running := true, pc := vProg d, vl := 512, subnNow := v.subn
        a := Vector.ofFn fun n : Fin 16 => if n.val < 10 ∧ bitOf (vPreload d) n.val = true then vArg d n.val else v.a[n] }

/-- VEC: dispatch into the vector queue (R165), or the start of its program (R176). -/
def execVec (c : CoreId) (a : DescAct) (s : State) : Out := ev s fun s =>
  match a with
  | .dispatch => s.dispatchQueued c (isKind .vec)
  | .perform => s.vecStart c

end Sys2Proof.Machine
end

