-- ==== Sys2Proof/Machine/Regs.lean ====
section
/-! DEFINITION. The register map: every register's read value with its read effect (RC, _LO capture) and every write, by block
(Tables TIL-1, SYN-4, SPA-8, VEC-5, ENG-8 to ENG-13, FAB-10, FAB-11, MEM-3, MEM-5, MEM-7, PAR-10, PWR-10, FLT-9, BOT-6, ONA-1,
ONA-2, ONA-6, PAR-9, PWR-11), and an access by a master with the checks of R15, R19, R22 to R25. -/

namespace Sys2Proof.Machine

/-- A register read: its value and the state after it; none at a reserved offset. -/
abbrev RegRead := Option (Nat × State)

/-- A read without effect. -/
def plain (s : State) (v : Nat) : RegRead := some (v, s)

/-- The low and high words of a 64-bit number. -/
def loWord (v : BitVec 64) : Nat := field v.toNat 0 32
/-- The high word. -/
def hiWord (v : BitVec 64) : Nat := field v.toNat 32 32

/-- Change the low or the high word of a 64-bit register. -/
def setHalf (v : BitVec 64) (hi : Bool) (w : Word) : BitVec 64 :=
  BitVec.ofNat 64 (if hi then loWord v + w.toNat * 2 ^ 32 else hiWord v * 2 ^ 32 + w.toNat)

/-- The word of `f` at index `i`, when `i` is in range. -/
def at_ {α : Type} {n : Nat} (v : Vector α n) (i : Nat) : Option α := if h : i < n then some v[i] else none

/-! ### Core registers: values -/

/-- A performer sleeps on a wait (CORE_SLEEP, Table SYN-3). -/
def Core.sleeps (k : Core) : UnitId → Bool
  | .seq => k.seq.wait.isSome
  | .eng e => (k.eng[e]).asleep
  | u => (k.unitQ u).asleep

/-- SEQ_STATUS.STATE (Table TIL-1). A HALT that waits for earlier descriptors reads 4. -/
def Core.seqState (k : Core) (s : State) (c : CoreId) : Nat :=
  let q := k.seq
  if q.freeze.isSome then 7
  else if q.halted then 5
  else if q.fencing.isSome || q.halting.isSome then 4
  else if q.wait.isSome then 2
  else if !q.enable then 0
  else match s.nextDesc c with
    | none => 6
    | some n => match dPerformer n.d with
      | some u => if 64 ≤ (k.unitQ u).queue.length ∨ 1024 ≤ k.inFlight then 3 else 1
      | none => 1

/-- SEQ_STATUS. -/
def State.seqStatus (s : State) (c : CoreId) : Nat :=
  let k := s.core c
  let q := k.seq
  k.seqState s c + 8 * b2n q.loop.isSome + 16 * b2n q.segment.isSome + 32 * (k.inFlight % 2048)
    + 0x10000 * q.phase.toNat + 0x400000 * b2n q.tailRej

/-- Read a sequencer register (Table TIL-1). -/
def State.seqRead (s : State) (c : CoreId) (o : Nat) : RegRead :=
  let q := (s.core c).seq
  match o with
  | 0x000 => plain s (b2n q.enable)
  | 0x004 => plain s (s.seqStatus c)
  | 0x008 => plain s q.ringBase.toNat
  | 0x00C => plain s q.log2.toNat
  | 0x010 => plain s q.head.toNat
  | 0x014 => plain s q.tail.toNat
  | 0x018 => plain s (((q.segment.getD (q.slotOff q.head.toNat))) % 2 ^ 23)
  | 0x01C => plain s q.faultDesc.toNat
  | 0x020 => some (loWord q.retired, s.modSeq c fun q => { q with retiredHi := some (BitVec.ofNat 32 (hiWord q.retired)) })
  | 0x024 => some ((q.retiredHi.map (·.toNat)).getD (hiWord q.retired), s.modSeq c fun q => { q with retiredHi := none })
  | 0x028 => some (q.skipped.toNat, s.modSeq c fun q => { q with skipped := 0 })
  | _ => none

/-- Accept or ignore a SEQ_TAIL write (R160); slots still to be skipped are released as they are handed over (R183). -/
def Sequencer.writeTail (q : Sequencer) (v : Nat) : Sequencer :=
  let n := v % 65536
  let dist := fun t : Nat => (t + q.size - q.head.toNat) % q.size
  if n < q.size ∧ dist q.tail.toNat ≤ dist n then { q with tail := BitVec.ofNat 16 n, tailRej := false }.skip 0
  else { q with tailRej := true }

/-- Write a sequencer register (R161, R162, R188). -/
def State.seqWrite (s : State) (c : CoreId) (o : Nat) (v : Word) : Option State :=
  let n := v.toNat
  match o with
  | 0x000 => some (s.modSeq c fun q => { q with enable := bitOf n 0, halted := q.halted && !bitOf n 1 })
  | 0x008 => some (s.modSeq c fun q => if q.enable then q else { q with ringBase := BitVec.ofNat 23 n, head := 0, tail := 0, loopSkip := 0 })
  | 0x00C => some (s.modSeq c fun q => if q.enable then q
      else { q with log2 := BitVec.ofNat 5 (if within 6 (n % 32) 16 then n % 32 else 6), head := 0, tail := 0, loopSkip := 0 })
  | 0x014 => some (s.modSeq c fun q => q.writeTail n)
  | 0x004 | 0x010 | 0x018 | 0x01C | 0x020 | 0x024 | 0x028 => some s
  | _ => none

/-- Read a counter, bell or count register (Tables SYN-4, SPA-8). -/
def State.cntRead (s : State) (c : CoreId) (o : Nat) : RegRead :=
  let k := s.core c
  if o < 0x100 then plain s (k.cnt[Fin.ofNat 64 (o / 4)]).toNat
  else if o < 0x300 then plain s 0
  else if 0x8000 ≤ o ∧ o < 0x8040 then plain s (k.countReg[Fin.ofNat 16 ((o - 0x8000) / 4)]).toNat
  else match o with
    | 0x300 => plain s (field k.sat.toNat 0 32)
    | 0x304 => plain s (field k.sat.toNat 32 32)
    | 0x308 => plain s (field k.under.toNat 0 32)
    | 0x30C => plain s (field k.under.toNat 32 32)
    | 0x310 => plain s k.cntCtrl.toNat
    | 0x314 => plain s (((List.range 7).map fun u => match unitOf u with
        | some u' => 2 ^ u * b2n (k.sleeps u')
        | none => 0).sum + 128 * b2n k.inC1)
    | 0x318 => plain s 0
    | 0x31C => plain s k.bellWake.toNat
    | _ => none

/-- Clear written-one bits of one half of a 64-bit W1C register. -/
def clearHalf (v : BitVec 64) (hi : Bool) (w : Word) : BitVec 64 :=
  v &&& ~~~(BitVec.ofNat 64 (w.toNat * if hi then 2 ^ 32 else 1))

/-- Fire every bell line of a mask (R246). -/
def State.ringBells (s : State) (c : CoreId) (mask : Nat) : State := (bitsSet mask 16).foldl (fun s b => s.fireBell c b) s

/-- Write a counter, bell or count register. -/
def State.cntWrite (s : State) (c : CoreId) (o : Nat) (v : Word) : Option State :=
  let n := v.toNat % 65536
  if o < 0x100 then some (s.cntOp c (Fin.ofNat 64 (o / 4)) (.set n))
  else if o < 0x200 then some (s.cntOp c (Fin.ofNat 64 ((o - 0x100) / 4)) (.add n))
  else if o < 0x300 then some (s.cntOp c (Fin.ofNat 64 ((o - 0x200) / 4)) (.sub n))
  else if 0x8000 ≤ o ∧ o < 0x8040 then
    some (s.modCore c fun k => { k with countReg := upd k.countReg (Fin.ofNat 16 ((o - 0x8000) / 4)) fun _ => v })
  else match o with
    | 0x300 => some (s.modCore c fun k => { k with sat := clearHalf k.sat false v })
    | 0x304 => some (s.modCore c fun k => { k with sat := clearHalf k.sat true v })
    | 0x308 => some (s.modCore c fun k => { k with under := clearHalf k.under false v })
    | 0x30C => some (s.modCore c fun k => { k with under := clearHalf k.under true v })
    | 0x310 => some (s.modCore c fun k => { k with cntCtrl := BitVec.ofNat 2 v.toNat })
    | 0x314 => some s
    | 0x318 => some (s.ringBells c n)
    | 0x31C => some (s.modCore c fun k => { k with bellWake := BitVec.ofNat 16 n })
    | _ => none

/-- VEC_STATUS (Table VEC-5). -/
def VecEngine.status (v : VecEngine) : Nat :=
  (if v.q.freeze.isSome then 3 else if v.q.wait.isSome then 2 else if v.running then 1 else 0) + 256 * v.q.queue.length

/-- Read a vector engine register. -/
def State.vecRead (s : State) (c : CoreId) (o : Nat) : RegRead :=
  let v := (s.core c).vec
  match o with
  | 0x000 => plain s (c.val + 0xB000)
  | 0x004 => plain s (b2n v.subn)
  | 0x008 => plain s v.status
  | 0x00C => plain s v.flags.toNat
  | 0x010 => plain s v.seed.toNat
  | 0x014 => plain s v.lastPc.toNat
  | 0x018 => plain s v.faultPc.toNat
  | 0x01C => plain s v.vl.toNat
  | 0x020 => some (loWord v.instrCount, s.modVec c fun v => { v with instrHi := some (BitVec.ofNat 32 (hiWord v.instrCount)) })
  | 0x024 => some ((v.instrHi.map (·.toNat)).getD (hiWord v.instrCount), s.modVec c fun v => { v with instrHi := none })
  | _ => none

/-- Write a vector engine register (R80, R195, R214). -/
def State.vecWrite (s : State) (c : CoreId) (o : Nat) (w : Word) : Option State :=
  match o with
  | 0x004 => some (s.modVec c fun v => { v with subn := bitOf w.toNat 0 })
  | 0x00C => some (s.modVec c fun v => { v with flags := v.flags &&& ~~~(BitVec.ofNat 8 (w.toNat % 256 &&& 0xDF)) })
  | 0x010 => some (s.modVec c fun v => { v with seed := w, sr := seeded w })
  | 0x000 | 0x008 | 0x014 | 0x018 | 0x01C | 0x020 | 0x024 => some s
  | _ => none

/-- Read a mover register (Table SPA-8). -/
def State.movRead (s : State) (c : CoreId) (o : Nat) : RegRead :=
  let m := (s.core c).mov
  match o with
  | 0x100 => some (m.dropCount.toNat, s.modMov c fun m => { m with dropCount := 0 })
  | 0x104 => some (m.movedCount.toNat, s.modMov c fun m => { m with movedCount := 0 })
  | 0x108 => some (m.pruneCount.toNat, s.modMov c fun m => { m with pruneCount := 0 })
  | _ => none

/-- ENG_STATUS (Table ENG-11). Where several of STATE's codes hold, the model reads frozen before sleeping, restoring, replaying, streaming, installing
and draining (DESIGN CHOICE, log entry 126). -/
def Engine.status (x : Engine) (sleeping : Bool) : Nat :=
  let st := if x.q.freeze.isSome then 7 else if sleeping then 6 else if x.restore = .restoring then 5 else if x.flight.any (·.overflow) then 4
    else if x.q.feeding.isSome then 2 else if !x.toInstall.isEmpty then 1 else if !x.flight.isEmpty then 3 else 0
  let geom := (x.array.map (·.tile.geom.toNat)).getD 0
  let groups := ((List.finRange 8).map fun g : GroupId => 2 ^ g.val * b2n ((x.groups[g]).state == .opened)).sum
  st + 8 * b2n x.installed.isSome + 16 * b2n x.orient + 32 * geom + 256 * x.q.queue.length + 0x10000 * groups

/-- ENG_BSTAGE (Table ENG-13). -/
def Engine.bstage (x : Engine) : Nat :=
  let valid := ((List.finRange 16).map fun i : Fin 16 => 2 ^ i.val * b2n (x.slots[i]).isSome).sum
  let retained := match x.installed with
    | some i => x.flight.any fun f => f.slot == i
    | none => false
  let ahead := (x.slots.toList.filter fun t => match t with
    | some t => !t.installed
    | none => false).length
  valid + 0x10000 * ((x.installed.map (·.val)).getD 0) + 0x100000 * b2n retained + 0x1000000 * ahead

/-- Read an engine register (Tables ENG-8 to ENG-13). -/
def State.engRead (s : State) (c : CoreId) (e : EngId) (o : Nat) : RegRead :=
  let x := s.eng c e
  match o with
  | 0x000 => plain s (e.val + 4 * c.val + 0xB000)
  | 0x004 => plain s (b2n x.subn + 2 * b2n x.zgate)
  | 0x008 => plain s (x.status ((s.core c).sleeps (.eng e)))
  | 0x00C => plain s x.flags.toNat
  | 0x010 => some (x.replayCount.toNat, s.modEng c e fun x => { x with replayCount := 0 })
  | 0x014 => plain s x.bstage
  | 0x018 => some (loWord x.zgateCount, s.modEng c e fun x => { x with zgateHi := some (BitVec.ofNat 32 (hiWord x.zgateCount)) })
  | 0x01C => some ((x.zgateHi.map (·.toNat)).getD (hiWord x.zgateCount), s.modEng c e fun x => { x with zgateHi := none })
  | 0x020 => some (loWord x.stepCount, s.modEng c e fun x => { x with stepHi := some (BitVec.ofNat 32 (hiWord x.stepCount)) })
  | 0x024 => some ((x.stepHi.map (·.toNat)).getD (hiWord x.stepCount), s.modEng c e fun x => { x with stepHi := none })
  | 0x028 => some (loWord x.installCk, s.modEng c e fun x => { x with installHi := some (BitVec.ofNat 32 (hiWord x.installCk)) })
  | 0x02C => some ((x.installHi.map (·.toNat)).getD (hiWord x.installCk), s.modEng c e fun x => { x with installHi := none })
  | _ => none

/-- Write an engine register. -/
def State.engWrite (s : State) (c : CoreId) (e : EngId) (o : Nat) (w : Word) : Option State :=
  match o with
  | 0x004 => some (s.modEng c e fun x => { x with subn := bitOf w.toNat 0, zgate := bitOf w.toNat 1 })
  | 0x00C => some (s.modEng c e fun x => { x with flags := x.flags &&& ~~~(BitVec.ofNat 8 w.toNat) })
  | 0x000 | 0x008 | 0x010 | 0x014 | 0x018 | 0x01C | 0x020 | 0x024 | 0x028 | 0x02C => some s
  | _ => none

/-- Read a register of a core region at offset `o` from the core base. -/
def State.csrRead (s : State) (c : CoreId) (o : Nat) : RegRead :=
  let r := o % 0x10000
  if o < 0xF10000 then s.seqRead c r
  else if o < 0xF20000 then s.cntRead c r
  else if o < 0xF30000 then s.vecRead c r
  else if o < 0xF40000 then s.movRead c r
  else s.engRead c (Fin.ofNat 4 (r / 0x1000)) (r % 0x1000)

/-- Write a register of a core region. -/
def State.csrWrite (s : State) (c : CoreId) (o : Nat) (v : Word) : Option State :=
  let r := o % 0x10000
  if o < 0xF10000 then s.seqWrite c r v
  else if o < 0xF20000 then s.cntWrite c r v
  else if o < 0xF30000 then s.vecWrite c r v
  else if o < 0xF40000 then (if r = 0x100 ∨ r = 0x104 ∨ r = 0x108 then some s else none)
  else s.engWrite c (Fin.ofNat 4 (r / 0x1000)) (r % 0x1000) v

/-! ### Spire (Tables FAB-10, FAB-11, MEM-3, MEM-5) -/

/-- Outstanding entries in use on the die (SPR_OUTSTANDING). -/
def State.outstanding (s : State) : Nat := (s.cores.toList.map fun k => (k.outst.map (·.due)).sum).sum + s.blf.campOut.length

/-- The 256 bits of a window entry (Table MEM-3). -/
def Window.image (w : Window) : Nat :=
  w.base.toNat + w.len64.toNat * 2 ^ 64 + w.pkey.toNat * 2 ^ 96 + w.owner.toNat * 2 ^ 112 + b2n w.valid * 2 ^ 120
    + b2n w.rd * 2 ^ 121 + b2n w.wr * 2 ^ 122 + b2n w.sig * 2 ^ 123 + b2n w.specOk * 2 ^ 124
    + w.reads.toNat * 2 ^ 128 + w.writes.toNat * 2 ^ 160 + w.spec.toNat * 2 ^ 192

/-- Windows with VALID = 1. -/
def Spire.openCount (p : Spire) : Nat := min 255 (p.windows.toList.filter (·.valid)).length

/-- Read a Spire register or entry at offset `o` of the Spire region. -/
def State.sprRead (s : State) (o : Nat) : RegRead :=
  let p := s.spire
  if 0x500 ≤ o ∧ o < 0x5C0 then plain s ((p.keys[Fin.ofNat 6 ((o - 0x500) / 0x20)])[Fin.ofNat 8 (o % 0x20 / 4)]).toNat
  else if 0x10000 ≤ o ∧ o < 0x12000 then plain s (field (p.windows[Fin.ofNat 256 ((o - 0x10000) / 32)]).image (8 * (o % 32)) 32)
  else if 0x20000 ≤ o ∧ o < 0x22000 ∧ o % 0x1000 < 0x100 then
    plain s ((p.route[Fin.ofNat 2 ((o - 0x20000) / 0x1000)])[Fin.ofNat 64 (o % 0x1000 / 4)]).toNat
  else if 0x20000 ≤ o ∧ o < 0x22000 ∧ o % 0x1000 < 0x140 then
    plain s ((p.mcast[Fin.ofNat 2 ((o - 0x20000) / 0x1000)])[Fin.ofNat 16 ((o % 0x1000 - 0x100) / 4)]).toNat
  else if 0x30000 ≤ o ∧ o < 0x34000 then
    let v := p.rank[Fin.ofNat 2 ((o - 0x30000) / 0x2000)]
    let w := o % 0x2000 / 4
    plain s ((v[Fin.ofNat 4096 (2 * w)]).toNat + 65536 * (v[Fin.ofNat 4096 (2 * w + 1)]).toNat)
  else match o with
    | 0x000 => plain s (s.siteX + 8 * s.siteY + 64 * s.dieId.toNat + 0xB00000)
    | 0x004 => plain s (b2n p.cur + 2 * b2n p.lock + 4 * p.loaded.toNat + 65536 * p.gen.toNat)
    | 0x010 => plain s (p.enter[0]).toNat
    | 0x014 => plain s (p.enter[1]).toNat
    | 0x018 => plain s (p.exits[0]).toNat
    | 0x01C => plain s (p.exits[1]).toNat
    | 0x020 => plain s ((p.held[0]).toNat + 65536 * (p.held[1]).toNat)
    | 0x024 => some (p.dropKey.toNat, s.modSpire fun p => { p with dropKey := 0 })
    | 0x028 => some (p.dropRoute.toNat, s.modSpire fun p => { p with dropRoute := 0 })
    | 0x02C => some (p.dropHops.toNat, s.modSpire fun p => { p with dropHops := 0 })
    | 0x030 => plain s p.creditTo.toNat
    | 0x034 => plain s (p.down.toNat + 16 * p.cto.toNat)
    | 0x038 => plain s (s.outstanding % 8192)
    | 0x400 => plain s (b2n p.multi + 256 * p.lastNamed.toNat + 65536 * p.lastGov.toNat + 0x1000000 * p.openCount)
    | _ => none

/-- Campanile writes a Spire register or entry: its RW, RWS and W1C fields. -/
def State.sprWrite (s : State) (o : Nat) (v : Word) : Option State :=
  if 0x500 ≤ o ∧ o < 0x5C0 then some (s.modSpire fun p => { p with
    keys := upd p.keys (Fin.ofNat 6 ((o - 0x500) / 0x20)) fun k => upd k (Fin.ofNat 8 (o % 0x20 / 4)) fun _ => v &&& 0x1FFFF })
  else if 0x20000 ≤ o ∧ o < 0x22000 ∧ o % 0x1000 < 0x100 then some (s.modSpire fun p => { p with
    route := upd p.route (Fin.ofNat 2 ((o - 0x20000) / 0x1000)) fun t => upd t (Fin.ofNat 64 (o % 0x1000 / 4)) fun _ => v &&& 0x1FF })
  else if 0x20000 ≤ o ∧ o < 0x22000 ∧ o % 0x1000 < 0x140 then some (s.modSpire fun p => { p with
    mcast := upd p.mcast (Fin.ofNat 2 ((o - 0x20000) / 0x1000)) fun t => upd t (Fin.ofNat 16 ((o % 0x1000 - 0x100) / 4)) fun _ => v })
  else if 0x30000 ≤ o ∧ o < 0x34000 then some (s.modSpire fun p => { p with
    rank := upd p.rank (Fin.ofNat 2 ((o - 0x30000) / 0x2000)) fun t =>
      let w := o % 0x2000 / 4
      upd (upd t (Fin.ofNat 4096 (2 * w)) fun _ => BitVec.ofNat 16 v.toNat &&& 0x83FF) (Fin.ofNat 4096 (2 * w + 1)) fun _ =>
        BitVec.ofNat 16 (v.toNat / 65536) &&& 0x83FF })
  else match o with
    | 0x030 => some (s.modSpire fun p => { p with creditTo := if v.toNat < 1000 then 1000 else v })
    | 0x400 => some (s.modSpire fun p => { p with multi := p.multi && !bitOf v.toNat 0 })
    | _ => (s.sprRead o).map fun _ => s

/-! ### Parapet (Table PAR-10) -/

/-- PAR_x_STATUS. -/
def State.parStatus (s : State) (e : EdgeId) : Nat :=
  let x := s.edges[e]
  x.state.toNat + 16 * x.rate.toNat + 64 * b2n (s.ucie e) + 128 * (bitsSet x.on.toNat 20).length
    + 4096 * (if x.state = 8 then x.reason.toNat else 0)

/-- Read an edge's register. -/
def State.parRead (s : State) (e : EdgeId) (o : Nat) : RegRead :=
  let x := s.edges[e]
  if 0x100 ≤ o ∧ o < 0x1A0 then
    let m : Fin 20 := Fin.ofNat 20 ((o - 0x100) / 8)
    plain s (if o % 8 = 0 then (x.mapTx[m]).toNat else (x.mapRx[m]).toNat)
  else match o with
    | 0x000 => plain s x.targetRate.toNat
    | 0x004 => plain s (s.parStatus e)
    | 0x008 => plain s x.on.toNat
    | 0x00C => plain s x.offRetry.toNat
    | 0x010 => plain s x.offCmd.toNat
    | 0x014 => plain s (x.thresh.toNat + 65536 * x.window.toNat)
    | 0x018 => some (x.replays.toNat, s.modEdge e fun x => { x with replays := 0 })
    | 0x01C => some (x.badFlits.toNat, s.modEdge e fun x => { x with badFlits := 0 })
    | 0x020 => plain s x.peer.toNat
    | _ => none

/-- Campanile writes an edge's register. -/
def State.parWrite (s : State) (e : EdgeId) (o : Nat) (v : Word) : Option State :=
  match o with
  | 0x000 => some (s.modEdge e fun x => { x with targetRate := BitVec.ofNat 2 v.toNat })
  | 0x014 => some (s.modEdge e fun x => { x with
      thresh := BitVec.ofNat 16 v.toNat, window := BitVec.ofNat 16 (max 10 (v.toNat / 65536)) })
  | _ => (s.parRead e o).map fun _ => s

/-! ### Belfry: Bronze (Table PWR-10) -/

/-- The die has been READY since its cold start: its state follows the cores from there on (Table BOT-1, R333). -/
def Belfry.started (b : Belfry) : Bool := b.stage == 5 || b.warm || b.activation

/-- D0 to D3: D0 until the first READY (Table BOT-1), then D1 when every core is in C3 or C4 (R333). -/
def State.dieState (s : State) : Nat :=
  match s.dstate with
  | .d2 => 2
  | .d3 => 3
  | .up => if s.blf.started && s.cores.toList.all fun k => (k.cstate == .c3 || k.cstate == .c4) && !k.waking then 1 else 0

/-- PWR_COREn.CSTATE: C0 to C4; 5 absent (R16). -/
def Core.code (k : Core) : Nat :=
  if !k.here then 5
  else match k.cstate with
    | .c0 => if k.inC1 then 1 else 0
    | .c2 => 2
    | .c3 => 3
    | .c4 => 4

/-- PWR_COREn. -/
def Core.pwr (k : Core) : Nat :=
  k.k.toNat + 32 * k.code + 256 * k.freq.toNat + 0x4000 * k.seq.phase.toNat + 0x100000 * b2n k.droop + 0x200000 * b2n k.short

/-- The fused fmax code of core `n`. -/
def State.fmaxCode (s : State) (n : Nat) : Nat :=
  field (if n < 8 then (s.blf.shadow[240]).toNat else (s.blf.shadow[241]).toNat) (4 * (n % 8)) 4

/-- Read a PWR_ register. -/
def State.pwrRead (s : State) (o : Nat) : RegRead :=
  let b := s.bronze
  if 0x100 ≤ o ∧ o < 0x140 then plain s (s.core (Fin.ofNat 16 ((o - 0x100) / 4))).pwr
  else if 0x140 ≤ o ∧ o < 0x180 then
    let n := (o - 0x140) / 4
    let k := s.core (Fin.ofNat 16 n)
    plain s (s.fmaxCode n + 16 * k.fmaxEff.toNat + 0x400 * k.ceiling.toNat + 0x10000 * k.aged.toNat)
  else if 0x200 ≤ o ∧ o < 0x400 then
    let p := b.phases[Fin.ofNat 64 ((o - 0x200) / 8)]
    plain s (if o % 8 = 0 then p.avg.toNat else p.visits.toNat + 65536 * b2n p.locked)
  else if 0x400 ≤ o ∧ o < 0x4A0 then plain s (b.sensors[Fin.ofNat 40 ((o - 0x400) / 4)]).toNat
  else match o with
    | 0x000 => plain s (s.dieState + 4 * b2n b.alertHold + 8 * b2n b.therm + 16 * b2n b.avsErr + 32 * b2n b.calInvalid
        + 64 * b2n b.rampShort + 128 * b.limiter.toNat)
    | 0x004 => plain s (b.target.toNat + 256 * b.effective.toNat + 65536 * b.ramp.toNat)
    | 0x008 => plain s (b.ballastLimit.toNat + 256 * b.ballastActual.toNat)
    | 0x00C => plain s Config.limit1ms
    | 0x010 => plain s (b.p1ms.toNat + 65536 * b.p100ms.toNat)
    | 0x014 => some (loWord b.energyTotal, s.modBrz fun b => { b with energyTotalHi := some (BitVec.ofNat 32 (hiWord b.energyTotal)) })
    | 0x018 => some ((b.energyTotalHi.map (·.toNat)).getD (hiWord b.energyTotal), s.modBrz fun b => { b with energyTotalHi := none })
    | 0x01C => some (loWord b.energyBallast, s.modBrz fun b => { b with energyBallastHi := some (BitVec.ofNat 32 (hiWord b.energyBallast)) })
    | 0x020 => some ((b.energyBallastHi.map (·.toNat)).getD (hiWord b.energyBallast), s.modBrz fun b => { b with energyBallastHi := none })
    | 0x024 => plain s (b.tmax.toNat + 4096 * b.tmaxSensor.toNat)
    | 0x028 => some (b.alertCount.toNat, s.modBrz fun b => { b with alertCount := 0 })
    | 0x02C => some (b.droopCount.toNat, s.modBrz fun b => { b with droopCount := 0 })
    | 0x030 => some (b.peakCount.toNat, s.modBrz fun b => { b with peakCount := 0 })
    | 0x034 => plain s b.c2After.toNat
    | _ => none

/-- Campanile writes a PWR_ register: its RWS fields. -/
def State.pwrWrite (s : State) (o : Nat) (v : Word) : Option State :=
  let n := v.toNat
  if 0x140 ≤ o ∧ o < 0x180 then some (s.modCore (Fin.ofNat 16 ((o - 0x140) / 4)) fun k => { k with
    fmaxEff := BitVec.ofNat 6 (field n 4 6), ceiling := BitVec.ofNat 6 (field n 10 6), aged := BitVec.ofNat 8 (field n 16 8) })
  else if 0x200 ≤ o ∧ o < 0x400 then some (s.modBrz fun b => { b with
    phases := upd b.phases (Fin.ofNat 64 ((o - 0x200) / 8)) fun p =>
      if o % 8 = 0 then { p with avg := BitVec.ofNat 16 n } else { p with visits := BitVec.ofNat 16 n, locked := bitOf n 16 } })
  else match o with
    | 0x004 => some (s.modBrz fun b => { b with target := BitVec.ofNat 8 n, ramp := BitVec.ofNat 7 (field n 16 7) })
    | 0x008 => some (s.modBrz fun b => { b with ballastLimit := BitVec.ofNat 6 n })
    | 0x014 => some (s.modBrz fun b => { b with energyTotal := setHalf b.energyTotal false v })
    | 0x018 => some (s.modBrz fun b => { b with energyTotal := setHalf b.energyTotal true v })
    | 0x01C => some (s.modBrz fun b => { b with energyBallast := setHalf b.energyBallast false v })
    | 0x020 => some (s.modBrz fun b => { b with energyBallast := setHalf b.energyBallast true v })
    | 0x034 => some (s.modBrz fun b => { b with c2After := BitVec.ofNat 16 n })
    | _ => (s.pwrRead o).map fun _ => s

/-! ### Belfry: the rest -/

/-- The semaphores a port owns, one bit each. -/
def State.semHeld (s : State) (p : CtlPort) : Nat :=
  ((List.finRange 32).map fun n : Fin 32 => 2 ^ n.val * b2n ((s.blf.sems[n]).owner.toNat == (portIdx p).val + 1)).sum

/-- BLF_PORT_STATUS. -/
def PortState.status (q : PortState) : Nat := b2n q.frozen + 2 * b2n q.executing.isSome + 4 * b2n q.subscribed + 256 * q.cause.toNat

/-- Read a word of a port page (Tables ONA-1, ONA-2). -/
def State.pageRead (s : State) (p : CtlPort) (o : Nat) : RegRead :=
  let q := s.port p
  if o < 0x400 then plain s (field (q.cmdSlots[Fin.ofNat 16 (o / 0x40)]).toNat (8 * (o % 0x40)) 32)
  else if o < 0xC00 then plain s (field (q.rspSlots[Fin.ofNat 32 ((o - 0x400) / 0x40)]).toNat (8 * (o % 0x40)) 32)
  else match o with
    | 0xC00 => plain s q.cmdTail.toNat
    | 0xC10 => plain s q.rspHead.toNat
    | 0xC80 => plain s q.cmdHead.toNat
    | 0xC84 => plain s q.rspTail.toNat
    | 0xC88 => plain s q.status
    | 0xC8C => plain s q.bind.toNat
    | 0xC90 => some (q.evtLost.toNat, s.modPort p fun q => { q with evtLost := 0 })
    | 0xC94 => plain s (s.semHeld p)
    | _ => if o < 0xC40 then plain s 0 else none

/-- Campanile writes a status word of a port page: its RWS fields. What a write of a slot or a doorbell does is `State.pageSet`. -/
def State.pageWrite (s : State) (p : CtlPort) (o : Nat) (v : Word) : Option State :=
  let n := v.toNat
  match o with
  | 0xC88 => some (s.modPort p fun q => { q with frozen := bitOf n 0, subscribed := bitOf n 2, cause := BitVec.ofNat 3 (field n 8 3) })
  | 0xC8C => some (s.modPort p fun q => { q with bind := BitVec.ofNat 9 n })
  | _ => (s.pageRead p o).map fun _ => s

/-- BLF_SEMn (Table ONA-6). -/
def Sem.image (x : Sem) : Nat := x.owner.toNat + 4 * b2n x.lapsed + 8 * x.lease.toNat

/-- The scrubber of unit `u` is idle: disabled, or its core is in C4 or absent (Table MEM-7, R16). -/
def State.scrubIdle (s : State) (u : Fin 24) : Bool :=
  !bitOf s.blf.scrubEn.toNat u.val || (if u.val < 16 then (s.core (Fin.ofNat 16 u.val)).cstate == .c4 || !(s.core (Fin.ofNat 16 u.val)).here else s.dstate == .d2)

/-- MEM_CLEAR_STATUS. -/
def State.clearStatus (s : State) : Nat :=
  ((List.finRange 16).map fun c : CoreId => 2 ^ c.val * b2n (s.core c).clearing).sum + 65536 * s.blf.slicesClearing.toNat

/-- Read a MEM_ register (Table MEM-7). -/
def State.memRegRead (s : State) (o : Nat) : RegRead :=
  let b := s.blf
  if o < 0x180 then
    let u : Fin 24 := Fin.ofNat 24 (o / 16)
    match o % 16 with
    | 0 => plain s (b2n (bitOf b.scrubEn.toNat u.val) + 65536 * (b.scrubPeriod[u]).toNat)
    | 4 => plain s ((b.scrubPos[u]).toNat + 0x20000 * b2n (bitOf b.scrubLag.toNat u.val) + 0x40000 * b2n (s.scrubIdle u))
    | 8 => some ((b.eccCorr[u]).toNat, s.modBlf fun b => { b with eccCorr := upd b.eccCorr u fun _ => 0 })
    | _ => some ((b.eccUncorr[u]).toNat, s.modBlf fun b => { b with eccUncorr := upd b.eccUncorr u fun _ => 0 })
  else if o = 0x180 then plain s s.clearStatus else none

/-- A scrubber's EN and PERIOD (R240): PERIOD clamps to 10 to 60,000 ms. -/
def State.setScrub (s : State) (u : Fin 24) (en : Bool) (period : Nat) : State :=
  s.modBlf fun b => { b with
    scrubEn := putBit b.scrubEn u.val en
    scrubPeriod := upd b.scrubPeriod u fun _ => BitVec.ofNat 16 (max 10 (min 60000 period)) }

/-- Campanile writes a MEM_ register. -/
def State.memRegWrite (s : State) (o : Nat) (v : Word) : Option State :=
  if o < 0x180 ∧ o % 16 = 0 then some (s.setScrub (Fin.ofNat 24 (o / 16)) (bitOf v.toNat 0) (v.toNat / 65536))
  else (s.memRegRead o).map fun _ => s

/-- The first fatal record's position. -/
def Belfry.fatalFirst (b : Belfry) : Nat := (b.fatalStored - b.fatalHeld) % 64

/-- A word of a list of bytes. -/
def wordAt (bs : List Byte) (o : Nat) : Nat := leNat ((bs.drop o).take 4)

/-- Read a mirror record's words. -/
def Mirror.image (m : Mirror) : Nat := m.peer.toNat + 64 * m.window.toNat + 0x4000 * b2n m.valid

/-- Read a fault-log or fencing register, or a word of a record (Table FLT-9, R393). -/
def State.fltRead (s : State) (o : Nat) : RegRead :=
  let b := s.blf
  if 0x1000 ≤ o ∧ o < 0x9000 then plain s (wordAt (b.logRing[Fin.ofNat 1024 ((o - 0x1000) / 32)]).bytes (o % 32))
  else if 0x9000 ≤ o ∧ o < 0x9800 then plain s (wordAt (b.fatalRing[Fin.ofNat 64 ((o - 0x9000) / 32)]).bytes (o % 32))
  else match o with
    | 0x000 => plain s b.newest.toNat
    | 0x004 => plain s b.oldest.toNat
    | 0x008 => some (b.lost.toNat, s.modBlf fun b => { b with lost := 0 })
    | 0x00C => plain s (b.fatalHeld + 256 * b.fatalFirst)
    | 0x100 => plain s b.mirrorOut.image
    | 0x104 => plain s b.mirrorOut.size.toNat
    | 0x108 => plain s b.mirrorIn.image
    | 0x10C => plain s b.mirrorIn.base.toNat
    | 0x110 => plain s b.mirrorIn.size.toNat
    | 0x200 => plain s (loWord b.fenced)
    | 0x204 => plain s (hiWord b.fenced)
    | _ => none

/-- A mirror record's first word, written. -/
def Mirror.setImage (m : Mirror) (v : Word) : Mirror :=
  { m with peer := BitVec.ofNat 6 v.toNat, window := BitVec.ofNat 8 (field v.toNat 6 8), valid := bitOf v.toNat 14 }

/-- Campanile writes a fault-log or fencing register. -/
def State.fltWrite (s : State) (o : Nat) (v : Word) : Option State :=
  match o with
  | 0x100 => some (s.modBlf fun b => { b with mirrorOut := b.mirrorOut.setImage v })
  | 0x104 => some (s.modBlf fun b => { b with mirrorOut := { b.mirrorOut with size := v } })
  | 0x108 => some (s.modBlf fun b => { b with mirrorIn := b.mirrorIn.setImage v })
  | 0x10C => some (s.modBlf fun b => { b with mirrorIn := { b.mirrorIn with base := v &&& 0xFFFFFFC0 } })
  | 0x110 => some (s.modBlf fun b => { b with mirrorIn := { b.mirrorIn with size := v } })
  | 0x200 => some (s.modBlf fun b => { b with fenced := setHalf b.fenced false v })
  | 0x204 => some (s.modBlf fun b => { b with fenced := setHalf b.fenced true v })
  | _ => (s.fltRead o).map fun _ => s

/-- Read a boot register (Table BOT-6). -/
def State.bootRead (s : State) (o : Nat) : RegRead :=
  let b := s.blf
  match o with
  | 0x000 => plain s (b.stage.toNat + 16 * b2n b.source + 32 * b2n b.authFail + 64 * b2n b.cfgBad + 256 * b.attempts.toNat)
  | 0x004 => plain s b.readyTime.toNat
  | 0x008 => plain s b.fwVer.toNat
  | 0x00C => plain s b.secVer.toNat
  | 0x010 => plain s (b.wdogTimeout.toNat + 65536 * b.wdogExpired.toNat)
  | _ => none

/-- Campanile writes a boot register; a write of BLF_WDOG also refreshes the watchdog (R425). -/
def State.bootWrite (s : State) (o : Nat) (v : Word) : Option State :=
  match o with
  | 0x010 => some (s.modBlf fun b => { b with wdogTimeout := BitVec.ofNat 16 (max 100 (min 60000 (v.toNat % 65536))), wdogFed := s.now })
  | _ => (s.bootRead o).map fun _ => s

/-- Read a Belfry register at offset `o` of the Belfry. -/
def State.blfRead (s : State) (o : Nat) : RegRead :=
  let b := s.blf
  if o < 0x1000 then s.pageRead .A o
  else if o < 0x2000 then s.pageRead .B (o - 0x1000)
  else if o < 0x2080 then plain s (b.sems[Fin.ofNat 32 ((o - 0x2000) / 4)]).image
  else if 0x10000 ≤ o ∧ o < 0x10400 then plain s (b.shadow[Fin.ofNat 256 ((o - 0x10000) / 4)]).toNat
  else if 0x20000 ≤ o ∧ o < 0x20184 then s.memRegRead (o - 0x20000)
  else if 0x40000 ≤ o ∧ o < 0x41000 then s.pwrRead (o - 0x40000)
  else if 0x50000 ≤ o ∧ o < 0x51000 then plain s (wordAt b.cal (o - 0x50000))
  else if 0x60000 ≤ o ∧ o < 0x6A000 then s.fltRead (o - 0x60000)
  else if 0x70000 ≤ o ∧ o < 0x71000 then s.bootRead (o - 0x70000)
  else match o with
    | 0x30000 => plain s b.waitDefault.toNat
    | 0x30004 => plain s (b2n b.unsync + 2 * b2n b.root)
    | 0x30008 => some (loWord b.time, s.modBlf fun b => { b with timeHi := some (BitVec.ofNat 32 (hiWord b.time)) })
    | 0x3000C => some ((b.timeHi.map (·.toNat)).getD (hiWord b.time), s.modBlf fun b => { b with timeHi := none })
    | _ => none

/-- Write four bytes into a list of bytes. -/
def putWord (bs : List Byte) (o : Nat) (v : Word) : List Byte :=
  let l := bs ++ List.replicate (4096 - bs.length) 0
  l.take o ++ leBytes v.toNat 4 ++ l.drop (o + 4)

/-- Campanile writes a Belfry register. -/
def State.blfWrite (s : State) (o : Nat) (v : Word) : Option State :=
  if o < 0x1000 then s.pageWrite .A o v
  else if o < 0x2000 then s.pageWrite .B (o - 0x1000) v
  else if o < 0x2080 then some (s.modBlf fun b => { b with sems := upd b.sems (Fin.ofNat 32 ((o - 0x2000) / 4)) fun x =>
    { x with owner := BitVec.ofNat 2 v.toNat, lapsed := bitOf v.toNat 2, lease := BitVec.ofNat 16 (field v.toNat 3 16) } })
  else if 0x20000 ≤ o ∧ o < 0x20184 then s.memRegWrite (o - 0x20000) v
  else if 0x40000 ≤ o ∧ o < 0x41000 then s.pwrWrite (o - 0x40000) v
  else if 0x50000 ≤ o ∧ o < 0x51000 then some (s.modBlf fun b => { b with cal := putWord b.cal (o - 0x50000) v })
  else if 0x60000 ≤ o ∧ o < 0x6A000 then s.fltWrite (o - 0x60000) v
  else if 0x70000 ≤ o ∧ o < 0x71000 then s.bootWrite (o - 0x70000) v
  else match o with
    | 0x30000 => some (s.modBlf fun b => { b with waitDefault := if v.toNat < 0x400 then 0x400 else v })
    | 0x30004 => some (s.modBlf fun b => { b with root := bitOf v.toNat 1 })
    | _ => (s.blfRead o).map fun _ => s

/-! ### The whole map -/

/-- Read the 32-bit register at a die-local address; none where none is listed. -/
def State.regRead (s : State) (a : Nat) : RegRead :=
  match region a with
  | .csr c => s.csrRead c (a % 0x1000000)
  | .spire => s.sprRead (a - 0x0200000000)
  | .parapet => s.parRead (Fin.ofNat 4 ((a - 0x0210000000) / 0x1000000)) (a % 0x1000000)
  | .belfry => s.blfRead (a - 0x0300000000)
  | _ => none

/-- Write the 32-bit register at a die-local address. -/
def State.regWrite (s : State) (a : Nat) (v : Word) : Option State :=
  match region a with
  | .csr c => s.csrWrite c (a % 0x1000000) v
  | .spire => s.sprWrite (a - 0x0200000000) v
  | .parapet => s.parWrite (Fin.ofNat 4 ((a - 0x0210000000) / 0x1000000)) (a % 0x1000000) v
  | .belfry => s.blfWrite (a - 0x0300000000) v
  | _ => none

/-- A region of registers. -/
def Region.isRegs : Region → Bool
  | .csr _ | .spire | .parapet | .belfry => true
  | _ => false

/-! ### A master's access (R15, R19, R22 to R25) -/

/-- The key of a master's accesses (R18); Campanile's carry none. -/
def State.masterKey (s : State) : Master → Option (BitVec 16)
  | .unit c _ => (s.core c).owner
  | .netif c => (s.core c).owner
  | .campanile => none

/-- The verdict on a master's access. Campanile is outside R19, R23 and R24. -/
def State.judge (s : State) (m : Master) (a : Nat) (write : Bool) : Verdict :=
  match m with
  | .campanile => if s.gated (region a) then .reserved else match region a with
    | .reserved => .reserved
    | .cupola c | .lantern c | .csr c =>
      if !(s.core c).present then .reserved
      else if (s.core c).refuses (region a) then .coreState (s.core c).stateCode else .ok
    | _ => .ok
  | m => s.verdict (s.masterKey m) a write

/-- A violation ends the unit's current descriptor failed (R19, Table FLT-5). -/
def State.failCurrent (s : State) (c : CoreId) (u : UnitId) : State :=
  match ((s.core c).unitQ u).active.find? fun a => a.progress != .done with
  | some a => s.failOp c u a.entry.id
  | none => s

/-- The offset of a unit's current descriptor. -/
def Core.currentOff (k : Core) (u : UnitId) : Option Nat :=
  ((k.unitQ u).active.find? fun a => a.progress != .done).map (·.entry.off)

/-- A refused access of a unit: what it logs, and for a violation the unit's freeze with its descriptor failed. -/
def State.refuseUnit (s : State) (c : CoreId) (u : UnitId) (a : Nat) (v : Verdict) : State :=
  let t := s.refusedAccess c u ((s.core c).currentOff u) a v
  match v with
  | .key | .readOnly => t.failCurrent c u
  | _ => t

/-- A refused access of a master. A network interface or Campanile is no unit that Table FLT-5 freezes (log entry 128); the SRC_UNIT of a
network interface is 7 (Table FAB-3). -/
def State.refuseMaster (s : State) (m : Master) (a : Nat) (v : Verdict) : State :=
  let note := fun (block inst : Nat) =>
    match v with
    | .ok => s
    | .reserved | .coreState _ =>
      s.log { cls := .deferred, code := 0x202, block := block, inst := inst, pkey := s.masterKey m, detail := v.detail, address := a }
    | .key => s.countKey.log { cls := .contained, code := 0x201, block := block, inst := inst, pkey := s.masterKey m
                               detail := s.dieId.toNat + inst % 16 * 64 + 7 * 1024, address := a }
    | .readOnly => s.log { cls := .contained, code := 0x701, block := block, inst := inst, pkey := s.masterKey m
                           detail := s.dieId.toNat, address := a }
  match m with
  | .unit c u => s.refuseUnit c u a v
  | .netif c => note 5 c.val
  | .campanile => note 0x19 0

/-- What a read returned to its master. -/
def State.returned (s : State) (v : Nat) (poisoned : Bool) : State :=
  { s with readBack := { value := BitVec.ofNat 32 v, poisoned := poisoned } }

/-- The master can act: a unit of a core that runs and that is not frozen, the network interface of a core that is present while the uncore
runs, Campanile (R16, R29, R399). -/
def State.acts (s : State) : Master → Bool
  | .unit c u => (s.core c).live && (s.frozen c u).isNone
  | .netif c => (s.core c).here && s.dstate == .up
  | .campanile => true

/-- The access meets a listed register at another width or alignment than the register's (R15). -/
def State.misfit (s : State) (a width : Nat) : Bool :=
  (region a).isRegs && (width != 4 || a % 4 != 0) && (s.regRead (a / 4 * 4)).isSome && !s.gated (region a)
    && (match region a with
      | .csr c => (s.core c).present
      | _ => true)

/-- A master writes `width` bytes at `a`. Memory is no register: the rows of the register map leave it alone. -/
def State.masterWrite (s : State) (m : Master) (a width : Nat) (v : Word) : State :=
  if !s.acts m || s.misfit a width then s
  else match s.judge m a true with
    | .ok =>
      if !(region a).isRegs then s
      else if width ≠ 4 ∨ a % 4 ≠ 0 then s.refuseMaster m a .reserved
      else (s.regWrite a v).getD (s.refuseMaster m a .reserved)
    | x => s.refuseMaster m a x

/-- A master reads `width` bytes at `a`: a refused or reserved read returns poisoned zeros, one of another width zeros (R15, R22). -/
def State.masterRead (s : State) (m : Master) (a width : Nat) : State :=
  if !s.acts m then s
  else if s.misfit a width then s.returned 0 false
  else match s.judge m a false with
    | .ok =>
      if !(region a).isRegs then s
      else if width ≠ 4 ∨ a % 4 ≠ 0 then (s.refuseMaster m a .reserved).returned 0 true
      else match s.regRead a with
        | some r => r.2.returned r.1 false
        | none => (s.refuseMaster m a .reserved).returned 0 true
    | x => (s.refuseMaster m a x).returned 0 true

/-- The address of a core register. -/
def csrAddr (c : CoreId) (o : Nat) : Nat := coreBase c + o

/-! ### The meanings -/

/-- SEQ_TAIL_WRITE (R160). -/
def execSeqTailWrite (m : Master) (c : CoreId) (v : Word) (s : State) : Out := ev s fun s =>
  s.masterWrite m (csrAddr c 0xF00014) 4 v
/-- RESUME: SEQ_CTRL is written with its ENABLE kept and RESUME set (R188). -/
def execResume (m : Master) (c : CoreId) (s : State) : Out := ev s fun s =>
  s.masterWrite m (csrAddr c 0xF00000) 4 (if (s.core c).seq.enable then 3 else 2)
/-- SEQ_RING_CONFIG_WRITE (R162). -/
def execSeqRingConfigWrite (m : Master) (c : CoreId) (reg : RingReg) (v : Word) (s : State) : Out := ev s fun s =>
  s.masterWrite m (csrAddr c (match reg with
    | .base => 0xF00008
    | .size => 0xF0000C)) 4 v
/-- VEC_SR_SEED_WRITE (R80). -/
def execVecSrSeedWrite (m : Master) (c : CoreId) (v : Word) (s : State) : Out := ev s fun s =>
  s.masterWrite m (csrAddr c 0xF20010) 4 v
/-- CORE_CNT_WRITE (R242). -/
def execCoreCntWrite (m : Master) (c : CoreId) (n : Fin 64) (v : Word) (s : State) : Out := ev s fun s =>
  s.masterWrite m (csrAddr c (0xF10000 + 4 * n.val)) 4 v
/-- CORE_CNT_ADD (R243). -/
def execCoreCntAdd (m : Master) (c : CoreId) (n : Fin 64) (v : Word) (s : State) : Out := ev s fun s =>
  s.masterWrite m (csrAddr c (0xF10100 + 4 * n.val)) 4 v
/-- CORE_CNT_SUB (R243). -/
def execCoreCntSub (m : Master) (c : CoreId) (n : Fin 64) (v : Word) (s : State) : Out := ev s fun s =>
  s.masterWrite m (csrAddr c (0xF10200 + 4 * n.val)) 4 v
/-- CORE_BELL_RING (R246). -/
def execCoreBellRing (m : Master) (c : CoreId) (v : Word) (s : State) : Out := ev s fun s =>
  s.masterWrite m (csrAddr c 0xF10318) 4 v
/-- RC_READ: a register read; an RC field clears (R12, R13). -/
def execRcRead (m : Master) (addr : BitVec 40) (width : Nat) (s : State) : Out := ev s fun s =>
  s.masterRead m addr.toNat width
/-- LO_READ_CAPTURE: a register read; a _LO register captures its _HI (R69). -/
def execLoReadCapture (m : Master) (addr : BitVec 40) (width : Nat) (s : State) : Out := ev s fun s =>
  s.masterRead m addr.toNat width

end Sys2Proof.Machine
end

