-- ==== Sys2Proof/Machine/Mover.lean ====
section
/-! DEFINITION. The mover (05, 06, 08): accesses by die-local address with their checks, MOVE, COMPRESS, SCATTER and GATHER, the
work items of remote operations, and run-ahead. -/

namespace Sys2Proof.Machine

/-! ### Die-local accesses -/

/-- Cut the `n` bytes from `a` at 64-byte lines (R216, R219). -/
def pieces (a n : Nat) : List (Nat × Nat) :=
  if n = 0 then []
  else (List.range ((a + n - 1) / 64 - a / 64 + 1)).map fun i =>
    let lo := max a (64 * (a / 64 + i))
    (lo, min (a + n) (64 * (a / 64 + i + 1)) - lo)

/-- Bytes whose contents the manual leaves undefined (R9), with free marks. -/
def freeBytes (key a n : Nat) : Marked :=
  (List.range n).map fun i => (Config.freeByte key (a + i), (Config.freeByte key (2 ^ 41 + (a + i) / 8)).getLsbD 0)

/-- The `n` bytes from `a` become undefined. -/
def State.undefine (s : State) (a n : Nat) : State := (s.storeP a (freeBytes s.free a n)).takeFree

/-- A LOADB or STREAM is queued or executing on the engine (R53). -/
def Engine.loading (x : Engine) : Bool :=
  let own := fun d : Desc => isKind .loadb d || isKind .stream d
  x.q.queue.any (fun e => own e.bits) || x.q.active.any (fun a => own a.entry.bits && a.progress == .started)
    || !x.flight.isEmpty || !x.toInstall.isEmpty

/-- A STREAM or ACC that targets the group is queued or executing (R27). -/
def Engine.groupInUse (x : Engine) (g : GroupId) : Bool :=
  let own := fun d : Desc => (isKind .stream d && sGroup d == g) || (isKind .acc d && aGroup d == g)
  x.q.queue.any (fun e => own e.bits) || x.q.active.any (fun a => own a.entry.bits && a.progress != .done)
    || x.flight.any fun f => f.group == g

/-- A write through a Lantern window; one that R27 or R53 forbids leaves the area undefined. A group's words keep their poison marks, which only
an opening or a reset clears (R111; log entry 130). -/
def State.lanternWrite (s : State) (c : CoreId) (a : Nat) (bs : Marked) : State :=
  let o := a - coreBase c - 0xC00000
  let e : EngId := Fin.ofNat 4 (o / 0x40000)
  let r := o % 0x40000
  let x := s.eng c e
  let s := if 0x20000 ≤ r then s.storeKeep a bs else s.storeP a bs
  if 0x20000 ≤ r then
    let g : GroupId := Fin.ofNat 8 ((r - 0x20000) / 0x2000)
    if x.groupInUse g then s.undefine (groupBase c e g) 0x2000 else s
  else if x.loading then
    (if r < 0x10000 then s.undefine (lanternBase c e) 0x10000
     else if r < 0x18000 then s.undefine (lanternBase c e + 0x10000) 0x8000
     else s.undefine (lanternBase c e + 0x18000) 0x1000)
  else s

/-- A checked write to SRAM. -/
def State.dieWrite (s : State) (a : Nat) (bs : Marked) : State :=
  match region a with
  | .lantern c => s.lanternWrite c a bs
  | _ => s.storeP a bs

/-- An access through the Lantern window port is cut into aligned words of 4 bytes; one that cannot be is not performed (R216). -/
def lanternFits (a n : Nat) : Bool := a % 4 == 0 && n % 4 == 0

/-- A mover's accesses so far: the state, the refused accesses it has not logged, and whether a violation has stopped it. -/
structure MoveAcc where
  s : State
  outs : List (Nat × Verdict)
  stop : Bool

/-- A refused access of the mover: a violation freezes it, the others are logged at the end (R19, R22, R25). -/
def MoveAcc.refuse (m : MoveAcc) (c : CoreId) (a : Nat) (v : Verdict) : MoveAcc :=
  match v with
  | .key | .readOnly => { m with s := m.s.refuseUnit c .mover a v, stop := true }
  | _ => { m with outs := m.outs ++ [(a, v)] }

/-- Read one piece: SRAM, a register when the piece is one aligned word, zeros at a register of another width (R15), poisoned zeros when
refused. -/
def MoveAcc.readPiece (c : CoreId) (m : MoveAcc) (p : Nat × Nat) : MoveAcc × Marked :=
  let bad := List.replicate p.2 ((0 : Byte), true)
  if m.stop then (m, bad)
  else if m.s.misfit p.1 p.2 then (m, List.replicate p.2 (0, false))
  else match m.s.verdict (m.s.core c).owner p.1 false with
    | .ok =>
      if (region p.1).isRegs then
        if p.2 = 4 ∧ p.1 % 4 = 0 then
          match m.s.regRead p.1 with
          | some r => ({ m with s := r.2 }, (leBytes r.1 4).map fun b => (b, false))
          | none => (m.refuse c p.1 .reserved, bad)
        else (m.refuse c p.1 .reserved, bad)
      else match region p.1 with
        | .lantern _ => if lanternFits p.1 p.2 then let r := m.s.readP p.1 p.2; ({ m with s := r.1 }, r.2) else (m.refuse c p.1 .reserved, bad)
        | _ => let r := m.s.readP p.1 p.2; ({ m with s := r.1 }, r.2)
    | v => (m.refuse c p.1 v, bad)

/-- Write one piece. -/
def MoveAcc.writePiece (c : CoreId) (m : MoveAcc) (a : Nat) (bs : Marked) : MoveAcc :=
  if m.stop || m.s.misfit a bs.length then m
  else match m.s.verdict (m.s.core c).owner a true with
    | .ok =>
      if (region a).isRegs then
        if bs.length = 4 ∧ a % 4 = 0 then
          match m.s.regWrite a (BitVec.ofNat 32 (leNat (bytesOf bs))) with
          | some s => { m with s := s }
          | none => m.refuse c a .reserved
        else m.refuse c a .reserved
      else match region a with
        | .lantern _ => if lanternFits a bs.length then { m with s := m.s.dieWrite a bs } else m.refuse c a .reserved
        | _ => { m with s := m.s.dieWrite a bs }
    | v => m.refuse c a v

/-- Read `n` bytes at a die-local address. -/
def MoveAcc.read (m : MoveAcc) (c : CoreId) (a n : Nat) : MoveAcc × Marked :=
  (pieces a n).foldl (fun acc p => let r := acc.1.readPiece c p; (r.1, acc.2 ++ r.2)) (m, [])

/-- Write bytes at a die-local address. -/
def MoveAcc.write (m : MoveAcc) (c : CoreId) (a : Nat) (bs : Marked) : MoveAcc :=
  (pieces a bs.length).foldl (fun m p => m.writePiece c p.1 ((bs.drop (p.1 - a)).take p.2)) m

/-- Log a descriptor's refused accesses: the first in a record, the others counted (R22, R446). -/
def MoveAcc.done (m : MoveAcc) (c : CoreId) : State :=
  let info := fun x : Nat × Verdict => ({ cls := .deferred, code := 0x202, block := 3, inst := c.val, pkey := none, detail := x.2.detail
                                          address := x.1 } : FaultInfo)
  match m.outs with
  | [] => m.s
  | x :: r => r.foldl (fun s y => s.countOnly (info y)) (m.s.log (info x))

/-- The mover begins. -/
def MoveAcc.start (s : State) : MoveAcc := { s := s, outs := [], stop := false }

/-! ### Starting a descriptor of the mover -/

/-- The descriptor of kind `k` that the mover may perform now. -/
def State.moverReady (s : State) (c : CoreId) (k : DKind) : Option Active :=
  let q := (s.core c).mov.q
  if !(s.core c).live || q.freeze.isSome then none else q.ready k

/-- Perform a descriptor of kind `k`. -/
def State.moverRow (s : State) (c : CoreId) (k : DKind) (f : State → Active → State) : State :=
  match s.moverReady c k with
  | some a => f s a
  | none => s

/-- The mover's descriptor completes, unless it has ended failed. -/
def State.moverDone (s : State) (c : CoreId) (id : Nat) : State :=
  s.modQ c .mover fun q => q.modActive id fun a => if a.progress = .failed then a else { a with progress := .done }

/-- The mover's descriptor goes on over the network. -/
def State.moverBusy (s : State) (c : CoreId) (id : Nat) : State := s.setProgress c .mover id .busy

/-- Write marked rows at a pitch. -/
def MoveAcc.writeRows (m : MoveAcc) (c : CoreId) (dst pitch n : Nat) (rows : List Marked) : MoveAcc :=
  rows.zipIdx.foldl (fun m r => m.write c ((dst + r.2 * pitch) % 2 ^ 40) (r.1.take n)) m

/-- Data held early as rows. -/
def PrefetchData.rows (b : PrefetchData) (n count : Nat) : List Marked := chunksOf n count (b.bytes.zip b.poison)

/-- The data held early for a started descriptor. -/
def State.held (s : State) (c : CoreId) (a : Active) : Option PrefetchData :=
  (s.core c).mov.buffer.find? fun b => b.isFor a.entry

/-! ### MOVE (R177, R222, R223) -/

/-- Two byte ranges meet. -/
def meet (a n b m : Nat) : Bool := a < b + m && b < a + n

/-- A copy whose source and destination rows overlap. -/
def moveOverlaps (d : Desc) : Bool :=
  (List.range (mRows d)).any fun i => (List.range (mRows d)).any fun j =>
    meet ((mSrc d + i * mSrcPitch d) % 2 ^ 40) (mRowBytes d) ((mDst d + j * mDstPitch d) % 2 ^ 40) (mRowBytes d)

/-- One row of a copy. -/
def copyRow (c : CoreId) (d : Desc) (free : Option Nat) (m : MoveAcc) (i : Nat) : MoveAcc :=
  let dst := (mDst d + i * mDstPitch d) % 2 ^ 40
  let r := m.read c ((mSrc d + i * mSrcPitch d) % 2 ^ 40) (mRowBytes d)
  r.1.write c dst (match free with
    | some k => freeBytes k dst (mRowBytes d)
    | none => r.2)

/-- One row of a fill. -/
def fillRow (c : CoreId) (d : Desc) (m : MoveAcc) (i : Nat) : MoveAcc :=
  m.write c ((mDst d + i * mDstPitch d) % 2 ^ 40)
    ((List.range (mRowBytes d)).map fun b => (BitVec.ofNat 8 (mPattern d / 2 ^ (8 * (b % 4))), false))

/-- The rows of data held early as they are written: undefined for a copy whose ranges overlap. -/
def heldRows (d : Desc) (free : Nat) (rows : List Marked) : List Marked :=
  if moveOverlaps d then rows.zipIdx.map fun r => freeBytes free ((mDst d + r.2 * mDstPitch d) % 2 ^ 40) r.1.length else rows

/-- MOVE. A copy whose ranges overlap leaves its destination undefined; data fetched early is written instead of a second read. -/
def State.movePerform (s : State) (c : CoreId) (a : Active) : State :=
  let d := a.entry.bits
  match s.held c a with
  | some b =>
    let m := (MoveAcc.start s).writeRows c (mDst d) (mDstPitch d) (mRowBytes d) (heldRows d s.free (b.rows (mRowBytes d) (mRows d)))
    (((m.done c).modMov c fun m => m.discard a.entry).moverDone c a.entry.id).takeFree
  | none =>
    if mMode d = 1 then (((List.range (mRows d)).foldl (fillRow c d) (MoveAcc.start s)).done c).moverDone c a.entry.id
    else if moveOverlaps d then
      ((((List.range (mRows d)).foldl (copyRow c d (some s.free)) (MoveAcc.start s)).done c).takeFree).moverDone c a.entry.id
    else (((List.range (mRows d)).foldl (copyRow c d none) (MoveAcc.start s)).done c).moverDone c a.entry.id

/-! ### COMPRESS (R135 to R137, R180) -/

/-- The magnitude rank of an element: NaN above infinity above finite values, +0 and −0 lowest. -/
def magRank (f : Fmt) (b : Nat) : Nat := if (decodeF f b).isNan then f.signBit else f.mag b

/-- Positions `i` before `j` in the ranking of a group's four elements. -/
def outranks (f : Fmt) (g : List (Nat × Bool)) (i j : Nat) : Bool :=
  let x := magRank f ((g[i]?).getD (0, false)).1
  let y := magRank f ((g[j]?).getD (0, false)).1
  y < x || (x == y && i < j)

/-- The two kept positions of a group, the lower first. -/
def keptPair (f : Fmt) (g : List (Nat × Bool)) : Nat × Nat :=
  let kept := (List.range 4).filter fun i => ((List.range 4).filter fun j => j != i && outranks f g j i).length < 2
  (kept.headD 0, (kept.drop 1).headD 1)

/-- Element `i` of a group. -/
def elemAt (g : List (Nat × Bool)) (i : Nat) : Nat × Bool := (g[i]?).getD (0, false)

/-- Read a tile of `rows` rows of `cols` elements from Cupola. -/
def State.readTile (s : State) (c : CoreId) (base pitch size rows cols : Nat) : State × Array (Array (Nat × Bool)) × List Nat :=
  let r := s.readRows c ((List.range rows).map fun k => (base + k * pitch, cols * size))
  (r.1, (r.2.1.map fun row => (elements size cols row).toArray).toArray, r.2.2)

/-- Write rows to Cupola, noting accesses past its end. -/
def State.writeRowsAt (s : State) (c : CoreId) (rows : List (Nat × Marked)) : State × List Nat :=
  rows.foldl (fun acc r => (acc.1.cupWrite c r.1 r.2, acc.2 ++ (pastEnd r.1 r.2.length).toList)) (s, [])

/-- The scale area of a 2:4 tile: 128 bytes for blocks of 16, 64 for blocks of 32 (R132). -/
def scaleBytes (mode : Nat) : Nat := if mode = 1 then 128 else 64

/-- The block scales are copied. -/
def State.copyScales (s : State) (c : CoreId) (d : Desc) : State × List Nat :=
  if kMode d = 0 then (s, [])
  else
    let r := s.cupRead c (kScaleSrc d) (scaleBytes (kMode d))
    (r.1.cupWrite c (kScaleDst d) r.2, (pastEnd (kScaleSrc d) (scaleBytes (kMode d))).toList ++ (pastEnd (kScaleDst d) (scaleBytes (kMode d))).toList)

/-- Element (k, n) of a tile; +0 outside it. -/
def tileAt (t : Array (Array (Nat × Bool))) (k n : Nat) : Nat × Bool := (((t[k]?).getD #[])[n]?).getD (0, false)

/-- COMPRESS, dense to 2:4. -/
def State.compressTile (s : State) (c : CoreId) (d : Desc) : State × List Nat :=
  let f := (fmtOf (kFmt d)).getD .fp16
  let (s, t, o1) := s.readTile c (kDense d) (kPitch d) f.size (kK d) (kN d)
  let group := fun g n => (List.range 4).map fun i => tileAt t (4 * g + i) n
  let pair := fun g n => keptPair f (group g n)
  let rows := (List.range 32).map fun p => (kVal d + p * 32 * f.size, spell f.size ((List.range 32).map fun n =>
    let k := pair (p / 2) n
    elemAt (group (p / 2) n) (if p % 2 = 0 then k.1 else k.2)))
  let nib := fun g n => let k := pair g n; k.1 + 4 * k.2
  let hot := fun g n => (group g n).any (·.2)
  let idx : Marked := (List.range 256).map fun b =>
    let g := b / 16
    let n := 2 * (b % 16)
    (BitVec.ofNat 8 (nib g n + 16 * nib g (n + 1)), hot g n || hot g (n + 1))
  let pruned := ((List.range 16).map fun g => ((List.range 32).map fun n =>
    let k := pair g n
    ((List.range 4).filter fun i => i != k.1 && i != k.2 && f.mag (elemAt (group g n) i).1 != 0).length).sum).sum
  let (s, o2) := s.writeRowsAt c rows
  let (s, o3) := s.writeRowsAt c [(kIdx d, idx)]
  let (s, o4) := s.copyScales c d
  let (s, o5) := if kResultEn d then s.writeRowsAt c [(kResult d, (leBytes pruned 4).map fun b => (b, false))] else (s, [])
  (s.modMov c fun m => { m with pruneCount := satAdd m.pruneCount pruned }, o1 ++ o2 ++ o3 ++ o4 ++ o5)

/-- COMPRESS, 2:4 to dense: the whole 64 × 32 tile is written, +0 at every position that is not kept or lies beyond the extents (R137;
DESIGN CHOICE for the extents, log entry 131). No element is left out, so the count is 0, also where two indices are equal and v1 alone is kept
(R136; DESIGN CHOICE, log entry 131). -/
def State.decompressTile (s : State) (c : CoreId) (d : Desc) : State × List Nat :=
  let f := (fmtOf (kFmt d)).getD .fp16
  let (s, t, o1) := s.readTile c (kVal d) (32 * f.size) f.size 32 32
  let (s, idx, o2) := s.readRows c [(kIdx d, 256)]
  let area := idx.flatten
  let at_ := fun k n =>
    let g := k / 4
    let p := indexPair (bytesOf area) g n
    let hot := match area[g * 16 + n / 2]? with
      | some x => x.2
      | none => false
    let v := if p.2 = k % 4 then tileAt t (2 * g + 1) n else if p.1 = k % 4 then tileAt t (2 * g) n else (0, false)
    if kK d ≤ k ∨ kN d ≤ n then (0, false) else (v.1, v.2 || hot)
  let rows := (List.range 64).map fun k => (kDense d + k * kPitch d, spell f.size ((List.range 32).map fun n => at_ k n))
  let (s, o3) := s.writeRowsAt c rows
  let (s, o4) := s.copyScales c d
  let (s, o5) := if kResultEn d then s.writeRowsAt c [(kResult d, List.replicate 4 (0, false))] else (s, [])
  (s, o1 ++ o2 ++ o3 ++ o4 ++ o5)

/-- COMPRESS. -/
def State.compressPerform (s : State) (c : CoreId) (a : Active) : State :=
  let r := if kDir a.entry.bits then s.decompressTile c a.entry.bits else s.compressTile c a.entry.bits
  (r.1.noteBounds c .mover a.entry.id r.2).moverDone c a.entry.id

/-! ### Remote operations (R179, R151, R155, R182) -/

/-- A work item that sends nothing yet. -/
def NetItem.blank (kind : NetKind) (a : Active) : NetItem :=
  { kind := kind, dest := 0, window := 0, offset := 0, loc := 0, rowBytes := 0, rows := 1, localPitch := 0
    remotePitch := 0, signal := false, sigCnt := 0, sigInc := 0, group := 0, spec := false, row := 0, pos := 0, seq := 0
    desc := a.entry.id, off := a.entry.off }

/-- Queue work and go on over the network. -/
def State.moverSend (s : State) (c : CoreId) (a : Active) (items : List NetItem) : State :=
  (s.modMov c fun m => { m with work := m.work ++ items }).moverBusy c a.entry.id

/-- The item of a REMOTE_WRITE, REMOTE_READ or MCAST (Table TIL-11). -/
def remoteItem (kind : NetKind) (a : Active) : NetItem :=
  let d := a.entry.bits
  { NetItem.blank kind a with
    dest := BitVec.ofNat 16 (rDest d), window := BitVec.ofNat 8 (rWindow d), offset := rOffset d, loc := rLocal d
    rowBytes := rRowBytes d, rows := rRows d, localPitch := rLocalPitch d, remotePitch := rRemotePitch d
    signal := rSig d && kind != .read, sigCnt := BitVec.ofNat 6 (rSigCnt d), sigInc := BitVec.ofNat 16 (rSigInc d)
    group := BitVec.ofNat 4 (rDest d) }

/-- REMOTE_WRITE. -/
def State.remoteWritePerform (s : State) (c : CoreId) (a : Active) : State := s.moverSend c a [remoteItem .write a]

/-- MCAST. -/
def State.mcastPerform (s : State) (c : CoreId) (a : Active) : State := s.moverSend c a [remoteItem .mcast a]

/-- REMOTE_READ: data fetched early is written once it has all landed; refused early reads are sent again (R190). -/
def State.remoteReadPerform (s : State) (c : CoreId) (a : Active) : State :=
  let d := a.entry.bits
  match s.held c a with
  | none => s.moverSend c a [remoteItem .read a]
  | some b =>
    if b.remaining ≠ 0 then s
    else if b.refused then (s.modMov c fun m => m.discard a.entry).moverSend c a [remoteItem .read a]
    else
      let m := (MoveAcc.start s).writeRows c (rLocal d) (rLocalPitch d) (rRowBytes d) (b.rows (rRowBytes d) (rRows d))
      ((m.done c).modMov c fun m => m.discard a.entry).moverDone c a.entry.id

/-- The remote SIGNAL (Table TIL-13). -/
def State.signalPerform (s : State) (c : CoreId) (a : Active) : State :=
  let d := a.entry.bits
  s.moverSend c a [{ NetItem.blank .signal a with
    dest := BitVec.ofNat 16 (gnDest d), window := BitVec.ofNat 8 (gnWindow d), signal := true
    sigCnt := BitVec.ofNat 6 (gnCounter d), sigInc := BitVec.ofNat 16 (gnValue d) }]

/-- An expert table entry (Table SPA-5). -/
structure Expert where
  dest : Nat
  window : Nat
  offset : Nat
  capacity : Nat
  rowBase : Nat
  token : Nat
  arrive : Nat
deriving DecidableEq, Repr

/-- Decode an expert table entry. -/
def expertOf (bs : List Byte) : Expert :=
  { dest := leNat (bs.take 2), window := leNat ((bs.drop 2).take 1), offset := leNat ((bs.drop 4).take 4)
    capacity := leNat ((bs.drop 8).take 2), rowBase := leNat ((bs.drop 10).take 2), token := leNat ((bs.drop 12).take 1) % 64
    arrive := leNat ((bs.drop 13).take 1) % 64 }

/-- Read the index list and the expert table of a SCATTER or GATHER. -/
def State.readRoutes (s : State) (c : CoreId) (d : Desc) : State × List Nat × Array Expert × List Nat :=
  let (s, idx, o1) := s.readRows c [(gIndex d, 2 * (gT d * gK d))]
  let (s, tab, o2) := s.readRows c ((List.range (gE d)).map fun e => (gTable d + 16 * e, 16))
  (s, (elements 2 (gT d * gK d) idx.flatten).map (·.1), (tab.map fun x => expertOf (bytesOf x)).toArray, o1 ++ o2)

/-- A SCATTER's walk (R151): used and dropped counts, the drop bitmap, the slot map, and the rows to send. -/
structure Walk where
  used : Array Nat
  dropped : Array Nat
  drop : List Nat
  slots : List Nat
  sends : List NetItem

/-- Choice `j` of token `i` in the walk. -/
def walkChoice (d : Desc) (a : Active) (idx : Array Nat) (tab : Array Expert) (i : Nat) (w : Walk × Nat) (j : Nat) : Walk × Nat :=
  let e := (idx[i * gK d + j]?).getD 0xFFFF
  let x := (tab[e]?).getD (expertOf [])
  let u := (w.1.used[e]?).getD 0
  if e = 0xFFFF then ({ w.1 with slots := w.1.slots ++ [0xFFFF] }, w.2)
  else if gE d ≤ e ∨ u = x.capacity then
    ({ w.1 with slots := w.1.slots ++ [0xFFFF], dropped := w.1.dropped.modify e (· + 1) }, w.2 + 2 ^ j)
  else
    let item : NetItem := { NetItem.blank .write a with
      dest := BitVec.ofNat 16 x.dest, window := BitVec.ofNat 8 x.window, offset := (x.offset + u * gRowBytes d) % 2 ^ 32
      loc := gRowAddr d + i * gRowPitch d, rowBytes := gRowBytes d, signal := true, sigCnt := BitVec.ofNat 6 x.token, sigInc := 1 }
    ({ w.1 with slots := w.1.slots ++ [(x.rowBase + u) % 65536], used := w.1.used.modify e (· + 1), sends := w.1.sends ++ [item] }, w.2)

/-- Token `i` in the walk. -/
def walkToken (d : Desc) (a : Active) (idx : Array Nat) (tab : Array Expert) (w : Walk) (i : Nat) : Walk :=
  let r := (List.range (gK d)).foldl (walkChoice d a idx tab i) (w, 0)
  { r.1 with drop := r.1.drop ++ [r.2] }

/-- Write a count register that a descriptor names. -/
def State.putCount (s : State) (c : CoreId) (d : Desc) (v : Word) : State :=
  if gCountReg d = 0 then s
  else s.modCore c fun k => { k with countReg := upd k.countReg (Fin.ofNat 16 (gCountReg d - 0x80)) fun _ => v }

/-- SCATTER (R151, R152). Its rows are read at their Cupola offsets. -/
def State.scatterPerform (s : State) (c : CoreId) (a : Active) : State :=
  let d := a.entry.bits
  let (s, idx, tab, o1) := s.readRoutes c d
  let w := (List.range (gT d)).foldl (walkToken d a idx.toArray tab)
    { used := (List.replicate (gE d) 0).toArray, dropped := (List.replicate (gE d) 0).toArray, drop := [], slots := [], sends := [] }
  let arrive := tab.toList.map fun x => ({ NetItem.blank .signal a with
    dest := BitVec.ofNat 16 x.dest, window := BitVec.ofNat 8 x.window, signal := true, sigCnt := BitVec.ofNat 6 x.arrive, sigInc := 1 } : NetItem)
  let clean := fun bs : List Byte => bs.map fun b => (b, false)
  let recs := (List.range (gE d)).flatMap fun e =>
    leBytes ((w.used[e]?).getD 0 % 65536 + 65536 * (((w.dropped[e]?).getD 0) % 65536)) 4
  let (s, o2) := s.writeRowsAt c [(gDrop d, clean (w.drop.map (BitVec.ofNat 8 ·))), (gSlot d, clean (w.slots.flatMap fun x => leBytes x 2)),
    (gRecord d, clean recs)]
  let moved := w.sends.length
  let lost := (w.drop.map fun b => (bitsSet b 8).length).sum
  let s := (s.noteBounds c .mover a.entry.id (o1 ++ o2)).modMov c fun m => { m with
    dropCount := satAdd m.dropCount lost, movedCount := satAdd m.movedCount moved }
  (s.putCount c d (BitVec.ofNat 32 moved)).moverSend c a (w.sends ++ arrive)

/-- GATHER (R155): rows with a slot are read remotely, the others become +0. -/
def State.gatherPerform (s : State) (c : CoreId) (a : Active) : State :=
  let d := a.entry.bits
  let (s, idx, tab, o1) := s.readRoutes c d
  let (s, sm, o2) := s.readRows c [(gSlot d, 2 * (gT d * gK d))]
  let slots := (elements 2 (gT d * gK d) sm.flatten).map (·.1)
  let rows := (idx.zip slots).zipIdx.map fun x =>
    let dst := gRowAddr d + x.2 * gRowPitch d
    match tab[x.1.1]? with
    | some e => if x.1.2 = 0xFFFF then (dst, none) else (dst, some ({ NetItem.blank .read a with
        dest := BitVec.ofNat 16 e.dest, window := BitVec.ofNat 8 e.window
        offset := (((e.offset : Int) + ((x.1.2 : Int) - e.rowBase) * gRowBytes d) % 4294967296).toNat
        loc := dst, rowBytes := gRowBytes d } : NetItem))
    | none => (dst, none)
  let (s, o3) := s.writeRowsAt c ((rows.filter fun r => r.2.isNone).map fun r => (r.1, List.replicate (gRowBytes d) (0, false)))
  let items := rows.filterMap (·.2)
  let s := s.noteBounds c .mover a.entry.id (o1 ++ o2 ++ o3)
  let s := if gCountReg d = 0 then s else (s.putCount c d (Config.gatherCount s.free)).takeFree
  if items.isEmpty then s.moverDone c a.entry.id else s.moverSend c a items

/-- The mover's descriptors whose packets have all left, and for reads all been answered, complete (Table TIL-4). -/
def State.moverSettle (s : State) (c : CoreId) : State :=
  let k := s.core c
  let sent := fun id => !k.mov.work.any fun w => !w.spec && w.kind != .fence && w.desc == id
  let answered := fun id => !k.outst.any fun o => o.unit.toNat == 5 && !o.spec && o.pkt.opcode != 0x20 && o.desc == id
  let reads := fun a : Active => isKind .remoteRead a.entry.bits || isKind .gather a.entry.bits
  let ended := fun a : Active => a.progress == .busy && sent a.entry.id && (!reads a || answered a.entry.id)
  s.modQ c .mover fun q => { q with active := q.active.map fun a => if ended a then { a with progress := .done } else a }

/-! ### Run-ahead (R189, R190) -/

/-- The position after the next descriptor, without performing anything. -/
def Sequencer.ahead (q : Sequencer) : Nat → Sequencer
  | 0 => q
  | n + 1 =>
    let q := match q.loop with
      | some l => match l.advance with
        | some l' => { q with loop := some l' }
        | none => { q with loop := none }
      | none => match q.segment with
        | some a => { q with segment := some (a + 64) }
        | none => if q.head = q.tail then q else q.release 1
    q.ahead n

/-- The descriptor that a run-ahead names: its bits and offset, and the entry it is queued as, or else how many are dispatched before it. -/
def State.prefetchTarget (s : State) (c : CoreId) (src : PrefetchSrc) : Option (Desc × Nat × Option Nat × Nat) :=
  let k := s.core c
  match src with
  | .ahead n =>
    match k.seq.wait with
    | some w =>
      if w.kind = .waitDesc ∧ k.seq.freeze.isNone then
        ((s.modSeq c fun q => q.ahead (n.val + 1)).nextDesc c).map fun x => (x.d, x.off, none, n.val + 1)
      else none
    | none => none
  | .moverQueue n => if k.mov.q.wait.isSome ∧ n.val ≠ 0 then (k.mov.q.queue[n.val]?).map fun e => (e.bits, e.off, some e.id, 0) else none

/-- Bytes the prefetch buffer holds. -/
def Mover.bufferBytes (m : Mover) : Nat := (m.buffer.map fun b => b.bytes.length).sum

/-- A MOVE that may be fetched early (R189). -/
def earlyMove (c : CoreId) (d : Desc) : Bool :=
  isKind .move d && mMode d == 0
    && (match region (mSrc d) with
      | .dome _ => true
      | .cupola x => x == c
      | _ => false)
    && region (mDst d) == .cupola c

/-- An early MOVE's rows; none when an access would be refused. The read shows to nobody: it logs, counts and marks nothing (R190, R191). -/
def State.earlyRows (s : State) (c : CoreId) (d : Desc) : Option Marked :=
  (List.range (mRows d)).foldl (fun acc i =>
    let a := (mSrc d + i * mSrcPitch d) % 2 ^ 40
    acc.bind fun x =>
      let ok := (pieces a (mRowBytes d)).all fun p => s.verdict (s.core c).owner p.1 false == .ok && !(region p.1).isRegs
      if ok then some (x ++ s.mem.peekP a (mRowBytes d)) else none) (some [])

/-- An early read starts: a MOVE's data enters the buffer, a REMOTE_READ's packets are queued with the speculation mark. -/
def State.prefetchRead (s : State) (c : CoreId) (src : PrefetchSrc) : State :=
  let k := s.core c
  match s.prefetchTarget c src with
  | none => s
  | some (d, off, forId, after) =>
    let m := k.mov
    if !k.live || m.q.freeze.isSome || !dPrefetch d || descBad false d
      || m.buffer.any (fun b => b.forId == forId && b.after == after && b.off == off && b.bits == d) then s
    else if earlyMove c d then
      if 65536 < m.bufferBytes + mRowBytes d * mRows d then s
      else match s.earlyRows c d with
        | none => s
        | some data => s.modMov c fun m => { m with
            buffer := m.buffer ++ [{ id := m.bufferNext, off := off, bits := d, after := after, forId := forId, bytes := bytesOf data, poison := data.map (·.2)
                                     remaining := 0, refused := false }]
            bufferNext := m.bufferNext + 1 }
    else if isKind .remoteRead d then
      let n := rRowBytes d * rRows d
      if 65536 < m.bufferBytes + n then s
      else s.modMov c fun m => { m with
        buffer := m.buffer ++ [{ id := m.bufferNext, off := off, bits := d, after := after, forId := forId, bytes := List.replicate n 0, poison := List.replicate n false
                                 remaining := rRows d * ((rRowBytes d + 511) / 512), refused := false }]
        work := m.work ++ [{ kind := .read, dest := BitVec.ofNat 16 (rDest d), window := BitVec.ofNat 8 (rWindow d)
                             offset := rOffset d, loc := 0, rowBytes := rRowBytes d, rows := rRows d, localPitch := rRowBytes d
                             remotePitch := rRemotePitch d, signal := false, sigCnt := 0, sigInc := 0, group := 0, spec := true
                             row := 0, pos := 0, seq := 0, desc := m.bufferNext, off := off }]
        bufferNext := m.bufferNext + 1 }
    else s

/-! ### The meanings -/

/-- A mover descriptor's dispatch, or its performance. -/
def State.moverAct (s : State) (c : CoreId) (act : DescAct) (k : DKind) (f : State → CoreId → Active → State) : State :=
  match act with
  | .dispatch => s.dispatchQueued c (isKind k)
  | .perform => s.moverRow c k fun s a => f s c a

/-- MOVE (R177). -/
def execMove (c : CoreId) (a : DescAct) (s : State) : Out := ev s fun s => s.moverAct c a .move State.movePerform
/-- GATHER (R155). -/
def execGather (c : CoreId) (a : DescAct) (s : State) : Out := ev s fun s => s.moverAct c a .gather State.gatherPerform
/-- SCATTER (R151). -/
def execScatter (c : CoreId) (a : DescAct) (s : State) : Out := ev s fun s => s.moverAct c a .scatter State.scatterPerform
/-- REMOTE_WRITE (R179). -/
def execRemoteWrite (c : CoreId) (a : DescAct) (s : State) : Out := ev s fun s => s.moverAct c a .remoteWrite State.remoteWritePerform
/-- REMOTE_READ (R179). -/
def execRemoteRead (c : CoreId) (a : DescAct) (s : State) : Out := ev s fun s => s.moverAct c a .remoteRead State.remoteReadPerform
/-- MCAST (R179). -/
def execMcast (c : CoreId) (a : DescAct) (s : State) : Out := ev s fun s => s.moverAct c a .mcast State.mcastPerform
/-- COMPRESS (R135). -/
def execCompress (c : CoreId) (a : DescAct) (s : State) : Out := ev s fun s => s.moverAct c a .compress State.compressPerform
/-- SIGNAL (R182): performed at dispatch when local, queued on the mover when remote. -/
def execSignal (c : CoreId) (a : DescAct) (s : State) : Out := ev s fun s =>
  match a with
  | .dispatch => match s.nextDesc c with
    | some n => if (dPerformer n.d).isSome then s.dispatchQueued c (isKind .signal) else s.signalLocal c
    | none => s
  | .perform => s.moverRow c .signal fun s a => s.signalPerform c a
/-- PREFETCH (R189). -/
def execPrefetch (c : CoreId) (src : PrefetchSrc) (s : State) : Out := ev s fun s => s.prefetchRead c src

end Sys2Proof.Machine
end

