-- ==== Sys2Proof/Machine/Packets.lean ====
section
/-! DEFINITION. Spire packets (10): the header of Table FAB-2, opcodes, VCs, malformed packets (R264), allowed keys (R275), the
held counts (R288), epoch flips (R286), the two paths (R404), and routing, dropping and multicasting at a router (R266 to R284). -/

namespace Sys2Proof

open Machine

/-! ### The header (Tables FAB-2 to FAB-4) -/

/-- The 256-bit header. -/
def Packet.header (p : Packet) : Nat :=
  p.vc.toNat + 4 * b2n p.epoch + 8 * b2n p.amode + 16 * p.opcode.toNat + 1024 * p.len.toNat + 2 ^ 16 * p.pkey.toNat
    + 2 ^ 32 * p.destDie.toNat + 2 ^ 38 * p.destCore.toNat + 2 ^ 42 * p.destUnit.toNat + 2 ^ 46 * p.destRank.toNat
    + 2 ^ 58 * b2n p.mc + 2 ^ 59 * b2n p.spec + 2 ^ 60 * b2n p.turned + 2 ^ 61 * b2n p.down + 2 ^ 62 * b2n p.escP
    + 2 ^ 64 * p.srcDie.toNat + 2 ^ 70 * p.srcCore.toNat + 2 ^ 74 * p.srcUnit.toNat + 2 ^ 78 * p.tag.toNat
    + 2 ^ 90 * p.hops.toNat + 2 ^ 96 * p.window.toNat + 2 ^ 104 * p.sigCnt.toNat + 2 ^ 112 * p.sigInc.toNat
    + 2 ^ 128 * p.offset.toNat + 2 ^ 160 * p.seq.toNat + 2 ^ 176 * p.aux.toNat + 2 ^ 192 * p.poison.toNat

/-- The packet a header and a payload make. -/
def packetOf (h : Nat) (payload : List Byte) : Packet :=
  { vc := BitVec.ofNat 2 h, epoch := bitOf h 2, amode := bitOf h 3, opcode := BitVec.ofNat 6 (field h 4 6)
    len := BitVec.ofNat 6 (field h 10 6), pkey := BitVec.ofNat 16 (field h 16 16), destDie := BitVec.ofNat 6 (field h 32 6)
    destCore := BitVec.ofNat 4 (field h 38 4), destUnit := BitVec.ofNat 4 (field h 42 4), destRank := BitVec.ofNat 12 (field h 46 12)
    mc := bitOf h 58, spec := bitOf h 59, turned := bitOf h 60, down := bitOf h 61, escP := bitOf h 62
    srcDie := BitVec.ofNat 6 (field h 64 6), srcCore := BitVec.ofNat 4 (field h 70 4), srcUnit := BitVec.ofNat 4 (field h 74 4)
    tag := BitVec.ofNat 12 (field h 78 12), hops := BitVec.ofNat 6 (field h 90 6), window := BitVec.ofNat 8 (field h 96 8)
    sigCnt := BitVec.ofNat 6 (field h 104 6), sigInc := BitVec.ofNat 16 (field h 112 16), offset := BitVec.ofNat 32 (field h 128 32)
    seq := BitVec.ofNat 16 (field h 160 16), aux := BitVec.ofNat 16 (field h 176 16), poison := BitVec.ofNat 64 (field h 192 64)
    payload := payload }

/-- A packet with every field 0. -/
def Packet.blank : Packet := packetOf 0 []

/-- The bytes of a packet as a link carries them. -/
def Packet.bytes (p : Packet) : List Byte := leBytes p.header 32 ++ p.payload

/-- A packet's place in the input buffers: its bytes. -/
def Packet.size (p : Packet) : Nat := 32 + p.payload.length

/-- The opcode as a number (Table FAB-4). -/
def Packet.op (p : Packet) : Nat := p.opcode.toNat

/-- MGMT, EVENT and EPOCH_MARK are management packets (R275). -/
def Packet.isMgmt (p : Packet) : Bool := p.op == 0x10 || p.op == 0x11 || p.op == 0x21

/-- A request: it receives exactly one answer (R262). A FENCE_MARK is one on its way out. -/
def Packet.isReq (p : Packet) : Bool :=
  p.op == 1 || p.op == 2 || p.op == 3 || p.op == 5 || p.op == 6 || (p.op == 0x20 && (p.vc == 0 || (p.vc == 3 && !p.escP)))

/-- The VC an opcode is injected on (Table FAB-4); a FENCE_MARK that arrives on RSP is a returned one. -/
def Packet.stampedVc (p : Packet) : BitVec 2 :=
  if p.isMgmt then 2
  else if p.op = 4 ∨ p.op = 0x3F ∨ (p.op = 0x20 ∧ p.vc = 1) then 1
  else if p.op = 1 ∨ p.op = 2 ∨ p.op = 3 ∨ p.op = 5 ∨ p.op = 6 ∨ p.op = 0x20 then 0 else p.vc

/-- The buffer class of a packet: its VC, ESC split by ESC_P (R265). -/
def Packet.cls (p : Packet) : VcClass :=
  if p.vc = 0 then .req else if p.vc = 1 then .rsp else if p.vc = 2 then .mgt else if p.escP then .escRsp else .escReq

/-- The number of a class (CVC, Table PAR-7). -/
def clsIdx : VcClass → Fin 5
  | .req => 0
  | .rsp => 1
  | .mgt => 2
  | .escReq => 3
  | .escRsp => 4

/-- A reserved opcode. -/
def badOpcode (op : Nat) : Bool := !(decide (1 ≤ op ∧ op ≤ 6) || op == 0x10 || op == 0x11 || op == 0x20 || op == 0x21 || op == 0x3F)

/-- A DEST_UNIT that is reserved in a header (Table FAB-3, R261). -/
def badUnit (u : Nat) : Bool := u == 4 || u == 6 || (decide (9 ≤ u ∧ u ≤ 11))

/-- A malformed packet (R264). -/
def Packet.malformed (p : Packet) : Bool :=
  badOpcode p.op || badUnit p.destUnit.toNat || decide (32 < p.len.toNat) || (p.op == 3 && p.len == 0)
    || p.payload.length != (if p.op = 3 then 0 else 16 * p.len.toNat)

/-- DETAIL of 0x201 (Table FLT-4). -/
def Packet.srcDetail (p : Packet) : Nat := p.srcDie.toNat + p.srcCore.toNat * 64 + p.srcUnit.toNat * 1024 + p.tag.toNat * 16384

/-- DETAIL of a window access's 0x202. -/
def Packet.winDetail (p : Packet) : Nat := p.window.toNat + 256 * p.op

/-- Bytes of a window access (R226). -/
def Packet.span (p : Packet) : Nat := if p.op = 5 then 1 else 16 * p.len.toNat

/-- An EVENT that is a violation notice (R277). -/
def Packet.isNotice (p : Packet) : Bool := p.op == 0x11 && p.offset == 0 && p.len == 2

/-- DETAIL of 0x203 with a reason of Table FAB-5. -/
def Packet.routeDetail (p : Packet) (reason : Nat) : Nat := p.destDie.toNat + 64 * b2n p.epoch + 256 * reason

/-- The payload bytes with their marks (POISON, Table FAB-2). -/
def Packet.marked (p : Packet) : Marked := p.payload.zipIdx.map fun x => (x.1, p.poison.getLsbD (x.2 / 8))

/-- A word of the payload is poisoned. -/
def Packet.poisoned (p : Packet) : Bool := p.marked.any (·.2)

/-- The POISON field of marked data. -/
def poisonField (bs : Marked) : BitVec 64 :=
  BitVec.ofNat 64 ((List.range 64).map fun i => if ((bs.drop (8 * i)).take 8).any (·.2) then 2 ^ i else 0).sum

end Sys2Proof

namespace Sys2Proof.Machine

/-! ### Spire ports, buffers and held counts -/

/-- The number of a Spire port (Table FAB-1). -/
def portNum : SpirePort → Fin 6
  | .edge e => ⟨e.val, by omega⟩
  | .loc => 4
  | .mgmt => 5

/-- The Spire port with a number. -/
def portOf (n : Nat) : Option SpirePort := if h : n < 4 then some (.edge ⟨n, h⟩) else if n = 4 then some .loc else if n = 5 then some .mgmt else none

/-- The number of an epoch version. -/
def ver (b : Bool) : Fin 2 := if b then 1 else 0

/-- A link is up: ACTIVE, or in a retrain with its traffic withheld (R313). -/
def Edge.linked (x : Edge) : Bool := x.state == 6 || x.state == 7 || x.retraining

/-- An edge carries packets: its link is up, and it is not marked down (R280). -/
def State.carries (s : State) (e : EdgeId) : Bool := (s.edges[e]).linked && !bitOf s.spire.down.toNat e.val

/-- Spire and the edges run: the die is not in D2 (R333, R402). -/
def State.spireOn (s : State) : Bool := s.dstate == .up

/-- A packet becomes held (R288). -/
def Spire.enterHeld (p : Spire) (epoch : Bool) : Spire :=
  { p with enter := upd p.enter (ver epoch) (· + 1), held := upd p.held (ver epoch) (· + 1) }

/-- A packet stops being held (R288). -/
def Spire.exitHeld (p : Spire) (epoch : Bool) : Spire :=
  { p with exits := upd p.exits (ver epoch) (· + 1), held := upd p.held (ver epoch) (· - 1) }

/-- The buffer of a port and class. -/
def Spire.buf (p : Spire) (port : SpirePort) (v : VcClass) : List Packet := (p.inq[portNum port])[clsIdx v]

/-- Change a buffer. -/
def Spire.modBuf (p : Spire) (port : SpirePort) (v : VcClass) (f : List Packet → List Packet) : Spire :=
  { p with inq := upd p.inq (portNum port) fun b => upd b (clsIdx v) f }

/-- A packet enters Spire at a port and becomes held. -/
def State.enterAt (s : State) (port : SpirePort) (p : Packet) : State :=
  s.modSpire fun x => (x.enterHeld p.epoch).modBuf port p.cls (· ++ [p])

/-- Bytes in a buffer. -/
def bufBytes (l : List Packet) : Nat := (l.map Packet.size).sum

/-- MGMT's input buffer for a class has room for what Campanile sends (Table FAB-8): an MGT packet of at most 96 bytes, or an answer. -/
def State.mgmtRoom (s : State) (v : VcClass) : Bool :=
  if v = .mgt then decide (bufBytes (s.spire.buf .mgmt v) + 96 ≤ 2048) else decide (bufBytes (s.spire.buf .mgmt v) + 32 ≤ 8192)

/-- LOCAL's input buffer for a class has room for the largest packet (Table FAB-8). -/
def State.localRoom (s : State) (v : VcClass) : Bool := decide (bufBytes (s.spire.buf .loc v) + 544 ≤ 8192)

/-! ### Events of the fabric (Table ONA-13) and the two paths (R404) -/

/-- The number of modules in a mask. -/
def popcount (v w : Nat) : Nat := (bitsSet v w).length

/-- LINK to both ports; Onaune learns the edge's state. -/
def State.linkEvent (s : State) (e : EdgeId) (old new : BitVec 4) : State :=
  let x := s.edges[e]
  (s.modBlf fun b => { b with known := upd b.known e fun _ => new }).postBoth 4
    (leBytes (e.val + 256 * old.toNat + 65536 * new.toNat + 0x1000000 * x.reason.toNat) 4 ++ leBytes (popcount x.on.toNat 20) 1)

/-- An edge's state as the data path shows it: DOWN when marked down, RETRAIN all through a retrain. -/
def State.seenState (s : State) (e : EdgeId) : BitVec 4 :=
  if bitOf s.spire.down.toNat e.val then 8 else if (s.edges[e]).retraining then 7 else (s.edges[e]).state

/-- A live edge state. -/
def liveCode (c : BitVec 4) : Bool := c == 6 || c == 7

/-- Log 0x801 with a case of Table FLT-7. -/
def State.mismatch (s : State) (n die : Nat) : State :=
  s.log { cls := .corrected, code := 0x801, block := 0x19, inst := 0, pkey := none, detail := n, address := die }

/-- Onaune compares the paths for one edge: case 1, and a LINK event when it had the edge's state wrong. -/
def State.compareEdge (s : State) (e : EdgeId) : State :=
  let known := s.blf.known[e]
  let seen := s.seenState e
  let s := if liveCode known ∧ liveCode seen = false then s.mismatch 1 (field (s.edges[e]).peer.toNat 0 6) else s
  if liveCode known = liveCode seen then s else s.linkEvent e known seen

/-- Onaune compares the paths for every edge. -/
def State.compareEdges (s : State) : State := (List.finRange 4).foldl State.compareEdge s

/-- A case that the data path shows: it is logged, and Onaune reads the edges again (R404). -/
def State.disagree (s : State) (n die : Nat) : State := (s.mismatch n die).compareEdges

/-- A route entry (Table FAB-6); in boot mode the entries of R267 (R417). -/
def State.routeEntry (s : State) (epoch : Bool) (die : BitVec 6) : Nat :=
  if s.spire.bootMode then (resetRoute s.siteX s.siteY die.toNat).toNat
  else ((s.spire.route[ver epoch])[Fin.ofNat 64 die.toNat]).toNat

/-- Case 5: the route entry for a die gives an edge that is down. -/
def State.compareRoute (s : State) (die : BitVec 6) : State :=
  if die = s.dieId then s
  else match portOf (field (s.routeEntry s.spire.cur die) 0 3) with
    | some (.edge e) => if s.carries e then s else s.disagree 5 die.toNat
    | _ => s

/-- A packet on its way out over an edge: HOPS and TURNED (R266, Table FAB-2). -/
def outward (e : EdgeId) (p : Packet) : Packet := { p with hops := p.hops + 1, turned := p.turned || e != 3 }

/-! ### Epochs (R286) -/

/-- The EPOCH_MARK sent over an edge. -/
def State.markPacket (s : State) (e : EdgeId) : Packet :=
  { Packet.blank with vc := 2, opcode := 0x21, epoch := s.spire.cur, aux := s.spire.gen
                      destDie := BitVec.ofNat 6 (s.edges[e]).peer.toNat, destUnit := 8, srcDie := s.dieId, srcUnit := 8 }

/-- Queue a packet for an edge. -/
def State.toEdge (s : State) (e : EdgeId) (p : Packet) : State := s.modEdge e fun x => { x with outq := upd x.outq (clsIdx p.cls) (· ++ [p]) }

/-- The die flips: CUR, GEN, LOCK and LOADED, EPOCH_MARK over every live edge to a compute neighbour, and an EPOCH event. -/
def State.flip (s : State) (cause : Nat) : State :=
  let s := s.modSpire fun p => { p with cur := !p.cur, gen := p.gen + 1, lock := true, loaded := 0 }
  let s := (List.finRange 4).foldl (fun (s : State) e =>
    if s.attach e = 1 ∧ s.carries e then (s.modSpire fun p => p.enterHeld p.cur).toEdge e (outward e (s.markPacket e)) else s) s
  s.postBoth 0xA (leBytes (b2n s.spire.cur) 2 ++ leBytes s.spire.gen.toNat 2 ++ leBytes cause 1)

/-- An EPOCH_MARK is handled: an old or repeated one does nothing; a new one flips a die that is ready, and is logged on
another. -/
def State.epochMark (s : State) (e : EdgeId) (p : Packet) : State :=
  let n := (p.aux - s.spire.gen).toNat
  if n = 0 ∨ 32767 < n then s
  else if s.spire.lock ∨ s.spire.loaded ≠ 3 ∨ p.epoch = s.spire.cur then
    s.log { cls := .corrected, code := 0x203, block := 0x10, inst := e.val, pkey := some p.pkey, detail := p.routeDetail 0, address := 0 }
  else s.flip 1

/-! ### Arrival from an edge -/

/-- The header as Spire stamps it at an edge that carries foreign traffic (R274). -/
def State.stampForeign (s : State) (e : EdgeId) (p : Packet) : Packet :=
  { p with srcDie := s.dieId, srcCore := 0, srcUnit := BitVec.ofNat 4 (12 + e.val), epoch := s.spire.cur, hops := 0, vc := p.stampedVc }

/-- A packet arrives from an edge: stamped where foreign, held, and, when it carries the other epoch on a die that is ready, a
flip (R286). -/
def State.arrive (s : State) (e : EdgeId) (p : Packet) : State :=
  let p := if s.foreign e then s.stampForeign e p else p
  let s := s.enterAt (.edge e) p
  if p.op ≠ 0x21 ∧ p.epoch ≠ s.spire.cur ∧ s.spire.lock = false ∧ s.spire.loaded = 3 then s.flip 2 else s

/-! ### Leaving the fabric at a router -/

/-- A packet leaves the fabric here. -/
def State.leave (s : State) (p : Packet) : State := s.modSpire fun x => x.exitHeld p.epoch

/-- The key check of R275. -/
def State.keyOk (s : State) (port : SpirePort) (p : Packet) : Bool :=
  if p.isMgmt then p.pkey == 0
  else p.vc != 2 && p.pkey != 0
    && (s.spire.keys[portNum port]).toList.any fun w => bitOf w.toNat 16 && BitVec.ofNat 16 w.toNat == p.pkey

/-- A violation notice for a dropped packet (R277). -/
def State.noticeFor (s : State) (p : Packet) : Packet :=
  { Packet.blank with vc := 2, epoch := s.spire.cur, opcode := 0x11, len := 2, destDie := p.srcDie, destUnit := 8, srcDie := s.dieId
                      srcUnit := 8, aux := 0x201, payload := leBytes p.header 32 }

/-- A key mismatch or a malformed packet: dropped without an answer, counted, logged, and notified to Campanile of its source. -/
def State.keyDrop (s : State) (port : SpirePort) (p : Packet) : State :=
  let s := (s.leave p).modSpire fun x => { x with dropKey := satAdd x.dropKey 1 }
  let s := s.log { cls := .contained, code := 0x201, block := 0x10, inst := (portNum port).val, pkey := some p.pkey, detail := p.srcDetail
                   address := p.offset.toNat }
  s.enterAt .mgmt (s.noticeFor p)

/-- A packet from a fenced die (R406): dropped and counted; the two paths disagree (R404 case 3). -/
def State.fencedDrop (s : State) (p : Packet) : State :=
  ((s.leave p).modSpire fun x => { x with dropKey := satAdd x.dropKey 1 }).disagree 3 p.srcDie.toNat

/-- An answer to a request (R262): its header names the request's source, window, offset and index. -/
def State.answerTo (s : State) (p : Packet) (op : Nat) (aux : Nat) (data : Marked) : Packet :=
  { Packet.blank with vc := 1, epoch := s.spire.cur, opcode := BitVec.ofNat 6 op, len := BitVec.ofNat 6 (data.length / 16), pkey := p.pkey
                      destDie := p.srcDie, destCore := p.srcCore, destUnit := p.srcUnit, srcDie := s.dieId, srcCore := p.destCore
                      srcUnit := 7, tag := p.tag, window := p.window, offset := p.offset, seq := p.seq, aux := BitVec.ofNat 16 aux
                      poison := poisonField data, payload := bytesOf data }

/-- The output of a packet at this router and the packet as it leaves: escape under R269, up*/down* under R270, none for a route
drop. -/
def State.route (s : State) (p : Packet) : Option SpirePort × Packet :=
  if p.destDie = s.dieId then
    (some (if p.destUnit = 8 then .mgmt else if 12 ≤ p.destUnit.toNat then .edge (Fin.ofNat 4 p.destUnit.toNat) else .loc), p)
  else if bitOf s.blf.fenced.toNat p.destDie.toNat then (none, p)
  else
    let r := s.routeEntry p.epoch p.destDie
    let port := field r 0 3
    if bitOf r 8 = false ∨ port = 7 then (none, p)
    else if p.vc ≠ 3 ∧ !(bitOf r 3 || (port == 3 && p.turned)) then (portOf port, p)
    else
      let q := if p.vc = 3 then p else { p with vc := 3, escP := p.vc != 0 }
      let up := bitOf r 7
      if q.down ∧ up then (none, q) else (portOf (field r 4 3), { q with down := q.down || !up })

/-- The class of what a packet's DEST_UNIT takes at LOCAL: requests and answers apart; management packets have no unit there. -/
def State.deliverLocal (s : State) (p : Packet) : State :=
  if p.isMgmt then s
  else if p.isReq then s.modSpire fun x => { x with localReq := x.localReq ++ [p] }
  else s.modSpire fun x => { x with localRsp := x.localRsp ++ [p] }

/-- Count and log a route drop (R271). -/
def State.countDrop (s : State) (port : SpirePort) (p : Packet) (hops : Bool) : State :=
  let s := (s.leave p).modSpire fun x => if hops then { x with dropHops := satAdd x.dropHops 1 } else { x with dropRoute := satAdd x.dropRoute 1 }
  s.log { cls := .corrected, code := 0x203, block := 0x10, inst := (portNum port).val, pkey := some p.pkey, detail := p.routeDetail 5, address := 0 }

/-- The NACK UNREACHABLE of a router that drops a request; where it cannot be routed either, it is dropped unanswered. -/
def State.nackBack (s : State) (port : SpirePort) (p : Packet) : State :=
  let n := s.answerTo p 0x3F 5 []
  let s := s.modSpire fun x => x.enterHeld n.epoch
  match s.route n with
  | (some (.edge e), q) =>
    if s.carries e = false then s.countDrop port q false
    else if q.hops = 63 then s.countDrop port q true
    else s.toEdge e (outward e q)
  | (some .loc, q) => (s.leave q).deliverLocal q
  | (some .mgmt, q) => (s.leave q).modSpire fun x => { x with mgmtQ := x.mgmtQ ++ [q] }
  | (none, q) => s.countDrop port q false

/-- A route drop: counted, logged, and answered when it is a request. -/
def State.routeDrop (s : State) (port : SpirePort) (p : Packet) (hops : Bool) : State :=
  let s := s.countDrop port p hops
  if p.isReq then s.nackBack port p else s

/-- One copy of a packet leaves by an output. -/
def State.sendOut (s : State) (port out : SpirePort) (p : Packet) : State :=
  match out with
  | .edge e =>
    if s.carries e = false then (s.routeDrop port p false).compareRoute p.destDie
    else if p.hops = 63 then s.routeDrop port p true
    else s.toEdge e (outward e p)
  | .loc => (s.leave p).deliverLocal p
  | .mgmt => (s.leave p).modSpire fun x => { x with mgmtQ := x.mgmtQ ++ [p] }

/-! ### A hop (R266, R271, R275 to R283) -/

/-- What a router does with a packet. -/
inductive Fate where
  | fenced | key | mark | drop | out (copies : List (SpirePort × Packet))
deriving DecidableEq, Repr

/-- The multicast entry of a packet's group (Table FAB-9). -/
def State.mcastEntry (s : State) (p : Packet) : Nat := ((s.spire.mcast[ver p.epoch])[Fin.ofNat 16 p.aux.toNat]).toNat

/-- A multicast packet at this router (R282, R283). -/
def State.mcastFate (s : State) (port : SpirePort) (p : Packet) : Fate :=
  let r := s.mcastEntry p
  let outs := (List.finRange 4).filter fun e => bitOf r (4 + e.val)
  let ns := port == .edge 0 || port == .edge 2
  if bitOf r 0 = false then .drop
  else if field r 1 3 ≠ (portNum port).val ∨ field r 16 16 ≠ p.pkey.toNat then .key
  else if ns ∧ (bitOf r 5 ∨ bitOf r 7) then .drop
  else .out (outs.map (fun e => (.edge e, p)) ++ if bitOf r 8 then [(.loc, { p with destUnit := 7 })] else [])

/-- The fate of a packet at a port. -/
def State.fate (s : State) (port : SpirePort) (p : Packet) : Fate :=
  if bitOf s.blf.fenced.toNat p.srcDie.toNat then .fenced
  else if p.malformed || !s.keyOk port p then .key
  else if p.op = 0x21 then .mark
  else if p.mc then s.mcastFate port p
  else match s.route p with
    | (some out, q) => .out [(out, q)]
    | (none, _) => .drop

/-- An output is busy with an earlier packet of the class. -/
def State.busyOut (s : State) (x : SpirePort × Packet) : Bool :=
  match x.1 with
  | .edge e => s.carries e && !((s.edges[e]).outq[clsIdx x.2.cls]).isEmpty
  | .loc => if x.2.isMgmt then false else if x.2.isReq then !s.spire.localReq.isEmpty else !s.spire.localRsp.isEmpty
  | .mgmt => false

/-- The packet has to wait for its outputs, or for room for the violation notice it causes (R277, R278). -/
def State.mustWait (s : State) : Fate → Bool
  | .out l => l.any s.busyOut
  | .key => !s.mgmtRoom .mgt
  | _ => false

/-! ### The priority of LOCAL and MGMT outputs (R291) -/

/-- The index of an output whose priority Spire keeps itself; an edge keeps its own. -/
def outIdx : SpirePort → Option (Fin 2)
  | .loc => some 0
  | .mgmt => some 1
  | .edge _ => none

/-- The order in which an output serves its classes: RSP, MGT, REQ, ESC response, ESC request. -/
def servingOrder : List (Fin 5) := [1, 2, 0, 4, 3]

/-- The class an output grants among those in `ready`: the one passed over longest once one has been passed over 12 times, so that every class
is granted within 16 packets, else the first in order (DESIGN CHOICE, log entry 132). -/
def grantOf (arb : Vector Nat 5) (ready : Fin 5 → Bool) : Option (Fin 5) :=
  let late := servingOrder.filter fun i => ready i && decide (12 ≤ arb[i])
  match late with
  | i :: r => some (r.foldl (fun b j => if arb[b] < arb[j] then j else b) i)
  | [] => servingOrder.find? ready

/-- The counts after a packet of class `i` has been sent while the classes in `waiting` had one. -/
def passedOver (arb : Vector Nat 5) (waiting : Fin 5 → Bool) (i : Fin 5) : Vector Nat 5 :=
  Vector.ofFn fun j : Fin 5 => if j = i then 0 else if waiting j then arb[j] + 1 else 0

/-- The classes with a packet at the head of a buffer that could go to an output now. -/
def State.readyFor (s : State) (out : SpirePort) (i : Fin 5) : Bool :=
  ([0, 1, 2, 3, 4, 5].filterMap portOf).any fun port =>
    match (s.spire.inq[portNum port])[i] with
    | p :: _ =>
      let f := s.fate port p
      (match f with
        | .out l => l.any fun x => x.1 == out
        | _ => false) && !s.mustWait f
    | [] => false

/-- The outputs among a packet's that Spire arbitrates. -/
def Fate.shared : Fate → List SpirePort
  | .out l => (l.map (·.1)).filter fun o => (outIdx o).isSome
  | _ => []

/-- Another class is granted an output that the packet of class `v` needs. -/
def State.outranked (s : State) (v : VcClass) (f : Fate) : Bool :=
  f.shared.any fun o => match outIdx o with
    | some n => (grantOf s.spire.outArb[n] (s.readyFor o)).any fun i => i != clsIdx v
    | none => false

/-- The shared outputs note whom they have passed over. -/
def State.noteGrant (s : State) (v : VcClass) (f : Fate) : State :=
  f.shared.foldl (fun t o => match outIdx o with
    | some n => t.modSpire fun x => { x with outArb := upd x.outArb n fun a => passedOver a (s.readyFor o) (clsIdx v) }
    | none => t) s

/-- The fate takes effect. A multicast packet of several copies is held once for each (R288). -/
def State.settle (s : State) (port : SpirePort) (p : Packet) : Fate → State
  | .fenced => s.fencedDrop p
  | .key => s.keyDrop port p
  | .mark => match port with
    | .edge e => (s.leave p).modSpire fun x => { x with markQ := x.markQ ++ [(e, p)] }
    | _ => s.leave p
  | .drop => s.routeDrop port p false
  | .out [] => s.leave p
  | .out (x :: r) =>
    let s := r.foldl (fun (s : State) _ => s.modSpire fun y => y.enterHeld p.epoch) s
    (x :: r).foldl (fun s y => s.sendOut port y.1 y.2) s

/-- A freed input buffer's credits are to be returned, in 64-byte units (R310, Table PAR-7). -/
def State.freeCredit (s : State) (port : SpirePort) (v : VcClass) (p : Packet) : State :=
  match port with
  | .edge e => s.modEdge e fun x => { x with owed := upd x.owed (clsIdx v) (· + (p.size + 63) / 64) }
  | _ => s

/-- The first packet of a buffer makes its hop, unless its output is busy. A fatally fenced die takes nothing from LOCAL
(R403). -/
def State.hop (s : State) (port : SpirePort) (v : VcClass) : State :=
  match s.spire.buf port v with
  | [] => s
  | p :: _ =>
    if !s.spireOn || (s.fatal && port == .loc) then s
    else
      let f := s.fate port p
      if s.mustWait f || s.outranked v f then s
      else ((((s.noteGrant v f).modSpire fun x => x.modBuf port v (·.drop 1)).settle port p f)).freeCredit port v p

/-- ROUTER_HOP: a packet named by the row first arrives over its edge's link, whose flits are then not shown. -/
def State.routerHop (s : State) (port : SpirePort) (v : VcClass) (pkt : Option Packet) : State :=
  match pkt, port with
  | none, _ => s.hop port v
  | some p, .edge e => if s.carries e && s.spireOn then
      let q := if s.foreign e then s.stampForeign e p else p
      (s.arrive e p).hop port q.cls
    else s
  | some _, _ => s

/-! ### The meanings -/

/-- ROUTER_HOP (R266). -/
def execRouterHop (port : SpirePort) (vc : VcClass) (pkt : Option Packet) (s : State) : Out := ev s fun s => s.routerHop port vc pkt

/-- EPOCH_MARK (R286). -/
def execEpochMark (s : State) : Out := ev s fun s =>
  match s.spire.markQ with
  | [] => s
  | (e, p) :: r => (s.modSpire fun x => { x with markQ := r }).epochMark e p

end Sys2Proof.Machine
end

