-- ==== Sys2Proof/Machine/Ports.lean ====
section
/-! DEFINITION. What a control port's command gives back (13): the command slot's fields (Table ONA-3), the response slot (Table ONA-4), the
READY event, the CRC-32 of R308, and the commands that wait for an event elsewhere on the die. -/

namespace Sys2Proof.Machine

/-! ### CRC-32 (R308) -/

/-- `n` bits of the reflected CRC, the register as a number; a register of zeros stays zero. -/
def crcBits : Nat → Nat → Nat
  | 0, c => c
  | _ + 1, 0 => 0
  | n + 1, c + 1 => crcBits n (if (c + 1) % 2 = 1 then (c + 1) / 2 ^^^ 0xEDB88320 else (c + 1) / 2)

/-- The register after the bytes of a list. -/
def crcBytes : List Byte → Nat → Nat
  | [], c => c
  | b :: r, 0 => crcBytes r (crcBits 8 b.toNat)
  | b :: r, c + 1 => crcBytes r (crcBits 8 ((c + 1) ^^^ b.toNat))

/-- The CRC-32 of IEEE 802.3. -/
def crc32 (bs : List Byte) : BitVec 32 := BitVec.ofNat 32 (crcBytes bs 0xFFFFFFFF) ^^^ 0xFFFFFFFF

/-! ### Slots -/

/-- A field of a command slot's bytes: `n` bytes from byte `i` (Table ONA-3). -/
def slotBytes (b : BitVec 512) (i n : Nat) : Nat := field b.toNat (8 * i) (8 * n)

/-- CODE. -/
def slotCode (b : BitVec 512) : Nat := slotBytes b 0 2
/-- FLAGS. -/
def slotFlags (b : BitVec 512) : Nat := slotBytes b 2 1
/-- SEQ. -/
def slotSeq (b : BitVec 512) : Nat := slotBytes b 3 1
/-- ARG_LEN. -/
def slotArgLen (b : BitVec 512) : Nat := slotBytes b 4 2
/-- SEM. -/
def slotSem (b : BitVec 512) : Nat := slotBytes b 6 1

/-- A slot with the argument bytes beyond ARG_LEN read as 0 (R372). -/
def slotArgs (b : BitVec 512) : BitVec 512 := BitVec.ofNat 512 (field b.toNat 0 (64 + 8 * min 56 (slotArgLen b)))

/-- Status codes of Table ONA-5. -/
inductive Status where
  | ok | busy | badArg | denied | notReady | timeout | frozen | unsupported | conflict
deriving DecidableEq, Repr

/-- The code of a status. -/
def Status.code : Status → Nat
  | .ok => 0
  | .busy => 1
  | .badArg => 2
  | .denied => 3
  | .notReady => 4
  | .timeout => 5
  | .frozen => 6
  | .unsupported => 7
  | .conflict => 8

/-- The 64 bytes of a response. -/
def responseSlot (cmd : BitVec 512) (head : Nat) (st : Status) (data : List Byte) : BitVec 512 :=
  BitVec.ofNat 512 (leNat (leBytes (st.code + 0x10000 * slotSeq cmd) 4 ++ leBytes (slotCode cmd + 0x10000 * head) 4 ++ data.take 56))

/-- READY with a reason (Table ONA-13). -/
def readySlot (reason : Nat) (ver : Word) : BitVec 512 := eventSlot 1 (leBytes reason 4 ++ leBytes ver.toNat 4)

/-- BLF_BOOT_READY.TIME takes the moment of a READY (Table BOT-6). -/
def State.stampReady (s : State) : State := s.modBlf fun b => { b with readyTime := BitVec.ofNat 32 b.time.toNat }

/-- READY with reason 3 to a reset port (R382). -/
def State.sendReady (s : State) (p : CtlPort) : State :=
  let ver := s.blf.fwVer
  (s.modPort p fun q => { q with waiting := q.waiting ++ [{ bits := readySlot 3 ver, event := true }] }).stampReady

/-- The executing command of a port is answered; the slot waits to be written (R371). During a port reset the response is discarded and
READY with reason 3 takes its place (R382). -/
def State.respond (s : State) (p : CtlPort) (st : Status) (data : List Byte) : State :=
  let ver := s.blf.fwVer
  let s := if (s.port p).resetting ∧ (s.port p).executing.isSome then s.stampReady else s
  s.modPort p fun q => match q.executing with
    | none => q
    | some cmd =>
      let bits := if q.resetting then readySlot 3 ver else responseSlot cmd q.cmdHead.toNat st data
      { q with waiting := q.waiting ++ [{ bits := bits, event := q.resetting }], executing := none, phase := .idle, progress := 0 }

/-- Do something for each port whose command waits for a phase. -/
def State.forWaiting (s : State) (ph : Phase) (f : State → CtlPort → State) : State :=
  [CtlPort.A, CtlPort.B].foldl (fun s p => if (s.port p).executing.isSome ∧ (s.port p).phase = ph then f s p else s) s

/-! ### PROMOTE_SPARE (R410) -/

/-- The mirror length of the PROMOTE_SPARE that waits for its data. -/
def State.copyEnd (s : State) : Nat :=
  ([CtlPort.A, CtlPort.B].map fun p => match (s.port p).phase, (s.port p).executing with
    | .awaitBuddy, some cmd => slotBytes (slotArgs cmd) 12 4
    | _, _ => 0).sum

/-- Bytes of a buddy mirror have landed; the command that copies it is answered once all have: the bytes copied and their CRC-32. -/
def State.buddyLanded (s : State) (n : Nat) : State :=
  s.forWaiting .awaitBuddy fun s p =>
    let s := s.modPort p fun q => { q with progress := q.progress + n }
    let want := ((s.port p).executing.map fun cmd => slotBytes (slotArgs cmd) 12 4).getD 0
    if (s.port p).progress < want then s
    else s.respond p .ok (leBytes want 4 ++ leBytes (crc32 (s.mem.load 0 want)).toNat 4)

end Sys2Proof.Machine
end

