-- ==== Sys2Proof/Machine/Fabric.lean ====
section
/-! DEFINITION. What sources and destinations do with packets: injection with its outstanding entry (R278), the checks and
accesses at the LOCAL port (R226 to R230, R253, R279, R123), answers and NACKs at the source (R262, R263), FENCE_MARK (R279) and
violation notices (R277). -/

namespace Sys2Proof.Machine

/-! ### Outstanding entries and tags (R278, R252) -/

/-- The first tag from `t` that is neither in use nor resting. -/
def Core.freeTag (k : Core) (now : Nat) : Nat → Nat → Option Nat
  | 0, _ => none
  | n + 1, t =>
    if (k.outst.any fun o => o.pkt.tag.toNat == t) || (k.deadTags.any fun x => x.1 == t && now < x.2) then k.freeTag now n ((t + 1) % 4096)
    else some t

/-- Entries a request takes: MEMBERS of its group at the root for a multicast packet (R284), otherwise one. -/
def State.entriesFor (s : State) (p : Packet) : Nat := if p.mc then max 1 (field (s.mcastEntry p) 9 7) else 1

/-- An earlier packet of this core to the same die, under the other epoch, is not yet acknowledged (R254). A multicast packet counts
for every die. -/
def State.oldEpoch (s : State) (c : CoreId) (p : Packet) : Bool :=
  (s.core c).outst.any fun o => o.pkt.epoch != p.epoch && (o.pkt.mc || p.mc || o.pkt.destDie == p.destDie)

/-- The answers due to core `c`. -/
def Core.entries (k : Core) : Nat := (k.outst.map (·.due)).sum

/-- A request may enter at LOCAL: entries within both limits, no packet of the old epoch to its die unacknowledged, and room. -/
def State.mayInject (s : State) (c : CoreId) (p : Packet) : Bool :=
  decide ((s.core c).entries + s.entriesFor p ≤ 256 ∧ s.outstanding + s.entriesFor p ≤ 4096) && !s.oldEpoch c p && s.localRoom .req
    && !s.fatal && !s.d2Pending && !s.spire.bootMode

/-- The partition uses rank addressing (R273). -/
def State.rankMode (s : State) (c : CoreId) : Bool :=
  match (s.core c).owner with
  | some key => (s.blf.partitions.find? fun p => p.pkey == key).any (·.amode)
  | none => false

/-- A rank entry (Table FAB-7). -/
def State.rankEntry (s : State) (epoch : Bool) (rank : Nat) : Nat := ((s.spire.rank[ver epoch])[Fin.ofNat 4096 rank]).toNat

/-- What a request of a unit carries before it is addressed. -/
def State.request (s : State) (c : CoreId) (unit : Nat) (op : Nat) : Packet :=
  { Packet.blank with opcode := BitVec.ofNat 6 op, epoch := s.spire.cur, pkey := (s.core c).owner.getD 0, destUnit := 7, srcDie := s.dieId
                      srcCore := BitVec.ofNat 4 c.val, srcUnit := BitVec.ofNat 4 unit }

/-- Address a request by a DEST field (R273); none where its rank is not assigned. -/
def State.address (s : State) (c : CoreId) (dest : BitVec 16) (p : Packet) : Option Packet :=
  if s.rankMode c then
    let rank := field dest.toNat 0 12
    let r := s.rankEntry p.epoch rank
    if bitOf r 15 then some { p with amode := true, destRank := BitVec.ofNat 12 rank, destDie := BitVec.ofNat 6 (field r 4 6), destCore := BitVec.ofNat 4 r }
    else none
  else some { p with destDie := BitVec.ofNat 6 (field dest.toNat 4 6), destCore := BitVec.ofNat 4 dest.toNat }

/-- The request takes its entry and enters Spire at LOCAL. -/
def State.inject (s : State) (c : CoreId) (tag : Nat) (p : Packet) (loc : Nat) (spec : Bool) (desc off : Nat) : State :=
  let p := { p with tag := BitVec.ofNat 12 tag }
  let o : Outst := { unit := p.srcUnit, pkt := { p with payload := [] }, loc := loc, spec := spec, due := s.entriesFor p, began := s.now, elapsed := 0
                     timeout := s.waitDefault, desc := desc, off := off, failed := false }
  (s.modCore c fun k => { k with outst := k.outst ++ [o], nextTag := (tag + 1) % 4096 }).enterAt .loc p

/-! ### Refusals at the source (R263) -/

/-- The fault code of a NACK reason (Table FAB-5). -/
def nackCode (reason : Nat) : Nat := if reason = 1 then 0x202 else if reason = 2 then 0x201 else 0x203

/-- DETAIL of the source's record. -/
def nackDetail (p : Packet) (reason : Nat) : Nat :=
  if reason = 1 then p.window.toNat + 256 * p.op else if reason = 2 then p.srcDetail else p.routeDetail reason

/-- ADDRESS of the source's record. -/
def nackAddress (p : Packet) (reason : Nat) : Nat :=
  if reason = 1 ∨ reason = 2 then p.offset.toNat else if reason = 6 then p.destRank.toNat else 0

/-- The source's record of a refused request, and its unit frozen. -/
def State.refusedAt (s : State) (c : CoreId) (u : UnitId) (p : Packet) (reason off : Nat) : State :=
  let src := unitSource c u
  (s.log { cls := .contained, code := nackCode reason, block := src.1, inst := src.2, pkey := some p.pkey, detail := nackDetail p reason
           address := nackAddress p reason }).freezeUnit c u .violation true (some off)

/-! ### PACKET_INJECTION: the mover (R179, R151, R155) -/

/-- The next packet's bytes in its row. -/
def NetItem.size (w : NetItem) : Nat := min 512 (w.rowBytes - w.pos)

/-- The next packet is the item's last. -/
def NetItem.last (w : NetItem) : Bool :=
  match w.kind with
  | .signal | .fence => true
  | _ => decide (w.rows ≤ w.row + 1 ∧ w.rowBytes ≤ w.pos + w.size)

/-- The item after its next packet. -/
def NetItem.step (w : NetItem) : NetItem :=
  let w := { w with seq := w.seq + 1 }
  if w.pos + w.size < w.rowBytes then { w with pos := w.pos + w.size } else { w with row := w.row + 1, pos := 0 }

/-- The die-local address of the next packet's data. -/
def NetItem.address (w : NetItem) : Nat := (w.loc + w.row * w.localPitch + w.pos) % 2 ^ 40

/-- The opcode of the next packet. -/
def NetItem.op (w : NetItem) : Nat :=
  match w.kind with
  | .write | .mcast => if w.last ∧ w.signal then 2 else 1
  | .read => 3
  | .signal => 5
  | .fence => 0x20
  | .mirror _ => 3

/-- The header of an item's next packet before it is addressed. -/
def State.itemPacket (s : State) (c : CoreId) (w : NetItem) : Packet :=
  let op := w.op
  let p := { s.request c 5 op with seq := BitVec.ofNat 16 w.seq }
  let p := if op = 0x20 then p else { p with window := w.window, offset := BitVec.ofNat 32 (w.offset + w.row * w.remotePitch + w.pos) }
  let p := if op = 1 ∨ op = 2 ∨ op = 3 then { p with len := BitVec.ofNat 6 (w.size / 16) } else p
  let p := if op = 2 ∨ op = 5 then { p with sigCnt := w.sigCnt, sigInc := w.sigInc } else p
  { p with spec := w.spec }

/-- Where an item's next packet goes. -/
def State.aim (s : State) (c : CoreId) (w : NetItem) (p : Packet) : Option Packet :=
  match w.kind with
  | .mcast => some { p with mc := true, aux := w.group.setWidth 16 }
  | .fence => if w.signal then some { p with mc := true, aux := w.dest &&& 15 } else some { p with destDie := w.dest.setWidth 6 }
  | _ => s.address c w.dest p

/-- Log a packet's refused local accesses: at most one record per descriptor (R446). -/
def State.logLocal (s : State) (c : CoreId) (desc : Nat) (outs : List (Nat × Verdict)) : State :=
  let info := fun x : Nat × Verdict => ({ cls := .deferred, code := 0x202, block := 3, inst := c.val, pkey := none, detail := x.2.detail
                                          address := x.1 } : FaultInfo)
  match outs with
  | [] => s
  | x :: r =>
    let logged := ((s.core c).mov.q.active.find? fun a => a.entry.id == desc).any (·.boundsLogged)
    let s := if logged then s.countOnly (info x) else s.log (info x)
    let s := s.modQ c .mover fun q => q.modActive desc fun a => { a with boundsLogged := true }
    r.foldl (fun s y => s.countOnly (info y)) s

/-- The started descriptor `desc` of the mover is of kind `k`. -/
def State.moverKind (s : State) (c : CoreId) (desc : Nat) (k : DKind) : Bool :=
  (s.core c).mov.q.active.any fun a => a.entry.id == desc && isKind k a.entry.bits

/-- The data of a write packet: a SCATTER's from its Cupola offsets (R446), another's from its die-local addresses; true when a violation has
stopped the mover. -/
def State.packetData (s : State) (c : CoreId) (w : NetItem) : State × Marked × Bool :=
  if s.moverKind c w.desc .scatter then
    let r := s.cupRead c w.address w.size
    (r.1.noteBounds c .mover w.desc (pastEnd w.address w.size).toList, r.2, false)
  else
    let r := (MoveAcc.start s).read c w.address w.size
    (r.1.s.logLocal c w.desc r.1.outs, r.2, r.1.stop)

/-- The dies a fence has to reach (R279). -/
def Mover.noteSent (m : Mover) (p : Packet) : Mover :=
  let x : BitVec 6 × Bool := if p.mc then (p.aux.setWidth 6, true) else (p.destDie, false)
  if p.op = 1 ∨ p.op = 2 ∨ p.op = 5 then (if m.fenceDests.contains x then m else { m with fenceDests := m.fenceDests ++ [x] }) else m

/-- A multicast FENCE_MARK is answered by every member. -/
def Fencing.more (f : Fencing) (n : Nat) : Fencing := { f with marks := f.marks.map (· + (n - 1)) }

/-- The mover sends the next packet of its first work item. -/
def State.sendMover (s : State) (c : CoreId) : State :=
  let k := s.core c
  match k.mov.work with
  | [] => s
  | w :: rest =>
    if !k.live || k.mov.q.freeze.isSome || !s.spireOn then s
    else match s.aim c w (s.itemPacket c w) with
      | none =>
        let p := { s.itemPacket c w with amode := true, destRank := BitVec.ofNat 12 w.dest.toNat }
        (if w.spec then s.modMov c fun m => { m with
            work := rest, buffer := m.buffer.map fun b => if b.id = w.desc then { b with refused := true, remaining := 0 } else b }
         else (s.refusedAt c .mover p 6 w.off).failOp c .mover w.desc)
      | some p =>
        match k.freeTag s.now 4096 k.nextTag with
        | none => s
        | some tag =>
          if !s.mayInject c p then s
          else
            let r := if p.op = 1 ∨ p.op = 2 then s.packetData c w else (s, [], false)
            let s := r.1
            if r.2.2 then s
            else
              let p := { p with poison := poisonField r.2.1, payload := bytesOf r.2.1 }
              let s := s.modMov c fun m => { m.noteSent p with work := if w.last then rest else w.step :: rest }
              let s := if p.op = 0x20 ∧ p.mc then s.modSeq c fun q => { q with fencing := q.fencing.map fun f => f.more (s.entriesFor p) } else s
              (s.inject c tag p w.address w.spec w.desc w.off).moverSettle c

/-! ### PACKET_INJECTION: an engine's CLOSE_CHAIN (R122) -/

/-- The CLOSE_CHAIN in progress for a group. -/
def Engine.chainDesc (x : Engine) (g : GroupId) : Option Active :=
  x.q.active.find? fun a => a.progress == .busy && isKind .acc a.entry.bits && aOp a.entry.bits == 5 && aGroup a.entry.bits == g

/-- The lowest block of a sending group that is still to be sent. -/
def Group.nextBlock (g : Group) : Option Nat :=
  if g.state == .closing && g.wait.isSome && !g.failed then (List.range 16).find? fun b => !bitOf g.sent.toNat b else none

/-- The lowest group with a block to send. -/
def Engine.nextChain (x : Engine) : Option (GroupId × Nat) :=
  (List.finRange 8).findSome? fun g => ((x.groups[g]).nextBlock).map fun b => (g, b)

/-- One row block is sent: over the die NoC by die-local address with LOCAL = 1, otherwise to the successor's window. -/
def State.sendBlock (s : State) (c : CoreId) (e : EngId) (g : GroupId) (b : Nat) : State :=
  let k := s.core c
  match k.eng[e].chainDesc g with
  | none => s
  | some a =>
    if !k.live || k.eng[e].q.freeze.isSome || !s.spireOn then s
    else
      let d := a.entry.bits
      let p := { s.request c e.val 6 with len := 32, seq := BitVec.ofNat 16 b }
      let mark := fun s : State => s.modGroup c e g fun x => { x with sent := putBit x.sent b true, resend := putBit x.resend b false }
      let data := s.readP (groupBase c e g + 512 * b) 512
      let fill := fun p : Packet => { p with poison := poisonField data.2, payload := bytesOf data.2 }
      if aLocal d then
        let t : CoreId := Fin.ofNat 16 (aDest d % 16)
        let addr := groupBase t (aDestEng d) (aDestGrp d) + 512 * b
        let q := { fill p with destDie := s.dieId, destCore := BitVec.ofNat 4 t.val, offset := BitVec.ofNat 32 addr, tag := BitVec.ofNat 12 g.val }
        (mark data.1).modSpire fun x => { x with nocQ := x.nocQ ++ [q] }
      else
        let p := { p with window := BitVec.ofNat 8 (aWindow d), offset := BitVec.ofNat 32 (aOffset d + 512 * b) }
        match s.address c (BitVec.ofNat 16 (aDest d)) p with
        | none => (s.refusedAt c (.eng e) { p with amode := true, destRank := BitVec.ofNat 12 (aDest d) } 6 a.entry.off).failOp c (.eng e) a.entry.id
        | some p => match k.freeTag s.now 4096 k.nextTag with
          | none => s
          | some tag => if !s.mayInject c p then s else (mark data.1).inject c tag (fill p) 0 false a.entry.id a.entry.off

/-- An engine sends the next row block of its lowest CLOSING group. -/
def State.sendChain (s : State) (c : CoreId) (e : EngId) : State :=
  match (s.eng c e).nextChain with
  | some (g, b) => s.sendBlock c e g b
  | none => s

/-- A block that was NACKed NOT_WAITING is sent again. -/
def State.resendBlock (s : State) (c : CoreId) (e : EngId) (g : GroupId) (b : Nat) : State :=
  let x := s.group c e g
  if x.state == .closing && !x.failed && bitOf x.resend.toNat b then s.sendBlock c e g b else s

/-! ### PACKET_INJECTION: Campanile's READs (R410) -/

/-- Campanile sends the next READ of a PROMOTE_SPARE. -/
def State.sendCampanile (s : State) : State :=
  match s.blf.campWork with
  | [] => s
  | w :: rest =>
    if !s.spireOn || s.fatal || !s.localRoom .req || 4096 ≤ s.outstanding then s
    else
      let key := match w.kind with
        | .mirror k => k
        | _ => 0
      let p : Packet := { Packet.blank with
        opcode := 3, epoch := s.spire.cur, pkey := key, destDie := BitVec.ofNat 6 (field w.dest.toNat 4 6), destUnit := 7, srcDie := s.dieId
        srcUnit := 8, window := w.window, len := BitVec.ofNat 6 (w.size / 16), offset := BitVec.ofNat 32 (w.offset + w.pos)
        seq := BitVec.ofNat 16 w.seq, tag := BitVec.ofNat 12 w.seq }
      let o : Outst := { unit := 8, pkt := p, loc := w.address, spec := false, due := 1, began := s.now, elapsed := 0, timeout := s.waitDefault
                         desc := 0, off := 0, failed := false }
      (s.modBlf fun b => { b with campWork := if w.last then rest else w.step :: rest, campOut := b.campOut ++ [o] }).enterAt .loc p

/-! ### The LOCAL port: window checks (Table MEM-4) -/

/-- What the checks say of a request. -/
inductive WinCheck where
  | ok (addr : Nat) (g : Fin 256)
  | bad (reason : Nat) (detail : Nat)
deriving DecidableEq, Repr

/-- A window's length in bytes. -/
def Window.length (w : Window) : Nat := (w.len64.toNat + 1) * 64

/-- The lowest open window whose range holds `a` (R227). -/
def Spire.governing (p : Spire) (a : Nat) : Option (Fin 256) :=
  (List.finRange 256).find? fun i => let w := p.windows[i]; w.valid && decide (w.base.toNat ≤ a ∧ a < w.base.toNat + w.length)

/-- A window grants the opcode's permission (Table FAB-4). -/
def Window.grants (w : Window) (p : Packet) : Bool :=
  match p.op with
  | 1 | 6 => w.wr
  | 2 => w.wr && w.sig
  | 3 => w.rd && (!p.spec || w.specOk)
  | 5 => w.sig
  | _ => false

/-- A byte of a range lies in a reserved gap of a Lantern area. -/
def inGap (a n : Nat) : Bool :=
  match region a, region (a + n - 1) with
  | .reserved, _ => true
  | _, .reserved => true
  | .lantern _, _ => (pieces a n).any fun x => region x.1 == .reserved || region (x.1 + x.2 - 1) == .reserved
  | _, _ => false

/-- The speculative statistic of a window. -/
def Spire.countSpec (x : Spire) (p : Packet) (i : Fin 256) : Spire :=
  if p.spec ∧ p.op = 3 then { x with windows := upd x.windows i fun w => { w with spec := satAdd w.spec 1 } } else x

/-- The core-state check of R25 on the addressed region, and on the counters of a signal's core. -/
def State.stateRefuses (s : State) (p : Packet) (a : Nat) (owner : BitVec 4) : Option Nat :=
  let k := s.core (Fin.ofNat 16 owner.toNat)
  let sig := (p.op == 2 || p.op == 5) && (k.short || k.cstate == .c4)
  let at_ := match region a with
    | .cupola c | .lantern c => if (s.core c).refuses (region a) && (p.op != 6 || (s.core c).short) then some (s.core c).stateCode else none
    | _ => none
  match at_ with
  | some x => some x
  | none => if sig then some k.stateCode else none

/-- The owner key of the addressed bytes (R19). -/
def State.keyAt (s : State) (a : Nat) : Option (BitVec 16) := (s.regionOwner (region a)).bind id

/-- The checks on a request's arrival, with their statistics. -/
def State.windowCheck (s : State) (p : Packet) : State × WinCheck :=
  let i : Fin 256 := Fin.ofNat 256 p.window.toNat
  let w := s.spire.windows[i]
  let o := p.offset.toNat
  let n := p.span
  if w.valid = false then (s, .bad 1 p.winDetail)
  else if w.length < o + n then (s.modSpire fun x => x.countSpec p i, .bad 1 p.winDetail)
  else
    let a := w.base.toNat + o
    match s.spire.governing a with
    | none => (s, .bad 1 p.winDetail)
    | some g =>
      let s := if g = i then s else s.modSpire fun x => { x with multi := true, lastNamed := p.window, lastGov := BitVec.ofNat 8 g.val }
      let s := s.modSpire fun x => x.countSpec p g
      let gw := s.spire.windows[g]
      if gw.pkey ≠ p.pkey then (s, .bad 2 p.srcDetail)
      else if gw.grants p = false ∨ gw.base.toNat + gw.length < a + n ∨ inGap a (max n 1) then (s, .bad 1 p.winDetail)
      else if s.keyAt a ≠ some p.pkey ∨ s.keyAt (a + max n 1 - 1) ≠ some p.pkey then (s, .bad 2 p.srcDetail)
      else match s.stateRefuses p a gw.owner with
        | some k => (s, .bad 1 (p.winDetail + k * 0x10000 + 0x80000))
        | none => (s, .ok a g)

/-- The destination's own rank entry names it (R273). -/
def State.rankOk (s : State) (p : Packet) : Bool :=
  let r := s.rankEntry p.epoch p.destRank.toNat
  !p.amode || p.mc || (bitOf r 15 && field r 4 6 == s.dieId.toNat && field r 0 4 == p.destCore.toNat)

/-! ### The LOCAL port: requests (R279) -/

/-- The request at the head of LOCAL's queue with this opcode, when its answer has room. -/
def State.headReq (s : State) (op : Nat) : Option Packet :=
  match s.spire.localReq with
  | p :: _ => if p.op = op ∧ s.spireOn ∧ s.localRoom .rsp then some p else none
  | [] => none

/-- The head request is taken off. -/
def State.popReq (s : State) : State := s.modSpire fun x => { x with localReq := x.localReq.drop 1 }

/-- An answer enters at LOCAL. -/
def State.reply (s : State) (p : Packet) (op aux : Nat) (data : Marked) : State := s.enterAt .loc (s.answerTo p op aux data)

/-- A completion (R262). -/
def State.complete (s : State) (p : Packet) : State := s.reply p 4 0 []

/-- A refused request: the fault in class contained and a NACK; a speculative READ logs nothing (R228). -/
def State.refuseReq (s : State) (p : Packet) (reason detail : Nat) : State :=
  if p.spec ∧ p.op = 3 then s.reply p 0x3F 3 []
  else (s.log { cls := .contained, code := nackCode reason, block := 0x10, inst := 4, pkey := some p.pkey, detail := detail
                address := p.offset.toNat }).reply p 0x3F reason []

/-- Count a performed packet in its governing window (R227). -/
def State.countWin (s : State) (p : Packet) (g : Fin 256) : State :=
  s.modSpire fun x => { x with windows := upd x.windows g fun w =>
    if p.op = 3 then { w with reads := satAdd w.reads 1 } else if p.op = 5 then w else { w with writes := satAdd w.writes 1 } }

/-- A request is checked, and then either refused or accepted by `f` at its address. -/
def State.localReq (s : State) (op : Nat) (f : State → Packet → Nat → Fin 256 → State) : State :=
  match s.headReq op with
  | none => s
  | some p =>
    let s := s.popReq
    if !s.rankOk p then s.reply p 0x3F 6 []
    else
      let r := s.windowCheck p
      match r.2 with
      | .bad reason detail => r.1.refuseReq p reason detail
      | .ok a g => f r.1 p a g

/-- A packet at the Lantern window port that does not fit it is handled as a reserved address (R216). -/
def lanternBad (a n : Nat) : Bool :=
  match region a with
  | .lantern _ => !lanternFits a n
  | _ => false

/-- The record of an access R216 does not perform. -/
def State.logLantern (s : State) (p : Packet) (a : Nat) : State :=
  s.log { cls := .deferred, code := 0x202, block := 0x10, inst := 4, pkey := some p.pkey, detail := 0, address := a }

/-- The data of an accepted write lands. -/
def State.landWrite (s : State) (p : Packet) (a : Nat) : State :=
  if lanternBad a p.span then s.logLantern p a
  else (pieces a p.payload.length).foldl (fun s x => s.dieWrite x.1 ((p.marked.drop (x.1 - a)).take x.2)) s

/-- A signal waits behind the writes of its source (R253). -/
def State.holdSignal (s : State) (p : Packet) (g : Fin 256) : State :=
  s.modSpire fun x => { x with heldSigs := x.heldSigs ++ [{ core := (x.windows[g]).owner, counter := p.sigCnt, inc := p.sigInc, srcDie := p.srcDie
                                                            srcUnit := p.srcUnit, srcCore := p.srcCore }] }

/-- WRITE. -/
def State.writeReq (s : State) : State := s.localReq 1 fun s p a g => ((s.landWrite p a).countWin p g).complete p

/-- WRITE_SIGNAL. -/
def State.writeSignalReq (s : State) : State := s.localReq 2 fun s p a g => (((s.landWrite p a).holdSignal p g).countWin p g).complete p

/-- SIGNAL. -/
def State.signalReq (s : State) : State := s.localReq 5 fun s p _ g => (s.holdSignal p g).complete p

/-- READ: the data with its marks. A speculative one shows in the window's counters alone (R190, R191). -/
def State.readReq (s : State) : State := s.localReq 3 fun s p a g =>
  if p.spec then (if lanternBad a p.span then s.reply p 0x3F 3 [] else (s.countWin p g).reply p 4 0 (s.mem.peekP a p.span))
  else if lanternBad a p.span then ((s.logLantern p a).countWin p g).reply p 4 0 (List.replicate p.span (0, true))
  else
    let r := s.readP a p.span
    (r.1.countWin p g).reply p 4 0 r.2

/-- The oldest held signal adds to its counter (R229). -/
def State.performHeld (s : State) : State :=
  match s.spire.heldSigs with
  | [] => s
  | h :: r => (s.modSpire fun x => { x with heldSigs := r }).cntOp (Fin.ofNat 16 h.core.toNat) (Fin.ofNat 64 h.counter.toNat) (.add h.inc.toNat)

/-- Every signal held for core `c` is performed: a core enters a sleep state with no accepted access unperformed (R25). -/
def State.performFor (s : State) (c : CoreId) : State :=
  let mine := fun h : HeldSignal => h.core.toNat == c.val
  (s.spire.heldSigs.filter mine).foldl (fun (s : State) h => s.cntOp c (Fin.ofNat 64 h.counter.toNat) (.add h.inc.toNat))
    (s.modSpire fun x => { x with heldSigs := x.heldSigs.filter fun h => !mine h })

/-! ### ACC_CHAIN at its destination (R123) -/

/-- The group and row block at an accumulator-file address. -/
def blockAt (a : Nat) : Option (CoreId × EngId × GroupId × Nat) :=
  match region a with
  | .lantern c =>
    let o := a - coreBase c - 0xC00000
    let r := o % 0x40000 - 0x20000
    if 0x20000 ≤ o % 0x40000 ∧ r % 512 = 0 then some (c, Fin.ofNat 4 (o / 0x40000), Fin.ofNat 8 (r / 0x2000), r % 0x2000 / 512) else none
  | _ => none

/-- The core's groups can receive. -/
def Core.receives (k : Core) : Bool := k.present && !k.short && k.cstate == .c0

/-- A row block lands in a waiting group, which opens once all 16 have arrived, unless its engine is frozen (R124). -/
def State.landBlock (s : State) (c : CoreId) (e : EngId) (g : GroupId) (b : Nat) (data : Marked) : State :=
  let s := (s.storeP (groupBase c e g + 512 * b) data).modGroup c e g fun x => { x with arrived := putBit x.arrived b true }
  if (s.group c e g).arrived = 0xFFFF ∧ (s.frozen c (.eng e)).isNone then s.chainOpens c e g else s

/-- ACC_CHAIN from another die. -/
def State.chainReq (s : State) : State := s.localReq 6 fun s p a w =>
  match blockAt a with
  | none => s.refuseReq p 1 p.winDetail
  | some (c, e, g, b) =>
    if p.len ≠ 32 then s.refuseReq p 1 p.winDetail
    else if (s.core c).receives ∧ (s.group c e g).state = .waitChain then ((s.landBlock c e g b p.marked).countWin p w).complete p
    else s.reply p 0x3F 4 []

/-! ### Answers at the source (R262, R263, R252) -/

/-- A CLOSE_CHAIN's packet is accepted; the sixteenth closes the group. -/
def State.blockAccepted (s : State) (c : CoreId) (e : EngId) (g : GroupId) (b : Nat) : State :=
  let x := s.group c e g
  if x.state ≠ .closing then s
  else if x.failed then s.chainSettles c e
  else
    let s := s.modGroup c e g fun x => { x with accepted := putBit x.accepted b true }
    if (s.group c e g).accepted = 0xFFFF then s.chainSent c e g else s

/-- A CLOSE_CHAIN's packet was refused NOT_WAITING. -/
def State.blockRefused (s : State) (c : CoreId) (e : EngId) (g : GroupId) (b : Nat) : State :=
  let x := s.group c e g
  if x.state ≠ .closing then s
  else if x.failed then s.chainSettles c e
  else s.modGroup c e g fun x => { x with resend := putBit x.resend b true }

/-- A row block meets an absent core or one that is latched off: the write is discarded and logged, once for its descriptor (R22, R25, R446).
Nothing is accepted, so the chain send's wait ends it (R124). -/
def State.chainLost (s : State) (c : CoreId) (e : EngId) (id : Option Nat) (addr : Nat) (v : Verdict) : State :=
  let info : FaultInfo := { cls := .deferred, code := 0x202, block := 1, inst := c.val * 4 + e.val, pkey := none, detail := v.detail, address := addr }
  let logged := (s.eng c e).q.active.any fun a => some a.entry.id == id && a.boundsLogged
  (if logged then s.countOnly info else s.log info).modQ c (.eng e) fun q =>
    { q with active := q.active.map fun a => if some a.entry.id = id then { a with boundsLogged := true } else a }

/-- A packet over the die NoC reaches its group (R122): the checks of R19 and Table DIE-6 at its node, then R123. -/
def State.chainNoc (s : State) : State :=
  match s.spire.nocQ with
  | [] => s
  | p :: r =>
    let s := s.modSpire fun x => { x with nocQ := r }
    let src : CoreId := Fin.ofNat 16 p.srcCore.toNat
    let se : EngId := Fin.ofNat 4 p.srcUnit.toNat
    let sg : GroupId := Fin.ofNat 8 p.tag.toNat
    let addr := 0x0100000000 + p.offset.toNat
    let fail := fun (s : State) (v : Verdict) =>
      let off := ((s.eng src se).chainDesc sg).map (·.entry.off)
      let id := ((s.eng src se).chainDesc sg).map (·.entry.id)
      match v with
      | .key =>
        let s := s.refusedAccess src (.eng se) off addr .key
        match id with
        | some i => s.failOp src (.eng se) i
        | none => s.chainSettles src se
      | v => (s.chainLost src se id addr v).chainSettles src se
    match blockAt addr with
    | none => fail s .reserved
    | some (c, e, g, b) =>
      let k := s.core c
      if !k.present then fail s .reserved
      else if k.owner ≠ some p.pkey then fail s .key
      else if k.short then fail s (.coreState 5)
      else if k.receives ∧ (s.group c e g).state = .waitChain then (s.landBlock c e g b p.marked).blockAccepted src se sg p.seq.toNat
      else s.blockRefused src se sg p.seq.toNat

/-- ACC_CHAIN: the head of LOCAL's queue, or else of the die NoC's. -/
def State.accChain (s : State) : State := if (s.headReq 6).isSome then s.chainReq else s.chainNoc

/-- The answer of this opcode that waits at LOCAL, or for Campanile at MGMT; and the state without it. -/
def State.headRsp (s : State) (op : Nat) : Option (Packet × State) :=
  let find := fun l : List Packet => match l with
    | p :: _ => if p.op = op ∧ s.spireOn then some p else none
    | [] => none
  match find s.spire.localRsp with
  | some p => some (p, s.modSpire fun x => { x with localRsp := x.localRsp.drop 1 })
  | none => (find s.spire.mgmtQ).map fun p => (p, s.modSpire fun x => { x with mgmtQ := x.mgmtQ.drop 1 })

/-- An entry loses one answer due. -/
def takeDue (unit : BitVec 4) (tag : BitVec 12) (l : List Outst) : List Outst :=
  (l.map fun o => if o.unit = unit ∧ o.pkt.tag = tag then { o with due := o.due - 1 } else o).filter (·.due != 0)

/-- Find an entry. -/
def findEntry (unit : BitVec 4) (tag : BitVec 12) (l : List Outst) : Option Outst := l.find? fun o => o.unit == unit && o.pkt.tag == tag

/-- Free an entry of a core. -/
def State.freeEntry (s : State) (c : CoreId) (o : Outst) : State :=
  s.modCore c fun k => { k with outst := takeDue o.unit o.pkt.tag k.outst }

/-- Data arriving for the prefetch buffer. -/
def PrefetchData.land (b : PrefetchData) (at_ : Nat) (data : Marked) : PrefetchData :=
  { b with
    bytes := b.bytes.take at_ ++ bytesOf data ++ b.bytes.drop (at_ + data.length)
    poison := b.poison.take at_ ++ data.map (·.2) ++ b.poison.drop (at_ + data.length)
    remaining := b.remaining - 1 }

/-- A READ's data lands at its die-local address, or in the prefetch buffer. -/
def State.landRead (s : State) (c : CoreId) (o : Outst) (p : Packet) : State :=
  if o.spec then s.modMov c fun m => { m with buffer := m.buffer.map fun b => if b.id = o.desc then b.land o.loc p.marked else b }
  else if s.moverKind c o.desc .gather then
    (s.cupWrite c o.loc p.marked).noteBounds c .mover o.desc (pastEnd o.loc p.payload.length).toList
  else
    let m := (MoveAcc.start s).write c o.loc p.marked
    m.s.logLocal c o.desc m.outs

/-- An answer accepts an engine's row block. -/
def State.engineAnswer (s : State) (c : CoreId) (o : Outst) (f : State → CoreId → EngId → GroupId → Nat → State) : State :=
  let e : EngId := Fin.ofNat 4 o.unit.toNat
  match (s.eng c e).q.active.find? fun a => a.entry.id == o.desc with
  | some a => f s c e (aGroup a.entry.bits) o.pkt.seq.toNat
  | none => s

/-- A READ_RSP or completion for Campanile. -/
def State.campRsp (s : State) (p : Packet) : State :=
  match findEntry 8 p.tag s.blf.campOut with
  | none => s
  | some o =>
    let s := s.modBlf fun b => { b with campOut := takeDue 8 p.tag b.campOut }
    (s.storeP o.loc (p.marked.take (s.copyEnd - o.loc))).buddyLanded p.payload.length

/-- READ_RSP: the entry is freed, a READ's data lands, and what waited for it goes on. -/
def State.readRsp (s : State) : State :=
  match s.headRsp 4 with
  | none => s
  | some (p, s) =>
    if p.destUnit = 8 then s.campRsp p
    else
      let c : CoreId := Fin.ofNat 16 p.destCore.toNat
      match findEntry p.destUnit p.tag (s.core c).outst with
      | none => s
      | some o =>
        let s := s.freeEntry c o
        if o.unit = 5 then ((if o.pkt.op = 3 then s.landRead c o p else s)).moverSettle c
        else s.engineAnswer c o State.blockAccepted

/-- A refused early read (R190): nothing is logged or frozen. -/
def State.specRefused (s : State) (c : CoreId) (o : Outst) : State :=
  s.modMov c fun m => { m with buffer := m.buffer.map fun b => if b.id = o.desc then { b with refused := true, remaining := b.remaining - 1 } else b }

/-- A NACK of a READ of Campanile: the entry is freed and the source's record is logged (R263). Campanile is no unit that is frozen (log
entry 49). -/
def State.campNack (s : State) (p : Packet) : State :=
  match findEntry 8 p.tag s.blf.campOut with
  | none => s
  | some o => (s.modBlf fun b => { b with campOut := takeDue 8 p.tag b.campOut }).log
      { cls := .contained, code := nackCode p.aux.toNat, block := 0x19, inst := 0, pkey := some o.pkt.pkey, detail := nackDetail o.pkt p.aux.toNat
        address := nackAddress o.pkt p.aux.toNat }

/-- NACK: the entry is freed, and the source acts on the reason (Table FAB-5). -/
def State.nackRsp (s : State) : State :=
  match s.headRsp 0x3F with
  | none => s
  | some (p, s) =>
    if p.destUnit = 8 then s.campNack p
    else
      let c : CoreId := Fin.ofNat 16 p.destCore.toNat
      match findEntry p.destUnit p.tag (s.core c).outst, unitOf p.destUnit.toNat with
      | some o, some u =>
        let s := s.freeEntry c o
        let reason := p.aux.toNat
        if o.spec then s.specRefused c o
        else if reason = 4 then s.engineAnswer c o State.blockRefused
        else ((s.refusedAt c u o.pkt reason o.off).failEntry c u o).moverSettle c
      | _, _ => s

/-- A FENCE_MARK at its destination is returned once its source's earlier requests are performed; at its source it counts for the
FENCE (R279, R187). -/
def State.fenceMark (s : State) : State :=
  match s.headReq 0x20 with
  | some p =>
    if s.spire.heldSigs.any fun h => h.srcDie == p.srcDie && h.srcUnit == p.srcUnit && h.srcCore == p.srcCore then s
    else s.popReq.reply p 0x20 0 []
  | none => match s.headRsp 0x20 with
    | none => s
    | some (p, s) =>
      let c : CoreId := Fin.ofNat 16 p.destCore.toNat
      match findEntry p.destUnit p.tag (s.core c).outst with
      | none => s
      | some o => (s.freeEntry c o).modSeq c fun q =>
        { q with fencing := q.fencing.map fun f => if f.entry.id = o.desc then { f with marks := f.marks.map (· - 1) } else f }

/-! ### Violation notices (R277) -/

/-- The master a dropped packet's header names is frozen, and its transaction ends failed. A packet from an edge proxy freezes
nothing; its FAULT event goes to both ports. -/
def State.notice (s : State) (n p : Packet) : State :=
  if p.srcDie ≠ s.dieId then s
  else if 12 ≤ p.srcUnit.toNat then
    (if n.srcDie = s.dieId then s
     else s.log { cls := .contained, code := n.aux.toNat, block := 0x10, inst := p.srcUnit.toNat - 12, pkey := some p.pkey, detail := p.srcDetail
                  address := p.offset.toNat })
  else if p.srcUnit = 8 then s.modBlf fun b => { b with campOut := takeDue 8 p.tag b.campOut }
  else
    let c : CoreId := Fin.ofNat 16 p.srcCore.toNat
    match unitOf p.srcUnit.toNat with
    | none => s
    | some u => match (if p.isReq then findEntry p.srcUnit p.tag (s.core c).outst else none) with
      | none => s.freezeUnit c u .violation false ((s.core c).currentOff u)
      | some o => (((s.freeEntry c o).freezeUnit c u .violation true (some o.off)).failEntry c u o).moverSettle c

/-- The notice at the head of MGMT's queue. -/
def State.violationNotice (s : State) : State :=
  match s.spire.mgmtQ with
  | n :: r =>
    if n.isNotice = false then s
    else
      let s := s.modSpire fun x => { x with mgmtQ := r }
      if n.poisoned then s.campPoison else s.notice n (packetOf (leNat n.payload) [])
  | [] => s

/-! ### The meanings -/

/-- PACKET_INJECTION (R278). -/
def execPacketInjection (src : InjectSrc) (s : State) : Out := ev s fun s =>
  match src with
  | .unit c (.eng e) => s.sendChain c e
  | .unit c .mover => s.sendMover c
  | .unit _ _ => s
  | .campanile => s.sendCampanile
/-- ACC_CHAIN_RESEND (R123). -/
def execAccChainResend (c : CoreId) (e : EngId) (g : GroupId) (b : Fin 16) (s : State) : Out := ev s fun s => s.resendBlock c e g b.val
/-- WRITE (R279). -/
def execWrite (s : State) : Out := ev s State.writeReq
/-- WRITE_SIGNAL (R253). -/
def execWriteSignal (s : State) : Out := ev s State.writeSignalReq
/-- READ (R279). -/
def execRead (s : State) : Out := ev s State.readReq
/-- READ_RSP (R278). -/
def execReadRsp (s : State) : Out := ev s State.readRsp
/-- SIGNAL_PACKET (R229). -/
def execSignalPacket (s : State) : Out := ev s State.signalReq
/-- HELD_SIGNAL_PERFORM (R253). -/
def execHeldSignalPerform (s : State) : Out := ev s State.performHeld
/-- ACC_CHAIN (R123). -/
def execAccChain (s : State) : Out := ev s State.accChain
/-- NACK (R263). -/
def execNack (s : State) : Out := ev s State.nackRsp
/-- FENCE_MARK (R279). -/
def execFenceMark (s : State) : Out := ev s State.fenceMark
/-- VIOLATION_NOTICE (R277). -/
def execViolationNotice (s : State) : Out := ev s State.violationNotice

end Sys2Proof.Machine
end

