-- ==== Sys2Proof/Machine/Parapet.lean ====
section
/-! DEFINITION. The Parapet edges (11): training (R300 to R306, R315, R316), the edge link layer with its CRC, go-back-N replay and
credits (R308 to R312), retrain (R313), module switch-off (R312, R314) and the credit timeout (R280). -/

namespace Sys2Proof.Machine

/-! ### Edge states and faults -/

/-- State codes of Table PAR-4. -/
def stSbDetect : BitVec 4 := 1
/-- SB_EXCHANGE. -/
def stExchange : BitVec 4 := 2
/-- MB_INIT. -/
def stMbInit : BitVec 4 := 3
/-- MB_TRAIN. -/
def stMbTrain : BitVec 4 := 4
/-- LINK_INIT. -/
def stLinkInit : BitVec 4 := 5
/-- ACTIVE. -/
def stActive : BitVec 4 := 6
/-- RETRAIN. -/
def stRetrain : BitVec 4 := 7
/-- DOWN. -/
def stDown : BitVec 4 := 8
/-- OFF. -/
def stOff : BitVec 4 := 9

/-- The edge stays OFF: no or a reserved attachment, compute with UCIE, or a die whose ROLE is unprogrammed or disabled (R318, R416). -/
def State.fusedOff (s : State) (e : EdgeId) : Bool :=
  s.attach e == 0 || decide (5 ≤ s.attach e) || (s.attach e == 1 && s.ucie e) || s.role == 0 || s.role == 3

/-- The edge that faces an edge of this die (Table PAR-2). -/
def facing (e : EdgeId) : EdgeId := Fin.ofNat 4 (e.val + 2)

/-- The adjacent site behind an edge (Table PAR-2); none outside the 3-bit coordinates. -/
def State.besideSite (s : State) (e : EdgeId) : Option (Nat × Nat) :=
  match e with
  | 0 => if s.siteY + 1 < 8 then some (s.siteX, s.siteY + 1) else none
  | 1 => if s.siteX + 1 < 8 then some (s.siteX + 1, s.siteY) else none
  | 2 => if s.siteY = 0 then none else some (s.siteX, s.siteY - 1)
  | 3 => if s.siteX = 0 then none else some (s.siteX - 1, s.siteY)

/-- The last peer's die ID. -/
def Edge.peerDie (x : Edge) : Nat := field x.peer.toNat 0 6

/-- Log a Parapet fault of module `m`, or of the whole edge with 31 (Table FLT-3), in class corrected. -/
def State.parLog (s : State) (e : EdgeId) (m code detail : Nat) : State :=
  s.log { cls := .corrected, code := code, block := 0x11, inst := e.val * 32 + m, pkey := none, detail := detail, address := (s.edges[e]).peerDie }

/-- The modules that may be used at all: not switched off until cold reset, nor held by a test instrument (R314). -/
def Edge.mayUse (x : Edge) : BitVec 20 := ~~~(x.offRetry ||| x.offCmd ||| x.offTrain ||| x.held ||| x.heldM)

/-- The packets an edge holds: waiting, in the stream, or not yet acknowledged. -/
def Edge.holding (x : Edge) : List Packet :=
  x.replayBuf.flatMap (fun t => t.ends.map (·.2)) ++ x.txEnds.map (·.2) ++ x.outq.toList.flatten

/-- The link layer of an edge that carries nothing. -/
def Edge.cleared (x : Edge) : Edge :=
  { x with
    outq := Vector.replicate 5 [], txStream := [], txEnds := [], txSeq := 0, replayBuf := [], resendAt := none, resendCount := 0
    rxLast := BitVec.ofNat 10 1023, rxNak := false, rxStream := [], credSeen := Vector.replicate 20 (Vector.replicate 5 0)
    credBack := Vector.replicate 20 (Vector.replicate 5 0), owed := Vector.replicate 5 0, retraining := false, offReq := 0 }

/-- The packets held for an edge are dropped under R271. -/
def State.flushEdge (s : State) (e : EdgeId) : State :=
  let l := (s.edges[e]).holding
  l.foldl (fun s p => s.routeDrop (.edge e) p false) (s.modEdge e Edge.cleared)

/-- The LINK event of an edge that has stopped carrying, at which Onaune compares the two paths: an edge that is DOWN beside a neighbour it had as
live is case 1 of Table FLT-7 (R404). -/
def State.edgeFell (s : State) (e : EdgeId) (old new : BitVec 4) : State :=
  let s := if new = stDown ∧ liveCode s.blf.known[e] then s.mismatch 1 (s.edges[e]).peerDie else s
  (s.linkEvent e old new).compareEdges

/-- The edge stops carrying: DOWN or OFF with a reason, its packets dropped, its PLL stopped (R327), 0x304 where `log` says, and a LINK event; a
LINK_RETRAIN that waits for it is answered TIMEOUT. -/
def State.edgeStops (s : State) (e : EdgeId) (st : BitVec 4) (reason : Nat) (log : Bool) : State :=
  let old := (s.edges[e]).state
  let s := s.modEdge e fun x => { x with state := st, reason := BitVec.ofNat 3 reason, on := 0, rate := 0, pll := false }
  let s := if log then s.parLog e 31 0x304 reason else s
  ((s.flushEdge e).edgeFell e old st).forWaiting (.awaitRetrain e) fun s p => s.respond p .timeout []

/-- The edge goes DOWN (R303, R301, R302, R312, R313); an edge that was live logs 0x304. -/
def State.edgeDown (s : State) (e : EdgeId) (reason : Nat) (log : Bool) : State :=
  s.edgeStops e stDown reason (log || (s.edges[e]).linked)

/-! ### Training (R300 to R306, R316) -/

/-- SB_DETECT: a peer answers an edge that listens (R300, R303), whose PLL starts (R327). -/
def State.sbDetect (s : State) (e : EdgeId) : State :=
  let x := s.edges[e]
  if (x.state = stSbDetect ∨ x.state = stDown) ∧ s.spireOn ∧ s.fatal = false then s.modEdge e fun x => { x with state := stExchange, pll := true } else s

/-- NO_PEER: no answer within 1 ms of SB_DETECT, or the peer of a trained edge falls silent (R303). -/
def State.noPeer (s : State) (e : EdgeId) : State :=
  let x := s.edges[e]
  if x.state = stSbDetect then (s.advanceTo (x.began + 100000)).edgeDown e 1 false
  else if x.state = stDown ∨ x.state = stOff ∨ x.state = 0 then s
  else s.edgeDown e 1 false

/-- A native peer's report passes R301. -/
def State.peerOk (s : State) (e : EdgeId) (p : ModulePeer) : Bool :=
  if s.attach e = 1 then
    p.edge.toNat == (facing e).val && p.module.toNat == 19 - p.m.val && some (p.x.toNat, p.y.toNat) == s.besideSite e && p.att == 1
  else p.att.toNat == s.attach e && p.module.toNat == 19 - p.m.val

/-- The failed lanes of a repair word, in its order (Table PAR-5). -/
def wordLanes (w : Word) : List Nat := ((List.range 4).map fun i => field w.toNat (7 * i) 7).filter fun l => l < 68

/-- The failed lanes of two repair words, rising. -/
def unionLanes (a b : List Nat) : List Nat := (List.range 68).filter fun l => a.contains l || b.contains l

/-- A map with failed lanes and the replaced track and valid lanes. -/
def mapWord (lanes : List Nat) (trk vld : Bool) : Word :=
  BitVec.ofNat 32 (((List.range 4).map fun i => (lanes[i]?).getD 0x7F * 2 ^ (7 * i)).sum + b2n trk * 2 ^ 28 + b2n vld * 2 ^ 29)

/-- The fused repair word of a module and direction (Table PAR-9). -/
def State.fusedWord (s : State) (e : EdgeId) (m : Fin 20) (rx : Bool) : Word :=
  s.blf.shadow[Fin.ofNat 256 (64 + (e.val * 20 + m.val) * 2 + b2n rx)]

/-- The union of two repair words; none when it makes the module off. -/
def unionWord (a b : Word) : Option Word :=
  let l := unionLanes (wordLanes a) (wordLanes b)
  if 4 < l.length ∨ bitOf a.toNat 30 ∨ bitOf b.toNat 30 then none
  else some (mapWord l (bitOf a.toNat 28 || bitOf b.toNat 28) (bitOf a.toNat 29 || bitOf b.toNat 29))

/-- What this die's modules send on their sidebands: die ID, site, edge, module number, attachment code and their two repair words, or in UCIe
mode the rate offered (R301, R305, R316). -/
def State.sbReport (s : State) (e : EdgeId) : List ModulePeer :=
  ((List.finRange 20).filter fun m => bitOf (s.edges[e]).mayUse.toNat m.val).map fun m =>
    if s.ucie e then
      { m := m, dieId := 0, x := 0, y := 0, edge := 0, module := 0, att := 0, repairTx := 0, repairRx := 0
        ucieRate := some (Fin.ofNat 4 (s.edges[e]).targetRate.toNat) }
    else
      { m := m, dieId := s.dieId, x := BitVec.ofNat 3 s.siteX, y := BitVec.ofNat 3 s.siteY, edge := BitVec.ofNat 2 e.val, module := BitVec.ofNat 5 m.val
        att := BitVec.ofNat 3 (s.attach e), repairTx := s.fusedWord e m false, repairRx := s.fusedWord e m true, ucieRate := none }

/-- One module's exchange in native mode: usable, kept off with 0x303, or off for its repair words (R301, R305). -/
def State.exchangeNative (s : State) (e : EdgeId) (p : ModulePeer) : State :=
  if bitOf (s.edges[e]).mayUse.toNat p.m.val = false then s
  else if !s.peerOk e p then s.log { cls := .corrected, code := 0x303, block := 0x11, inst := e.val * 32 + p.m.val, pkey := none, detail := 0
                                     address := p.dieId.toNat }
  else match unionWord (s.fusedWord e p.m false) p.repairRx, unionWord (s.fusedWord e p.m true) p.repairTx with
    | some t, some r => s.modEdge e fun x => { x with
        usable := putBit x.usable p.m.val true, mapTx := upd x.mapTx p.m fun _ => t, mapRx := upd x.mapRx p.m fun _ => r }
    | _, _ => s.modEdge e fun x => { x with offTrain := putBit x.offTrain p.m.val true }

/-- One module's negotiation in UCIe mode (R316). -/
def State.exchangeUcie (s : State) (e : EdgeId) (p : ModulePeer) : State :=
  match p.ucieRate with
  | some r => if bitOf (s.edges[e]).mayUse.toNat p.m.val ∧ r.val ≤ (s.edges[e]).targetRate.toNat then s.modEdge e fun x => { x with
      usable := putBit x.usable p.m.val true, negotiated := upd x.negotiated p.m fun _ => BitVec.ofNat 2 r.val
      mapTx := upd x.mapTx p.m fun _ => Config.cleanRepair, mapRx := upd x.mapRx p.m fun _ => Config.cleanRepair } else s
  | none => s

/-- SB_EXCHANGE (R301, R305, R316). -/
def State.sbExchange (s : State) (e : EdgeId) (peers : List ModulePeer) : State :=
  if (s.edges[e]).state ≠ stExchange then s
  else
    let sent := s.sbReport e
    let s := s.modEdge e fun x => { x with
      usable := 0, mapTx := Vector.replicate 20 0, mapRx := Vector.replicate 20 0, startFails := 0, sbOut := sent
      lanesTx := Vector.replicate 20 [], lanesRx := Vector.replicate 20 [] }
    if s.ucie e then (peers.foldl (fun s p => s.exchangeUcie e p) s).modEdge e fun x => { x with state := stMbInit }
    else
      let named := (peers.find? fun p => s.peerOk e p).orElse fun _ => peers.head?
      let s := s.modEdge e fun x => { x with peer := match named with
        | some p => BitVec.ofNat 32 (p.dieId.toNat + 64 * p.edge.toNat + 256 * p.att.toNat + 2048)
        | none => 0 }
      let s := peers.foldl (fun s p => s.exchangeNative e p) s
      if !peers.isEmpty && peers.all (fun p => !s.peerOk e p) then s.edgeDown e 2 false
      else s.modEdge e fun x => { x with state := stMbInit }

/-- One direction's lane test joined to its map: the lanes newly found failed, and the new map unless the module is off. -/
def testDir (map : Word) (t : DirTest) : List Nat × Option Word :=
  let known := wordLanes map
  let found := (unionLanes (t.lanes.map (·.val)) []).filter fun l => !known.contains l
  let all := unionLanes known found
  let trk := bitOf map.toNat 28 || t.trk
  let vld := bitOf map.toNat 29 || t.vld
  (found, if 4 < all.length ∨ t.clk ∨ (vld ∧ t.vldSpare) ∨ (trk ∧ t.trkSpare) then none else some (mapWord all trk vld))

/-- The physical lanes of logical lanes 0 to 63: the good ones of D0 to D67 in order, skipping the failed set (R306). -/
def physicalLanes (map : Word) : List Nat := ((List.range 68).filter fun l => !(wordLanes map).contains l).take 64

/-- A module's maps, with the lanes they leave. -/
def Edge.putMaps (x : Edge) (m : Fin 20) (tx rx : Word) (lanesTx lanesRx : List Nat) : Edge :=
  { x with
    mapTx := upd x.mapTx m fun _ => tx, mapRx := upd x.mapRx m fun _ => rx, lanesTx := upd x.lanesTx m fun _ => lanesTx
    lanesRx := upd x.lanesRx m fun _ => lanesRx }

/-- A module that fails its initialisation is off until cold reset. -/
def Edge.initFails (x : Edge) (m : Fin 20) : Edge :=
  { x.putMaps m 0 0 [] [] with usable := putBit x.usable m.val false, offTrain := putBit x.offTrain m.val true }

/-- One module's MB_INIT test (R305). In UCIe mode the standard's initialisation repairs its lanes and gives the map to report (R315, R316). -/
def State.initModule (s : State) (e : EdgeId) (t : LaneTest) : State :=
  let x := s.edges[e]
  if bitOf x.usable.toNat t.m.val = false then s
  else if s.ucie e then match t.ucie with
    | some r => s.modEdge e fun x => x.putMaps t.m (r.1 &&& 0x7FFFFFFF) (r.2 &&& 0x7FFFFFFF) [] []
    | none => s.modEdge e fun x => x.initFails t.m
  else
    let a := testDir x.mapTx[t.m] t.tx
    let b := testDir x.mapRx[t.m] t.rx
    let found := a.1 ++ b.1
    let s := found.foldl (fun s l => s.parLog e t.m.val 0x302 l) s
    let s := s.modEdge e fun x => { x with startFails := BitVec.ofNat 8 (min 255 (x.startFails.toNat + found.length)) }
    match a.2, b.2 with
    | some p, some q => s.modEdge e fun x => x.putMaps t.m p q (physicalLanes p) (physicalLanes q)
    | _, _ => s.modEdge e fun x => x.initFails t.m

/-- MB_INIT. -/
def State.mbInit (s : State) (e : EdgeId) (tests : List LaneTest) : State :=
  if (s.edges[e]).state ≠ stMbInit then s
  else (tests.foldl (fun s t => s.initModule e t) s).modEdge e fun x => { x with state := stMbTrain }

/-- The modules that pass at a rate: usable, by the eye check, and in UCIe mode negotiated at least that high. -/
def State.passAt (s : State) (e : EdgeId) (eyes : List RateEye) (r : Fin 4) : BitVec 20 :=
  let x := s.edges[e]
  let eye := ((eyes.find? fun y => y.rate == r).map (·.pass)).getD 0
  let base := x.usable &&& x.mayUse &&& eye
  if s.ucie e then base &&& BitVec.ofNat 20 (((List.finRange 20).map fun m => if r.val ≤ (x.negotiated[m]).toNat then 2 ^ m.val else 0).sum) else base

/-- The chosen rate (R302): the largest n(r) × r over the rates up to the target, the higher rate among equals. -/
def State.chooseRate (s : State) (e : EdgeId) (eyes : List RateEye) : Option (Fin 4) :=
  let score := fun r : Fin 4 => popcount (s.passAt e eyes r).toNat 20 * (r.val + 1)
  ((List.finRange 4).filter fun r => r.val ≤ (s.edges[e]).targetRate.toNat).foldl (fun best r =>
    if score r = 0 then best else match best with
      | none => some r
      | some b => if score b ≤ score r then some r else some b) none

/-- MB_TRAIN. A module under test counts as failing and so stays off (R302, R443). A retrain passes through it at the present rate, with the present modules (R313). -/
def State.mbTrain (s : State) (e : EdgeId) (eyes : List RateEye) : State :=
  if (s.edges[e]).retraining then
    (if (s.edges[e]).state = stRetrain then s.modEdge e fun x => { x with state := stMbTrain } else s)
  else if (s.edges[e]).state ≠ stMbTrain then s
  else match s.chooseRate e eyes with
    | none => s.edgeDown e 3 true
    | some r =>
      let pass := s.passAt e eyes r
      let keep := fun (v : Vector Word 20) => Vector.ofFn fun m : Fin 20 => if bitOf pass.toNat m.val then v[m] else 0
      let lanes := fun (v : Vector (List Nat) 20) => Vector.ofFn fun m : Fin 20 => if bitOf pass.toNat m.val then v[m] else []
      s.modEdge e fun x => { x with
        state := stLinkInit, rate := BitVec.ofNat 2 r.val, usable := pass, offTrain := x.offTrain ||| ((x.usable ||| x.held ||| x.heldM) &&& ~~~pass)
        mapTx := keep x.mapTx, mapRx := keep x.mapRx, lanesTx := lanes x.lanesTx, lanesRx := lanes x.lanesRx }

/-- The credits of an empty peer buffer, in 64-byte units (Table FAB-8). -/
def fullCredits : Vector Nat 5 := #v[128, 128, 32, 32, 32]

/-- The credits of every VC are initialised (R280). -/
def Edge.initCredits (x : Edge) (now : Nat) : Edge :=
  { x with
    credits := fullCredits, creditSince := Vector.replicate 5 now, credSeen := Vector.replicate 20 (Vector.replicate 5 0)
    credBack := Vector.replicate 20 (Vector.replicate 5 0), owed := Vector.replicate 5 0 }

/-- The port's down mark clears (R280). -/
def State.clearMark (s : State) (e : EdgeId) : State :=
  s.modSpire fun p => { p with down := putBit p.down e.val false, cto := putBit p.cto e.val false }

/-- Case 2 of R404: the peer is not the die of the adjacent site. -/
def State.comparePeer (s : State) (e : EdgeId) : State :=
  let x := s.edges[e]
  if s.attach e = 1 ∧ (s.besideSite e).map (fun b => b.2 * 8 + b.1) ≠ some x.peerDie then s.disagree 2 x.peerDie else s

/-- LINK_INIT: the edge becomes ACTIVE. A retrain passes through it too (R313). -/
def State.linkInit (s : State) (e : EdgeId) : State :=
  if (s.edges[e]).retraining then
    (if (s.edges[e]).state = stMbTrain then s.modEdge e fun x => { x with state := stLinkInit } else s)
  else if (s.edges[e]).state ≠ stLinkInit then s
  else
    let old := s.blf.known[e]
    let s := s.modEdge e fun x => { (x.cleared.initCredits s.now) with state := stActive, reason := 0, on := x.usable, bad := Vector.replicate 20 0,
                                                                          winAt := Vector.replicate 20 s.now }
    (((s.clearMark e).linkEvent e old stActive).comparePeer e).compareEdges

/-! ### The link layer: receiving (R308 to R311) -/

/-- The bytes of a flit. -/
def flitBytes (f : FlitIn) : List Byte := leBytes f.bits.toNat 256

/-- Both CRCs hold (Table PAR-6). -/
def flitGood (bs : List Byte) : Bool :=
  leNat ((bs.drop 124).take 4) == (crc32 (bs.take 124)).toNat && leNat ((bs.drop 252).take 4) == (crc32 ((bs.drop 128).take 124)).toNat

/-- The 244 payload bytes of a flit. -/
def flitPayload (bs : List Byte) : List Byte := (bs.drop 4).take 120 ++ (bs.drop 128).take 124

/-- One module's flit of a slot: the link control word and payload of a good one. -/
structure RxFlit where
  m : Fin 20
  good : Bool
  word : Nat
  payload : List Byte

/-- The active modules of an edge, rising. -/
def Edge.active (x : Edge) : List (Fin 20) := (List.finRange 20).filter fun m => bitOf x.on.toNat m.val

/-- A slot as received: one entry for each active module; a missing flit is bad. -/
def Edge.rxSlot (x : Edge) (flits : List FlitIn) : List RxFlit :=
  x.active.map fun m => match flits.find? fun f => f.m == m with
    | some f =>
      let bs := flitBytes f
      { m := m, good := flitGood bs, word := leNat (bs.take 4), payload := flitPayload bs }
    | none => { m := m, good := false, word := 0, payload := [] }

/-- Count a slot's bad flits. -/
def Edge.countBad (x : Edge) (l : List RxFlit) : Edge :=
  l.foldl (fun x f => if f.good then x else { x with badFlits := satAdd x.badFlits 1, bad := upd x.bad f.m (· + 1) }) x

/-- Take the credits a good flit reports (R310). -/
def Edge.takeCredit (now : Nat) (x : Edge) (f : RxFlit) : Edge :=
  let v := field f.word 22 3
  let total : BitVec 6 := BitVec.ofNat 6 (field f.word 25 6)
  if f.good ∧ v < 5 then
    let i : Fin 5 := Fin.ofNat 5 v
    let d := (total - (x.credSeen[f.m])[i]).toNat
    if d = 0 then x
    else { x with
      credits := upd x.credits i (· + d), creditSince := upd x.creditSince i fun _ => now, credSeen := upd x.credSeen f.m fun c => upd c i fun _ => total }
  else x

/-- Start a replay from the oldest held slot (R311), unless one is under way, which the NAK that started it repeats until it has been answered
(log entry 63). A slot that has been resent 16 times without progress makes the edge retrain. -/
def Edge.replay (x : Edge) : Edge :=
  if x.replayBuf.isEmpty ∨ x.resendAt.isSome then x
  else if 16 ≤ x.resendCount then { x with state := stRetrain, retraining := true, resendAt := none, resendCount := 0 }
  else { x with replays := satAdd x.replays 1, resendCount := x.resendCount + 1, resendAt := some 0 }

/-- Held slots that an ACK releases. -/
def Edge.acked (x : Edge) (ack : BitVec 10) : Nat :=
  match x.replayBuf with
  | [] => 0
  | t :: _ => let n := (ack - t.seq).toNat + 1; if n ≤ x.replayBuf.length then n else 0

/-- ACK and NAK from the lowest active module's flit. -/
def State.takeAck (s : State) (e : EdgeId) (f : RxFlit) : State :=
  if !f.good then s
  else
    let x := s.edges[e]
    let n := x.acked (BitVec.ofNat 10 (field f.word 11 10))
    let done := (x.replayBuf.take n).flatMap fun t => t.ends
    let s := s.modEdge e fun x => { x with
      replayBuf := x.replayBuf.drop n, resendAt := (x.resendAt.map fun i => i - n).filter fun i => i < x.replayBuf.length - n
      resendCount := if n = 0 then x.resendCount else 0 }
    let s := done.foldl (fun s p => s.leave p.2) s
    if bitOf f.word 21 then s.modEdge e Edge.replay else s

/-- The packets at the front of a stream and what remains. A zero word where a header would begin ends the slot's part. -/
def parseStream : Nat → List Byte → List Packet × List Byte
  | 0, bs => ([], bs)
  | n + 1, bs =>
    if bs.length < 4 then ([], bs)
    else if leNat (bs.take 4) = 0 then ([], [])
    else if bs.length < 32 then ([], bs)
    else
      let h := leNat (bs.take 32)
      let len := if field h 4 6 = 3 then 0 else 16 * field h 10 6
      if bs.length < 32 + len then ([], bs)
      else
        let r := parseStream n (bs.drop (32 + len))
        (packetOf h ((bs.drop 32).take len) :: r.1, r.2)

/-- A data slot is taken in sequence, discarded with a NAK, or ignored as a repeat (R311). -/
def State.takeSlot (s : State) (e : EdgeId) (l : List RxFlit) : State :=
  let x := s.edges[e]
  let good := l.filter (·.good)
  let data := good.any fun f => bitOf f.word 0
  if l.all (·.good) then
    if !data then s
    else
      let seq : BitVec 10 := BitVec.ofNat 10 (field ((l.map (·.word)).headD 0) 1 10)
      if seq = x.rxLast + 1 then
        let r := parseStream 4096 (x.rxStream ++ l.flatMap (·.payload))
        let s := s.modEdge e fun x => { x with rxLast := seq, rxNak := false, rxStream := r.2 }
        r.1.foldl (fun s p => s.arrive e p) s
      else if (x.rxLast - seq).toNat < 512 then s
      else s.modEdge e fun x => { x with rxNak := true }
  else if data ∨ good.isEmpty then s.modEdge e fun x => { x with rxNak := true }
  else s

/-! ### The link layer: sending (R291, R308 to R311) -/

/-- Credits a packet takes. -/
def Packet.cost (p : Packet) : Nat := (p.size + 63) / 64

/-- A class has a packet waiting that its credits admit. -/
def Edge.canSend (x : Edge) (i : Fin 5) : Bool :=
  match x.outq[i] with
  | p :: _ => decide (Packet.cost p ≤ x.credits[i])
  | [] => false

/-- The class granted next (R291). -/
def Edge.grant (x : Edge) : Option (Fin 5) := grantOf x.arb x.canSend

/-- The granted packet enters the stream. A packet that leaves through an edge proxy leaves the fabric (R288). -/
def State.streamOne (s : State) (e : EdgeId) (i : Fin 5) : State :=
  match (s.edges[e]).outq[i] with
  | [] => s
  | p :: r =>
    let foreign := s.foreign e
    let s := s.modEdge e fun x =>
      let left := x.credits[i] - Packet.cost p
      let stream := x.txStream ++ p.bytes
      { x with
        outq := upd x.outq i fun _ => r
        arb := passedOver x.arb (fun j => !(x.outq[j]).isEmpty) i
        credits := upd x.credits i fun _ => left
        creditSince := if left = 0 then upd x.creditSince i fun _ => s.now else x.creditSince
        txStream := stream
        txEnds := if foreign then x.txEnds else x.txEnds ++ [(stream.length, { p with payload := [] })] }
    if foreign then s.leave p else s

/-- Packets enter the stream until a slot is full. -/
def State.fillStream (s : State) (e : EdgeId) : Nat → State
  | 0 => s
  | n + 1 =>
    let x := s.edges[e]
    if 244 * x.active.length ≤ x.txStream.length then s
    else match x.grant with
      | some i => (s.streamOne e i).fillStream e n
      | none => s

/-- A new data slot is cut from the stream. -/
def Edge.cutSlot (x : Edge) : Edge :=
  let n := 244 * x.active.length
  let slot : TxSlot := { seq := x.txSeq, sentAt := x.slotCount, bytes := x.txStream.take n, ends := x.txEnds.filter fun y => y.1 ≤ n }
  { x with
    replayBuf := x.replayBuf ++ [slot], txSeq := x.txSeq + 1, txStream := x.txStream.drop n
    txEnds := (x.txEnds.filter fun y => n < y.1).map fun y => (y.1 - n, y.2) }

/-- The link control word of module `m` in a slot (Table PAR-7); credits are withheld while the die drains (R402). -/
def Edge.control (x : Edge) (withheld : Bool) (m : Fin 20) (slot : Option TxSlot) : Nat :=
  let v := x.slotCount % 5
  (match slot with
    | some t => 1 + 2 * t.seq.toNat
    | none => 0)
    + 2048 * x.rxLast.toNat + 2 ^ 21 * b2n x.rxNak + 2 ^ 22 * (if withheld then 7 else v)
    + 2 ^ 25 * (if withheld then 0 else (x.credBack[m])[Fin.ofNat 5 v] % 64)

/-- The credits owed for the class whose turn it is are shared out over the active modules and reported: no module's total moves by more than 31
in one report, so that a lost one cannot alias (R310; DESIGN CHOICE, log entry 65). Nothing is reported while the die drains (R402). -/
def Edge.reportCredits (x : Edge) (withheld : Bool) : Edge :=
  if withheld then x
  else
    let v := Fin.ofNat 5 (x.slotCount % 5)
    (x.active.foldl (fun (a : Edge × Nat) m =>
      let n := min 31 ((a.1.owed[v] + a.2 - 1) / a.2)
      ({ a.1 with credBack := upd a.1.credBack m fun c => upd c v (· + n), owed := upd a.1.owed v (· - n) }, a.2 - 1)) (x, x.active.length)).1

/-- A flit with its CRCs. -/
def makeFlit (m : Fin 20) (word : Nat) (payload : List Byte) : FlitIn :=
  let p := payload ++ List.replicate (244 - payload.length) 0
  let a := leBytes word 4 ++ p.take 120
  let b := p.drop 120
  { m := m, bits := BitVec.ofNat 2048 (leNat (a ++ leBytes (crc32 a).toNat 4 ++ b ++ leBytes (crc32 b).toNat 4)), off := false }

/-- The flits of a slot over the active modules. -/
def Edge.flitsOf (x : Edge) (withheld : Bool) (slot : Option TxSlot) : List FlitIn :=
  x.active.zipIdx.map fun y => makeFlit y.1 (x.control withheld y.1 slot) (match slot with
    | some t => (t.bytes.drop (244 * y.2)).take 244
    | none => [])

/-- The edge sends one slot: a held slot being resent, a new data slot while fewer than 64 are held, or an idle slot. -/
def State.sendSlot (s : State) (e : EdgeId) : State :=
  let s := s.modEdge e fun x => x.reportCredits s.d2Pending
  let x := s.edges[e]
  match x.resendAt with
  | some i =>
    s.modEdge e fun x => { x with
      lastTx := x.flitsOf s.d2Pending x.replayBuf[i]?, slotCount := x.slotCount + 1
      replayBuf := x.replayBuf.modify i fun t => { t with sentAt := x.slotCount }
      resendAt := if i + 1 < x.replayBuf.length then some (i + 1) else none }
  | none =>
    let s := if x.replayBuf.length < 64 then s.fillStream e 64 else s
    let y := s.edges[e]
    if y.txStream.isEmpty ∨ 64 ≤ y.replayBuf.length then
      s.modEdge e fun x => { x with lastTx := x.flitsOf s.d2Pending none, slotCount := x.slotCount + 1 }
    else
      s.modEdge e fun x =>
        let z := x.cutSlot
        { z with lastTx := z.flitsOf s.d2Pending z.replayBuf.getLast?, slotCount := x.slotCount + 1 }

/-! ### Switching modules off (R312, R314) -/

/-- Held slots go back to the front of the stream, to be cut for the narrower stripe. -/
def Edge.recut (x : Edge) : Edge :=
  let r := x.replayBuf.foldl (fun (acc : List Byte × List (Nat × Packet)) t =>
    (acc.1 ++ t.bytes, acc.2 ++ t.ends.map fun y => (acc.1.length + y.1, y.2))) ([], [])
  { x with
    txStream := r.1 ++ x.txStream, txEnds := r.2 ++ x.txEnds.map fun y => (r.1.length + y.1, y.2)
    txSeq := x.txSeq - BitVec.ofNat 10 x.replayBuf.length, replayBuf := [], resendAt := none }

/-- Modules leave the stripe; `ask` when this die is the one that asks its peer for it (R312 step 1). -/
def State.modulesOff (s : State) (e : EdgeId) (mask : BitVec 20) (cmd ask : Bool) : State :=
  let s := s.modEdge e fun x =>
    let y := x.recut
    { y with
      offReq := if ask then x.offReq ||| mask else x.offReq
      lanesTx := Vector.ofFn fun m : Fin 20 => if bitOf mask.toNat m.val then [] else x.lanesTx[m]
      lanesRx := Vector.ofFn fun m : Fin 20 => if bitOf mask.toNat m.val then [] else x.lanesRx[m]
      on := x.on &&& ~~~mask, usable := x.usable &&& ~~~mask
      offCmd := if cmd then x.offCmd ||| (x.on &&& mask) else x.offCmd, offRetry := if cmd then x.offRetry else x.offRetry ||| mask
      mapTx := Vector.ofFn fun m : Fin 20 => if bitOf mask.toNat m.val then 0 else x.mapTx[m]
      mapRx := Vector.ofFn fun m : Fin 20 => if bitOf mask.toNat m.val then 0 else x.mapRx[m] }
  (bitsSet mask.toNat 20).foldl (fun s m => s.parLog e m 0x303 (if cmd then 2 else 1)) s

/-- Modules whose count passed THRESH are switched off together; without one left the edge goes DOWN (R312). -/
def State.retryStorm (s : State) (e : EdgeId) : State :=
  let x := s.edges[e]
  let hot := x.active.filter fun m => x.thresh.toNat < x.bad[m]
  if hot.isEmpty then s
  else
    let s := hot.foldl (fun s m => s.parLog e m.val 0x301 (x.bad[m])) s
    let s := s.modulesOff e (BitVec.ofNat 20 (hot.map fun m => 2 ^ m.val).sum) false true
    if (s.edges[e]).on = 0 then s.edgeDown e 3 true else s

/-- Active modules of a mask are switched off because the peer asks for it (R312, R314; which of its reasons it has is not said, DESIGN CHOICE,
log entry 64: the retry's). -/
def State.peerOff (s : State) (e : EdgeId) (mask : BitVec 20) : State :=
  let mask := mask &&& (s.edges[e]).on
  if mask = 0 then s
  else
    let s := s.modulesOff e mask false false
    if (s.edges[e]).on = 0 then s.edgeDown e 3 true else s

/-- The modules whose sideband asks for their switch-off. -/
def askedOff (flits : List FlitIn) : BitVec 20 := flits.foldl (fun v f => if f.off then putBit v f.m.val true else v) 0

/-- FLIT: one slot time of an ACTIVE edge: a slot is received and one is sent. -/
def State.flit (s : State) (e : EdgeId) (flits : List FlitIn) : State :=
  if (s.edges[e]).state ≠ stActive ∨ s.spireOn = false then s
  else
    let l := (s.edges[e]).rxSlot flits
    let s := s.modEdge e fun x => { x with offReq := 0 }
    let s := s.modEdge e fun x => l.foldl (Edge.takeCredit s.now) (x.countBad l)
    let s := match l with
      | f :: _ => s.takeAck e f
      | [] => s
    let s := s.takeSlot e l
    let s := (s.retryStorm e).peerOff e (askedOff flits)
    if (s.edges[e]).state = stActive then s.sendSlot e else s

/-! ### Timers and retrain (R280, R311 to R313) -/

/-- The oldest held slot has waited 256 slot times since it was last sent. -/
def Edge.slotLate (x : Edge) : Bool :=
  match x.replayBuf with
  | t :: _ => decide (t.sentAt + 256 ≤ x.slotCount)
  | [] => false

/-- REPLAY_TIMEOUT: the oldest held slot has waited 256 slot times. -/
def State.replayTimeout (s : State) (e : EdgeId) : State :=
  if (s.edges[e]).state = stActive ∧ (s.edges[e]).slotLate then s.modEdge e Edge.replay else s

/-- RETRY_WINDOW_END: the window of WINDOW µs in which a module counts its bad flits ends, and its count restarts. -/
def State.retryWindowEnd (s : State) (e : EdgeId) (m : Fin 20) : State :=
  let x := s.edges[e]
  let w := x.window.toNat * 100
  let ends := x.winAt[m] + w
  let s := s.advanceTo ends
  s.modEdge e fun x => { x with bad := upd x.bad m fun _ => 0, winAt := upd x.winAt m fun _ => ends + (s.now - ends) / w * w }

/-- RETRAIN ends, having passed MB_TRAIN and LINK_INIT: ACTIVE again with held slots to resend, or DOWN (R313); the peer's switch-off requests
take effect within it (R314), and a LINK_RETRAIN command is answered. -/
def State.retrainEnds (s : State) (e : EdgeId) (fin : RetrainEnd) : State :=
  if (s.edges[e]).retraining = false then s
  else
  let s := s.peerOff e fin.off
  if (s.edges[e]).retraining = false then s
  else if fin.ok then
    let s := s.modEdge e fun x => { (x.initCredits s.now) with
      state := stActive, retraining := false, resendAt := if x.replayBuf.isEmpty then none else some 0, resendCount := 0 }
    let s := s.clearMark e
    let s := if liveCode s.blf.known[e] then s else s.linkEvent e s.blf.known[e] stActive
    s.forWaiting (.awaitRetrain e) fun s p => s.respond p .ok []
  else s.edgeDown e 4 true

/-- A credit timer of an edge has reached the limit at `t`. -/
def State.creditLate (s : State) (e : EdgeId) (t : Nat) (i : Fin 5) : Bool :=
  let x := s.edges[e]
  decide (x.credits[i] = 0 ∧ x.creditSince[i] + s.spire.creditTo.toNat ≤ t)

/-- CREDIT_TIMEOUT: the port is marked down, and its waiting packets are dropped (R280, R271). DETAIL names the lowest VC whose timer has
reached the limit. -/
def State.creditTimeout (s : State) (e : EdgeId) (v : VcClass) : State :=
  let x := s.edges[e]
  let i := clsIdx v
  if x.state ≠ stActive ∨ x.credits[i] ≠ 0 ∨ bitOf s.spire.down.toNat e.val ∨ s.spireOn = false then s
  else
    let s := s.advanceTo (x.creditSince[i] + s.spire.creditTo.toNat)
    let low := ((List.finRange 5).find? (s.creditLate e s.now)).getD i
    let s := s.log { cls := .contained, code := 0x204, block := 0x10, inst := e.val, pkey := none, detail := e.val + 4 * low.val, address := x.peerDie }
    let s := s.modSpire fun p => { p with down := putBit p.down e.val true, cto := putBit p.cto e.val true }
    let s := s.modEdge e fun x => { x with outq := Vector.replicate 5 [] }
    let s := x.outq.toList.flatten.foldl (fun s p => s.routeDrop (.edge e) p false) s
    s.compareEdges

/-! ### The meanings -/

/-- SB_DETECT (R300). -/
def execSbDetect (e : EdgeId) (s : State) : Out := ev s fun s => s.sbDetect e
/-- NO_PEER (R303). -/
def execNoPeer (e : EdgeId) (s : State) : Out := ev s fun s => s.noPeer e
/-- SB_EXCHANGE (R301). -/
def execSbExchange (e : EdgeId) (peers : List ModulePeer) (s : State) : Out := ev s fun s => s.sbExchange e peers
/-- MB_INIT (R305). -/
def execMbInit (e : EdgeId) (tests : List LaneTest) (s : State) : Out := ev s fun s => s.mbInit e tests
/-- MB_TRAIN (R302). -/
def execMbTrain (e : EdgeId) (eyes : List RateEye) (s : State) : Out := ev s fun s => s.mbTrain e eyes
/-- LINK_INIT (R280). -/
def execLinkInit (e : EdgeId) (s : State) : Out := ev s fun s => s.linkInit e
/-- FLIT (R311). -/
def execFlit (e : EdgeId) (flits : List FlitIn) (s : State) : Out := ev s fun s => s.flit e flits
/-- REPLAY_TIMEOUT (R311). -/
def execReplayTimeout (e : EdgeId) (s : State) : Out := ev s fun s => s.replayTimeout e
/-- RETRY_WINDOW_END (R312). -/
def execRetryWindowEnd (e : EdgeId) (m : Fin 20) (s : State) : Out := ev s fun s => s.retryWindowEnd e m
/-- RETRAIN (R313). -/
def execRetrain (e : EdgeId) (fin : RetrainEnd) (s : State) : Out := ev s fun s => s.retrainEnds e fin
/-- CREDIT_TIMEOUT (R280). -/
def execCreditTimeout (e : EdgeId) (vc : VcClass) (s : State) : Out := ev s fun s => s.creditTimeout e vc

end Sys2Proof.Machine
end

