-- ==== Sys2Proof/Machine/Losses.lean ====
section
/-! DEFINITION. What a core loses: on entry to C3 or C4 (R65, R195), at core reset, die warm reset and tenant clear (R65, R157, R193, R195,
R214, R258, Table BOT-4), and when its arrays are zeroed (R233, R329, R30). -/

namespace Sys2Proof.Machine

/-- An engine loses its state (R65). Its 64-bit counters, ENG_MODE and queue are not part of it. -/
def Engine.lose (x : Engine) : Engine :=
  { x with
    flags := 0, replayCount := 0, slots := Vector.replicate 16 none, toInstall := [], array := none, restore := .none, orient := false
    feedPos := 0, flight := [], stageWait := none, groups := Vector.replicate 8 Group.closed }

/-- The vector engine's registers as R195 resets them. -/
def VecEngine.lose (x : VecEngine) : VecEngine :=
  { x with vl := 512, a := Vector.replicate 16 0, v := Vector.replicate 32 VReg.zero, sr := seeded 0, seed := 0 }

/-- Every group of core `c` reads zero. -/
def State.zeroGroups (s : State) (c : CoreId) : State :=
  s.setMem ((List.finRange 4).foldl (fun m e => m.clear (lanternBase c e + 0x20000) 0x10000) s.mem)

/-- The core's engines and vector registers are lost (R65, R195). -/
def State.loseUnits (s : State) (c : CoreId) : State :=
  (s.zeroGroups c).modCore c fun k => { k with eng := vmap Engine.lose k.eng, vec := k.vec.lose }

/-- Zero a core's Cupola and Lantern (R233 step 5, R329). -/
def State.zeroArrays (s : State) (c : CoreId) : State := s.setMem (s.mem.clear (coreBase c) 0x1000000)

/-- The core's registers and units as core reset leaves them, with SEQ_FAULT_DESC at `stop` (Table TIL-1); the tags of its discarded entries are
not used again while an answer may still come. -/
def Core.clearedUnits (now wait stop : Nat) (k : Core) : Core :=
  { k with
    eng := Vector.replicate 4 Engine.reset, vec := VecEngine.reset, mov := Mover.reset
    seq := { Sequencer.reset with faultDesc := BitVec.ofNat 23 stop }
    cnt := Vector.replicate 64 0, sat := 0, under := 0, cntCtrl := 3, bellWake := 0, countReg := Vector.replicate 16 0
    outst := [], deadTags := k.outst.map (fun o => (o.pkt.tag.toNat, now + wait)) ++ k.deadTags, bellPend := false
    c1Ticks := 0, visitStart := now, visitNoLearn := false }

/-- Core reset of core `c` (R65, R157, R193, R195, R214, R258, Table BOT-4); memory but for the groups stays, a fatal freeze stays (R427), and
SEQ_FAULT_DESC keeps the first descriptor that did not complete (Table TIL-1, R401). -/
def State.resetCore (s : State) (c : CoreId) : State :=
  let s := (s.zeroGroups c).modCore c (Core.clearedUnits s.now s.waitDefault ((s.core c).firstOpen.getD 0))
  if s.fatal then s.freezeMask c 0x7F .fatal else s

/-! ### Gate ramps (R325, R326) -/

/-- The core waits for its gate ramp: it wakes from C3 or C4 and its ramp has not begun. -/
def Core.awaitsRamp (k : Core) : Bool := k.waking && k.here && k.rampAt.isNone && (k.cstate == .c3 || k.cstate == .c4)

/-- The waiting core that is served next: the lowest number (R326). -/
def State.nextRamp (s : State) : Option CoreId := (List.finRange 16).find? fun c => (s.core c).awaitsRamp

/-- The first moment at which a ramp may begin, 500 ns after the one before (R326). A ramp takes 2 µs, so no more than four overlap. -/
def State.rampFree (s : State) : Nat :=
  match s.bronze.lastRamp with
  | some t => t + 50
  | none => 0

/-- The gate ramp of core `c` begins at the moment `t`, and its PLL is started for the wake (R327). -/
def State.beginRamp (s : State) (c : CoreId) (t : Nat) : State :=
  (s.modCore c fun k => { k with rampAt := some t, pll := true }).modBrz fun b => { b with lastRamp := some t }

/-- The ramps that have become free by now go to the waiting cores in increasing number. -/
def State.serveRamps : Nat → State → State
  | 0, s => s
  | n + 1, s => match s.nextRamp with
    | some c => if s.rampFree ≤ s.now then (s.beginRamp c s.rampFree).serveRamps n else s
    | none => s

/-- Core `c` begins to wake: out of C2 its PLL starts, out of C3 and C4 it asks for a gate ramp (R326, R329). -/
def State.askWake (s : State) (c : CoreId) : State :=
  let s := (serveRamps 16 s).modCore c fun k => { k with waking := true, pll := k.pll || k.cstate == .c2 }
  if s.nextRamp = some c ∧ s.rampFree ≤ s.now then s.beginRamp c s.now else s

/-- The ramps up to that of core `c` begin in their turn. -/
def State.rampsTo (c : CoreId) : Nat → State → State
  | 0, s => s
  | n + 1, s => match s.nextRamp, (s.core c).awaitsRamp with
    | some d, true => (s.beginRamp d s.rampFree).rampsTo c n
    | _, _ => s

/-- The gate ramp of core `c` has had its turn and lasted `d` bt; the whole ramp takes 200. A wake out of C2 takes none. -/
def State.rampPasses (s : State) (c : CoreId) (d : Nat) : State :=
  let s := rampsTo c 16 s
  match (s.core c).rampAt with
  | some t => s.advanceTo (t + d)
  | none => s

/-- The core enters a sleep state, once every access already accepted for it has been performed (R25): its PLL stops (R327), and from C3 on it
loses its engine state. A wake already asked for follows the entry (R332). -/
def State.sleepCore (s : State) (c : CoreId) (goal : CState) : State :=
  let s := (s.performFor c).modCore c fun k => { k with
    cstate := goal, waking := k.waking && goal != .c4, rampAt := none, pll := false, bellPend := k.bellPend && goal != .c4, c1Ticks := 0, droop := false }
  let s := if goal = .c3 ∨ goal = .c4 then s.loseUnits c else s
  if (s.core c).waking then s.askWake c else s

end Sys2Proof.Machine
end

