-- ==== Sys2Proof/Machine/Bronze.lean ====
section
/-! DEFINITION. Bronze (12): core and die states, the throttle and frequency loops, the interval loop with ballast and
telemetry, rail samples, alerts, heat, ageing and Belfry time (R321 to R361). -/

namespace Sys2Proof.Machine

/-! ### Small helpers -/

/-- The next moment of a periodic action after `last`. -/
def nextTick (last period : Nat) : Nat := (last / period + 1) * period

/-- The calibration record's 16-bit field at an offset. -/
def State.cal16 (s : State) (o : Nat) : Nat := leNat ((s.blf.cal.drop o).take 2)

/-- Bronze runs on safe values: CAL_INVALID, or no record yet (R358; the second DEDUCED, log entry 134). -/
def State.calSafe (s : State) : Bool := s.bronze.calInvalid || s.blf.cal.isEmpty

/-- Vmin of core `c` at frequency step `i`, mV (Table PWR-9, R358). -/
def State.vmin (s : State) (c : CoreId) (i : Nat) : Nat :=
  if s.calSafe then 850 else s.cal16 (0x140 + c.val * 80 + 2 * i)

/-- The highest Vmin that any core in C0 or C1 needs (R323), with core `c` at step `i` where `alt` says so. -/
def State.needVolt (s : State) (alt : Option (CoreId × Nat)) : Nat :=
  (List.finRange 16).foldl (fun m c =>
    let k := s.core c
    if k.here && k.cstate == .c0 then
      let i := match alt with
        | some (d, j) => if c = d then j else k.freq.toNat
        | none => k.freq.toNat
      max m (s.vmin c i) else m) 0

/-- Bronze sets the VDD_ENG target when some core runs (R323). -/
def State.setVolt (s : State) (mv : Nat) : State :=
  if mv = 0 ∨ mv = s.bronze.voltTarget then s else s.modBrz fun b => { b with voltTarget := mv, voltSince := s.now }

/-- The voltage decision for the cores as they are. -/
def State.decideVolt (s : State) : State := s.setVolt (s.needVolt none)

/-- The highest step up to `i` that the present voltage supports on core `c`. -/
def State.supported (s : State) (c : CoreId) (i : Nat) : Nat :=
  match ((List.range (i + 1)).filter fun j => s.vmin c j ≤ s.bronze.vddMv).getLast? with
  | some j => j
  | none => 0

/-- Bronze presets a core's k for its present phase (R332, R336, R343). -/
def State.preset (s : State) (c : CoreId) : State := s.presetFor c (s.core c).seq.phase

/-- Log a Bronze fault, an event at which Onaune compares the two paths (R404). -/
def State.brzLog (s : State) (cls : FaultClass) (code detail addr : Nat) : State :=
  (s.logTo true { cls := cls, code := code, block := 0x18, inst := 0, pkey := none, detail := detail, address := addr }).compareEdges

/-! ### Core and die states (R325, R329 to R333, R402, R30) -/

/-- BELL_WAKE: a core in C2 or C3 whose enabled bell fired begins to wake (R248, R331). -/
def State.bellWakes (s : State) (c : CoreId) : State :=
  let k := s.core c
  if k.bellPend ∧ (k.cstate = .c2 ∨ k.cstate = .c3) ∧ k.here then (s.modCore c fun k => { k with bellPend := false }).askWake c else s

/-- A command that waits for cores waits for core `c` no more; once none is left it is answered. -/
def State.wakeSeen (s : State) (c : CoreId) : State :=
  [CtlPort.A, CtlPort.B].foldl (fun s p => match (s.port p).phase with
    | .awaitWake m =>
      let m := m &&& ~~~(BitVec.ofNat 16 (2 ^ c.val))
      if m = 0 ∧ (s.port p).executing.isSome then s.respond p .ok []
      else s.modPort p fun q => { q with phase := .awaitWake m }
    | _ => s) s

/-- The gate ramp finds the rail shorted at its stage 4, 1 µs in (R325); a command that waits for the core ends TIMEOUT. -/
def State.railShort (s : State) (c : CoreId) : State :=
  let s := s.rampPasses c 100
  let s := [CtlPort.A, CtlPort.B].foldl (fun s p => match (s.port p).phase with
    | .awaitWake m => if bitOf m.toNat c.val ∧ (s.port p).executing.isSome then s.respond p .timeout [] else s
    | _ => s) s
  ((s.logTo true { cls := .contained, code := 0x402, block := 6, inst := c.val, pkey := none, detail := 4, address := 0 }).modCore c
    fun k => { k with short := true, waking := false, rampAt := none, pll := false, bellPend := false, c1Ticks := 0 }).compareEdges

/-- CORE_WAKE: the wake completes after the core's gate ramp and PLL start (R326, R327, R329); out of C4 the arrays are zeroed. While AVS_ERR
holds, the core runs no faster than the present voltage supports (R323). -/
def State.coreWakes (s : State) (c : CoreId) (railOk : Bool) : State :=
  let k := s.core c
  if k.waking = false ∨ k.cstate = .c0 ∨ k.here = false then s
  else if railOk = false ∧ k.cstate ≠ .c2 then s.railShort c
  else
    let s := s.rampPasses c 200
    let s := if k.cstate = .c4 then s.zeroArrays c else s
    let hold := s.bronze.avsErr
    let top := BitVec.ofNat 6 (s.supported c k.freq.toNat)
    let s := s.modCore c fun k => { k with
      cstate := .c0, waking := false, rampAt := none, pll := true, bellPend := false, c1Ticks := 0, freq := if hold then top else k.freq }
    ((s.preset c).decideVolt).wakeSeen c

/-- A group of the core waits in WAIT_CHAIN or CLOSING (R330). -/
def Core.onChain (k : Core) : Bool := k.eng.toList.any fun x => x.groups.toList.any Group.onChain

/-- IDLE_TIMEOUT: a core that has stayed in C1 moves to C2 (R330). -/
def State.idles (s : State) (c : CoreId) : State :=
  let k := s.core c
  let due := s.bronze.c2After.toNat * 100
  let had := if k.c1Key = k.seq.issued + k.seq.retired.toNat + k.seq.skipped.toNat then k.c1Ticks else 0
  if due = 0 ∨ k.inC1 = false ∨ k.onChain ∨ k.here = false then s
  else ((s.advanceTo (s.now + (due - had))).sleepCore c .c2).decideVolt

/-- The die's links and its own traffic are drained (R402). -/
def State.drained (s : State) : Bool :=
  s.outstanding == 0 && s.spire.held.toList.all (· == 0)
    && (s.blf.ports.toList.all fun q => q.waiting.isEmpty) && (s.spire.inq.toList.all fun v => v.toList.all (·.isEmpty))
    && s.edges.toList.all fun x => x.holding.isEmpty

/-- A core without power: nothing written before is left in it (R30). -/
def Core.gone (now : Nat) (k : Core) : Core :=
  { Core.clearedUnits now 0 0 k with
    cstate := .c4, waking := false, rampAt := none, pll := false, c1Key := 0, droop := false, deadTags := [] }

/-- An edge without power: what keeps modules off until cold reset stays (R302, R312, R314). -/
def Edge.gone (x : Edge) : Edge :=
  { Edge.reset with offRetry := x.offRetry, offCmd := x.offCmd, offTrain := x.offTrain, held := x.held, heldM := x.heldM }

/-- The cores and the uncore lose their contents, and every PLL stops (Table DIE-9, R30, R327). Spire has left boot mode (R417). -/
def State.uncoreOff (s : State) : State :=
  { s with
    mem := Memory.empty, cores := vmap (Core.gone s.now) s.cores, edges := vmap Edge.gone s.edges
    spire := { Spire.reset s.siteX s.siteY with bootMode := s.spire.bootMode }
    bronze := { s.bronze with spirePll := false, domePll := false, lastRamp := none } }

/-- D2_ENTRY: the CORE_POWER command is answered while the links still run; once drained, the uncore is gated (R333, R402). -/
def State.entersD2 (s : State) : State :=
  if s.d2Pending = false ∨ s.dstate ≠ .up then s
  else if [CtlPort.A, CtlPort.B].any fun p => (s.port p).executing.isSome && (s.port p).phase == .awaitD2 then
    s.forWaiting .awaitD2 fun s p => s.respond p .ok []
  else if s.drained = false then s
  else
    let s := s.uncoreOff.modBlf fun b => { b with known := Vector.replicate 4 0 }
    { s with dstate := .d2, d2Pending := false }

/-- Leaving D2: every array and counter is cleared, the uncore's PLLs run, and the edges that are not fused OFF train again (R30, R327,
R333). -/
def State.leavesD2 (s : State) : State :=
  let s := { s with
    dstate := .up, mem := Memory.empty, cores := vmap (fun k => { k with cnt := Vector.replicate 64 0 }) s.cores
    bronze := { s.bronze with spirePll := true, domePll := true } }
  (List.finRange 4).foldl (fun s e => s.modEdge e fun x => { x with
    state := if s.fusedOff e then stOff else stSbDetect, reason := 0, began := s.now, pll := !s.fusedOff e }) s

/-- LOSS_OF_POWER: the rails go (R333, Table FLT-6). -/
def State.powerLost (s : State) : State := { s with dstate := .d3 }

/-- What the die drives on THERMTRIP_N: low while it is asserted, high otherwise, nothing while VDD_AON is out of range (R432). -/
def State.thermtripN (s : State) : Option Bool := if s.dstate = .d3 then none else some (!s.bronze.thermtrip)

/-! ### The fast loop and frequency (R335, R336, R323) -/

/-- The evaluations of 1 µs for which the prediction has stayed above 250 W, with this one. -/
def Bronze.spent (b : Bronze) (power : Nat) : Nat := if 16 * Config.limit1ms < power then b.overUs + 1 else 0

/-- A prediction breaks the excursion rule of Table PWR-4: above 320 W, or above 250 W for more than 50 µs. -/
def Bronze.excursion (b : Bronze) (power : Nat) : Bool := decide (5120 < power ∨ 50 < b.spent power)

/-- VDD_ENG current passes its figures in Table PWR-4, as predicted (the interval's sum of 1,000, the last 50 µs) or as measured (the interval's
sum of 100, the last 50 µs). -/
def Bronze.overCurrent (b : Bronze) (current : Nat) : Bool :=
  decide (currentLimit * 1000 < b.curSum + current ∨ 400000 * 50 < current + (b.curHist.take 49).sum
    ∨ currentLimit * 100 < b.maSum ∨ 400000 * 5 < b.maHist.sum)

/-- The ceilings a prediction does not fit, as bits numbered by LIMITER: 2 for the 1 ms limit, excursion and VDD_ENG current, 4 for the cap, 5 for
the ramp limit (Table PWR-5). The 1 ms limit, the cap and the ramp limit bound P(i), the mean of the interval's 1,000 evaluations (R334; log
entry 75). -/
def Bronze.binds (b : Bronze) (power current : Nat) : BitVec 6 :=
  let passes := fun w : Nat => decide (1000 * w < b.powSum + power)
  (if b.excursion power || b.overCurrent current || passes (16 * Config.limit1ms) then 0x04 else 0)
    ||| (if passes (16 * b.effective.toNat) then 0x10 else 0) ||| (if passes (b.p1ms.toNat + 16 * b.rampNow.toNat) then 0x20 else 0)

/-- The level the fast loop gives core `c`: any cut, or, where rises fit, one level up on a core that heat does not hold (R336, R340). -/
def State.levelAllowed (s : State) (rise : Bool) (c : CoreId) (want : BitVec 5) : BitVec 5 :=
  let k := (s.core c).k
  if s.rankOne then 1
  else if want = 0 ∨ 16 < want.toNat then k
  else if want.toNat ≤ k.toNat then want
  else if rise = false ∨ s.heatHolds c then k
  else k + 1

/-- The levels after one evaluation. A rise needs a prediction at the chosen levels that fits every ceiling (R339, R340); a cut that a ceiling
requires and the choice does not make is made on every core. -/
def State.newLevels (s : State) (p : Prediction) (choice : List (BitVec 5)) : Vector (BitVec 5) 16 :=
  let b := s.bronze
  let rise := decide (p.nextPower ≤ b.ceiling ∧ p.nextCurrent ≤ currentLimit)
  if b.binds p.power p.current ≠ 0 ∧ b.binds p.nextPower p.nextCurrent ≠ 0 then Vector.replicate 16 1
  else Vector.ofFn fun c : Fin 16 => s.levelAllowed rise c ((choice[c.val]?).getD 0)

/-- 0x404 once per interval (R335). -/
def State.logPeak (s : State) : State :=
  if s.bronze.peakLogged then s
  else (s.brzLog .corrected 0x404 s.bronze.cuts (s.blf.time.toNat / 100000 * 100000)).modBrz fun b => { b with peakLogged := true }

/-- The last `n` evaluations of a level history. -/
def trimHist : Nat → List (BitVec 5 × Nat) → List (BitVec 5 × Nat)
  | _, [] => []
  | n, (k, m) :: r => if n = 0 then [] else if n ≤ m then [(k, n)] else (k, m) :: trimHist (n - m) r

/-- A level history with one more evaluation. -/
def addLevel (k : BitVec 5) : List (BitVec 5 × Nat) → List (BitVec 5 × Nat)
  | (j, n) :: r => if j = k then (j, n + 1) :: r else (k, 1) :: (j, n) :: r
  | [] => [(k, 1)]

/-- The evaluations a history holds, and the sum of their levels. -/
def histLen (h : List (BitVec 5 × Nat)) : Nat := (h.map (·.2)).sum
/-- The sum of a history's levels. -/
def histSum (h : List (BitVec 5 × Nat)) : Nat := (h.map fun x => x.1.toNat * x.2).sum

/-- FAST_LOOP: one evaluation of 1 µs. -/
def State.fastLoop (s : State) (p : Prediction) (choice : List (BitVec 5)) : State :=
  let s := s.advanceTo (nextTick s.bronze.fastAt 100)
  let b := s.bronze
  let cut := b.excursion p.power
  let v := s.newLevels p choice
  let s := { s with cores := Vector.ofFn fun c : Fin 16 =>
    let k := s.core c
    { k with k := v[c], kHist := trimHist 10000 (addLevel v[c] k.kHist) } }
  let s := s.modBrz fun b => { b with
    fastAt := s.now, overUs := b.spent p.power, powSum := b.powSum + p.power, curSum := b.curSum + p.current
    curHist := p.current :: b.curHist.take 49, bound := b.bound ||| b.binds p.power p.current
    cuts := if cut then b.cuts + 1 else b.cuts, peakCount := if cut then satAdd b.peakCount 1 else b.peakCount }
  if cut then s.logPeak else s

/-- The present voltage carries step `i` on core `c` beside the other cores. -/
def State.voltFits (s : State) (c : CoreId) (i : Nat) : Bool := decide (s.needVolt (some (c, i)) ≤ s.bronze.vddMv)

/-- The next step fits every ceiling (R336, R340): the core's own, heat, power and VDD_ENG current. -/
def State.stepFits (s : State) (f : FreqTry) : Bool :=
  let k := s.core f.core
  decide (k.freq < k.ceiling) && !s.heatHolds f.core && decide (f.power ≤ s.bronze.ceiling ∧ f.current ≤ currentLimit)

/-- FREQUENCY_STEP: after 10 ms of low or full throttle the frequency moves one step (R336), voltage first on a rise (R323); the 10 ms begin again
at the step. -/
def State.freqStep (s : State) (f : FreqTry) : State :=
  let c := f.core
  let k := s.core c
  if histLen k.kHist < 10000 ∨ s.rankOne ∨ k.here = false ∨ k.cstate ≠ .c0 then s
  else if histSum k.kHist < 14 * 10000 then
    if k.freq = 0 then s
    else ((s.modCore c fun k => { k with freq := k.freq - 1, kHist := [] }).preset c).decideVolt
  else if histSum k.kHist = 16 * 10000 ∧ s.stepFits f then
    if s.voltFits c (k.freq.toNat + 1) then s.modCore c fun k => { k with freq := k.freq + 1, kHist := [] }
    else s.setVolt (s.needVolt (some (c, k.freq.toNat + 1)))
  else s

/-- AVS_ERR: the target is missed for 500 µs; every frequency is held at what the voltage supports (R323). -/
def State.avsFails (s : State) : State :=
  if s.bronze.vddMv = s.bronze.voltTarget ∨ s.bronze.avsErr then s
  else
    let s := s.advanceTo (s.bronze.voltSince + 50000)
    let s := s.modBrz fun b => { b with avsErr := true, avsAt := s.now }
    s.forCores fun s c => s.modCore c fun k => { k with freq := BitVec.ofNat 6 (s.supported c k.freq.toNat) }

/-- AVS_RETRY: the write is repeated 1 ms later; success ends the hold. -/
def State.avsRetries (s : State) (ok : Bool) : State :=
  if s.bronze.avsErr = false then s
  else
    let s := s.advanceTo (s.bronze.avsAt + 100000)
    s.modBrz fun b => if ok then { b with avsErr := false, vddMv := b.voltTarget, avsAt := s.now } else { b with avsAt := s.now }

/-! ### Rail samples and energy (R322, R349) -/

/-- VDD_ENG_SAMPLE: 10 µs of energy at the present rail powers, µW being mV × mA. -/
def State.vddSample (s : State) (mv ma : Nat) : State :=
  let s := s.advanceTo (nextTick s.bronze.vddAt 1000)
  s.modBrz fun b =>
    let p := mv * ma + b.railUw
    let e := b.energyFrac + p
    { b with
      vddAt := s.now, vddMv := mv, vddMa := ma, maHist := (ma :: b.maHist).take 5, maSum := b.maSum + ma, sampleSum := b.sampleSum + p, samples := b.samples + 1
      energyTotal := b.energyTotal + BitVec.ofNat 64 (e / 100000), energyFrac := e % 100000, energyTime := s.blf.time }

/-- RAIL_CURRENT_SAMPLE: the other three rails, at 750 mV (Table PWR-1). -/
def State.railSample (s : State) (mem io aon : Nat) : State :=
  let s := s.advanceTo (nextTick s.bronze.railAt 10000)
  s.modBrz fun b => { b with railAt := s.now, railUw := 750 * (mem + io + aon) }

/-! ### The interval loop (R334, R337 to R341, R351) -/

/-- The effective cap of the next interval (R337). -/
def Bronze.nextCap (b : Bronze) : Byte :=
  let t := b.target.toNat
  let e := b.effective.toNat
  if b.urgent then b.target
  else BitVec.ofNat 8 (if e < t then min t (e + b.ramp.toNat) else max t (e - b.ramp.toNat))

/-- An engine that may run ballast (R341), on a core that heat does not hold (R340). -/
def State.ballastEngine (s : State) : Bool :=
  (List.finRange 16).any fun c : CoreId =>
    let k := s.core c
    k.here && k.cstate == .c0 && k.owner.isSome && !s.heatHolds c && k.eng.toList.any fun x => x.q.queue.isEmpty && x.q.active.isEmpty

/-- The powers of one interval in 1/16 W. -/
structure IntervalPower where
  power : Nat
  ballast : Nat
deriving DecidableEq, Repr

/-- The loops of Table PWR-5 on a demand: ceilings cut it at once, ballast fills the ramp floor (R340, R341). The demand is what the die would
draw at the levels and frequencies that rank 1 and heat leave it. -/
def State.intervalOf (s : State) (demand : Nat) : IntervalPower :=
  let b := s.bronze
  let top := b.ceiling
  let use := min demand top
  let fill := min (16 * b.ballastLimit.toNat) (min ((b.p1ms.toNat - 16 * b.rampNow.toNat) - use) (top - use))
  let ballast := if s.ballastEngine && !s.rankOne then fill else 0
  { power := use + ballast, ballast := ballast }

/-- The LIMITER codes of the ceilings below a demand, and of the states of rank 1 and heat that stand. -/
def State.bindsNow (s : State) (demand : Nat) : BitVec 6 :=
  let b := s.bronze
  (if s.rankOne then 0x02 else 0) ||| (if 16 * Config.limit1ms < demand then 0x04 else 0) ||| (if b.therm then 0x08 else 0)
    ||| (if 16 * b.effective.toNat < demand then 0x10 else 0) ||| (if b.p1ms.toNat + 16 * b.rampNow.toNat < demand then 0x20 else 0)

/-- LIMITER: the loop of lowest rank among those that bound (R340); 0 for none. -/
def limiterOf (bound : BitVec 6) : Nat := ([1, 2, 3, 4, 5].find? (bitOf bound.toNat ·)).getD 0

/-- The mean of a list, with the rounding left open. -/
def openMean (key : Nat) (l : List Nat) : Nat := (openDiv key (l.sum : Int) (l.length : Int)).toNat

/-- Byte 18 of the telemetry record: the mean k of the present cores. -/
def State.meanK (s : State) : Nat :=
  let l := (s.cores.toList.filter Core.here).map fun k => 16 * k.k.toNat
  if l.isEmpty then 0 else openMean s.free l - 1

/-- The telemetry record (Table PWR-8). -/
def State.record (s : State) : List Byte :=
  let b := s.bronze
  leBytes s.blf.time.toNat 8 ++ leBytes b.p1ms.toNat 2 ++ leBytes (16 * b.effective.toNat) 2 ++ leBytes b.energyTotal.toNat 4
    ++ leBytes (sext 12 b.tmax.toNat % 65536).toNat 2 ++ leBytes s.meanK 1 ++ leBytes b.limiter.toNat 1

/-- Bytes 20 to 31 of the record for a mean ballast in 1/16 W. -/
def State.recordTail (s : State) (ballast : Nat) : List Byte :=
  let b := s.bronze
  leBytes ballast 2 ++ leBytes s.dieState 1
    ++ leBytes (b2n b.alertHold + 2 * b2n b.therm + 4 * b2n b.avsErr + 8 * b2n b.calInvalid + 16 * b2n b.rampShort + 32 * b2n s.blf.unsync) 1
    ++ leBytes 0 8

/-- TELEMETRY to a subscribed port: every DECIMATE-th record (SUBSCRIBE_TELEMETRY). -/
def State.sendTelemetry (s : State) (line : List Byte) (p : CtlPort) : State :=
  let q := s.port p
  if q.subscribed = false then s
  else if q.decimCount + 1 < q.decimate.toNat then s.modPort p fun q => { q with decimCount := q.decimCount + 1 }
  else (s.modPort p fun q => { q with decimCount := 0 }).postEvent p 3 line

/-- INTERVAL_END: P(i) is formed, the limits and ballast are applied, the caps move, telemetry goes out. P(i) is the mean of the interval's rail
samples, otherwise the demand with its ballast, and at most the lowest ceiling (R334, R340; log entry 73). -/
def State.intervalEnd (s : State) (demand : Nat) : State :=
  let s := s.advanceTo (s.now + (nextTick s.bronze.intervalAt 100000 - s.blf.time.toNat))
  let r := s.intervalOf demand
  let b := s.bronze
  let mean := (openDiv s.free (16 * b.sampleSum : Int) (1000000 * b.samples : Int)).toNat
  let p := if b.samples = 0 then r.power else min mean b.ceiling
  let hist := (p :: b.history).take 100
  let e := b.ballastFrac + 1000 * r.ballast
  let s := s.modBrz fun b => { b with
    intervalAt := s.blf.time.toNat, p1ms := BitVec.ofNat 16 p, history := hist, p100ms := BitVec.ofNat 16 (openMean (s.free + 1) hist)
    ballastActual := BitVec.ofNat 6 (openDiv (s.free + 2) (r.ballast : Int) 16).toNat
    energyBallast := b.energyBallast + BitVec.ofNat 64 (e / 16), ballastFrac := e % 16
    rampShort := decide (p < b.p1ms.toNat - 16 * b.rampNow.toNat), limiter := BitVec.ofNat 3 (limiterOf (b.bound ||| s.bindsNow demand)), bound := 0
    sampleSum := 0, samples := 0, cuts := 0, powSum := 0, curSum := 0, maSum := 0, peakLogged := false }
  let s := { s with free := s.free + 3 }
  let line := s.record ++ s.recordTail r.ballast
  let s := { s with free := s.free + 1 }
  let s := s.modBrz fun b => { b with effective := b.nextCap, rampNow := b.ramp, urgent := false, telemetry := line }
  (s.sendTelemetry line .A).sendTelemetry line .B

/-! ### Alerts, droop and heat (R344 to R347) -/

/-- Every core goes to k = 1 and the floor frequency (rank 1); the voltage follows (R323). -/
def State.floorAll (s : State) : State :=
  let s := s.modBrz fun b => { b with bound := b.bound ||| 0x02 }
  let s := { s with cores := vmap (fun (k : Core) => { k with k := 1, freq := 0 }) s.cores }
  s.decideVolt

/-- An assertion of PWR_ALERT_N (R345). -/
def State.alert (s : State) : State :=
  let s := s.floorAll
  let s := s.modBrz fun b => { b with alertHold := true, alertCount := satAdd b.alertCount 1, alertSince := s.now }
  s.brzLog .corrected 0x401 0 0

/-- PWR_ALERT_N is asserted. -/
def State.alertOn (s : State) : State :=
  if s.bronze.alertPin then s else s.alert.modBrz fun b => { b with alertPin := true }

/-- PWR_ALERT_N is deasserted: the 1 ms begins. -/
def State.alertOff (s : State) : State :=
  if s.bronze.alertPin then s.modBrz fun b => { b with alertPin := false, alertSince := s.now } else s

/-- THROTTLE_ALL: an assertion followed at once by a deassertion (R345). -/
def State.throttleAll (s : State) : State := s.alert

/-- ALERT_HOLD_RELEASE: 1 ms after the deassertion the hold ends. Levels and frequencies rise from there as R336 raises them (R339; DEDUCED, log
entry 77). -/
def State.releaseHold (s : State) : State :=
  if s.bronze.alertHold = false ∨ s.bronze.alertPin then s
  else (s.advanceTo (s.bronze.alertSince + 100000)).modBrz fun b => { b with alertHold := false }

/-- DROOP_TRIP (R344). -/
def State.droops (s : State) (c : CoreId) : State :=
  if (s.core c).cstate = .c0 ∧ (s.core c).here then
    (s.modCore c fun k => { k with droop := true }).modBrz fun b => { b with droopCount := satAdd b.droopCount 1 } else s

/-- STRETCH_RELEASE: 100 ns later the stretch is gone. -/
def State.unstretch (s : State) (c : CoreId) : State :=
  if (s.core c).droop then (s.pass 10).modCore c fun k => { k with droop := false } else s

/-- A sensor reading after trim, in 1/8 °C (Table PWR-9): raw × gain + offset, its rounding open; unit gain and no offset without a good
record (R358). -/
def State.trim (s : State) (i : Nat) (raw : BitVec 12) : BitVec 12 :=
  if s.calSafe then raw
  else
    let off := sext 16 (s.cal16 (0x10 + 4 * i))
    let gain := s.cal16 (0x12 + 4 * i)
    BitVec.ofInt 12 (max (-2048) (min 2047 (openDiv s.free (2 * sext 12 raw.toNat * gain + off * 0x8000) 0x10000)))

/-- The thermal throttle point and the point below which it ends, in 1/8 °C. -/
def Bronze.heatPoints (b : Bronze) : Int × Int := if b.calInvalid then (768, 752) else (800, 784)

/-- Whether a set of sensors throttles, given whether it did. -/
def Bronze.heats (b : Bronze) (was : Bool) (ids : List (Fin 40)) : Bool :=
  let t := ids.map fun i => sext 12 (b.sensors[i]).toNat
  t.any (fun x => b.heatPoints.1 ≤ x) || (was && !t.all fun x => x < b.heatPoints.2)

/-- The sensors of a throttled set: core `n`, or with 16 the Dome and Spire (Table PWR-7). -/
def heatSet (n : Nat) : List (Fin 40) :=
  if n < 16 then [Fin.ofNat 40 (2 * n), Fin.ofNat 40 (2 * n + 1)] else (List.range 8).map fun i => Fin.ofNat 40 (32 + i)

/-- The hottest sensor, the lowest number among equals. -/
def Bronze.hottest (b : Bronze) : Fin 40 :=
  (List.finRange 40).foldl (fun m i => if sext 12 (b.sensors[m]).toNat < sext 12 (b.sensors[i]).toNat then i else m) 0

/-- Sensor readings are taken over. -/
def State.readSensors (s : State) (readings : List (BitVec 12)) : State :=
  let s := (s.modBrz fun b => { b with
    sensors := Vector.ofFn fun i : Fin 40 => match readings[i.val]? with
      | some r => s.trim i.val r
      | none => b.sensors[i] }).takeFree
  s.modBrz fun b => { b with tmax := b.sensors[b.hottest], tmaxSensor := BitVec.ofNat 6 b.hottest.val }

/-- THERMAL_THROTTLE: an evaluation of 10 µs (R346). -/
def State.heatLoop (s : State) (readings : List (BitVec 12)) : State :=
  let s := (s.advanceTo (nextTick s.bronze.thermAt 1000)).readSensors readings
  let b := s.bronze
  let hot : BitVec 17 := BitVec.ofNat 17 (((List.range 17).map fun n => if b.heats (bitOf b.hot.toNat n) (heatSet n) then 2 ^ n else 0).sum)
  let s := s.modBrz fun b => { b with thermAt := s.now, hot := hot, therm := hot != 0, bound := if hot = 0 then b.bound else b.bound ||| 0x08 }
  { s with cores := Vector.ofFn fun c : Fin 16 =>
    let k := s.core c
    if s.heatHolds c && decide (1 < k.k.toNat) then { k with k := k.k - 1 } else k }

/-- Every edge goes OFF because the die has fenced itself (R403 step 4). -/
def State.fatalOff (s : State) : State :=
  let s := { s with edges := vmap (fun x => { x with state := stOff, on := 0, rate := 0, pll := false }) s.edges }
  (List.finRange 4).foldl State.flushEdge s

/-- THERMAL_TRIP (R347): the pin, the state of rank 1, and steps 1 to 3 of R403. The edges go OFF at once, by the row FATAL_EDGE_OFF that may follow
with no time between; packets of MGT that Spire holds and the FAULT event go first. -/
def State.thermTrip (s : State) (i : Fin 40) (temp : BitVec 12) : State :=
  if sext 12 temp.toNat < 920 ∨ s.bronze.thermtrip then s
  else
    let s := s.floorAll
    let s := s.modBrz fun b => { b with sensors := upd b.sensors i fun _ => temp, thermtrip := true }
    let s := s.modBrz fun b => { b with tmax := b.sensors[b.hottest], tmaxSensor := BitVec.ofNat 6 b.hottest.val }
    s.fence 0x403 0x18 0 i.val temp.toNat

/-- THERMTRIP_N: driven while the rails stand, and asserted from a trip to the next PORST_N (R347, R432); none, it floats. -/
def State.thermtripPin (s : State) : Option Bool := if s.dstate = .d3 then none else some s.bronze.thermtrip

/-- FATAL_EDGE_OFF: 100 µs after a fatal fault, at once after 0x403 (R403 step 4). -/
def State.fatalEdges (s : State) : State :=
  if s.fatal ∧ (s.edges.toList.any fun x => x.state != stOff) then
    (s.advanceTo (s.fatalAt + if s.bronze.thermtrip then 0 else 10000)).fatalOff else s

/-! ### Ageing and time (R353, R328) -/

/-- FMAX_AGEING: one step less, to no less than 92 % of the fused fmax; an FMAX event. -/
def State.ages (s : State) (c : CoreId) : State :=
  let k := s.core c
  let fused := 1100 + 25 * s.fmaxCode c.val
  let mhz := 400 + 25 * (k.fmaxEff.toNat - 1)
  if k.fmaxEff = 0 ∨ 100 * mhz < 92 * fused ∨ k.here = false then s
  else
    let s := s.modCore c fun k =>
      let i := k.fmaxEff - 1
      { k with
        fmaxEff := i, ceiling := if i < k.ceiling then i else k.ceiling, freq := if i < k.freq then i else k.freq
        aged := BitVec.ofNat 8 (openDiv s.free (1000 * ((fused : Int) - mhz)) fused).toNat }
    (s.takeFree.decideVolt.postBoth 8 (leBytes (c.val + 256 * (k.fmaxEff.toNat - 1)) 4)).compareEdges

/-- The edges whose sideband reaches a compute neighbour. -/
def State.syncEdges (s : State) : List EdgeId :=
  (List.finRange 4).filter fun e => s.attach e == 1 && !([0, 1, 8, 9].contains (s.edges[e]).state.toNat)

/-- Markers counted; the third clears UNSYNC (R328). -/
def Belfry.marked (b : Belfry) (now : Nat) : Belfry :=
  { b with markers := min 3 (b.markers + 1), lastMarker := now, unsync := b.unsync && decide (b.markers + 1 < 3) }

/-- TIME_SYNC: a marker arrives, corrected by half the round trip; time is slewed to it and it is forwarded (R328). -/
def State.timeSync (s : State) (e : EdgeId) (stamp rt : Nat) : State :=
  if s.blf.root ∨ s.syncEdges.contains e = false then s
  else
    let t := (stamp : Int) + openDiv s.free rt 2
    let out := (s.syncEdges.filter (· != e)).map fun f => (f, BitVec.ofInt 64 t)
    (s.modBlf fun b => { (b.marked s.now) with slew := t - b.time.toNat, marksOut := out }).takeFree

/-- TIME_SYNC_SEND: the root's marker of each 1 ms. -/
def State.timeSend (s : State) : State :=
  if s.blf.root = false then s
  else
    let s := s.advanceTo (nextTick s.blf.syncAt 100000)
    s.modBlf fun b => { (b.marked s.now) with syncAt := s.now, marksOut := s.syncEdges.map fun f => (f, b.time) }

/-- UNSYNC: 10 ms without a marker. -/
def State.unsyncs (s : State) : State :=
  if s.blf.root then s
  else (s.advanceTo (s.blf.lastMarker + 1000000)).modBlf fun b => { b with unsync := true, markers := 0 }

/-! ### The meanings -/

/-- BELL_WAKE (R248). -/
def execBellWake (c : CoreId) (s : State) : Out := ev s fun s => s.bellWakes c
/-- CORE_WAKE (R329). -/
def execCoreWake (c : CoreId) (railOk : Bool) (s : State) : Out := ev s fun s => s.coreWakes c railOk
/-- IDLE_TIMEOUT (R330). -/
def execIdleTimeout (c : CoreId) (s : State) : Out := ev s fun s => s.idles c
/-- D2_ENTRY (R402). -/
def execD2Entry (s : State) : Out := ev s fun s => s.entersD2
/-- FAST_LOOP (R335). -/
def execFastLoop (pred : Prediction) (choice : List (BitVec 5)) (s : State) : Out := ev s fun s => s.fastLoop pred choice
/-- FREQUENCY_STEP (R336). -/
def execFrequencyStep (f : FreqTry) (s : State) : Out := ev s fun s => s.freqStep f
/-- INTERVAL_END (R334). -/
def execIntervalEnd (demand : BitVec 16) (s : State) : Out := ev s fun s => s.intervalEnd demand.toNat
/-- VDD_ENG_SAMPLE (R322). -/
def execVddEngSample (mv ma : Nat) (s : State) : Out := ev s fun s => s.vddSample mv ma
/-- RAIL_CURRENT_SAMPLE (R322). -/
def execRailCurrentSample (mem io aon : Nat) (s : State) : Out := ev s fun s => s.railSample mem io aon
/-- AVS_ERR (R323). -/
def execAvsErr (s : State) : Out := ev s fun s => s.avsFails
/-- AVS_RETRY (R323). -/
def execAvsRetry (ok : Bool) (s : State) : Out := ev s fun s => s.avsRetries ok
/-- PWR_ALERT_N (R345). -/
def execPwrAlertN (s : State) : Out := ev s fun s => s.alertOn
/-- PWR_ALERT_N_DEASSERT (R345). -/
def execPwrAlertDeassert (s : State) : Out := ev s fun s => s.alertOff
/-- ALERT_HOLD_RELEASE (R345). -/
def execAlertHoldRelease (s : State) : Out := ev s fun s => s.releaseHold
/-- DROOP_TRIP (R344). -/
def execDroopTrip (c : CoreId) (_d : Fin 4) (s : State) : Out := ev s fun s => s.droops c
/-- STRETCH_RELEASE (R344). -/
def execStretchRelease (c : CoreId) (s : State) : Out := ev s fun s => s.unstretch c
/-- THERMAL_THROTTLE (R346). -/
def execThermalThrottle (readings : List (BitVec 12)) (s : State) : Out := ev s fun s => s.heatLoop readings
/-- THERMAL_TRIP (R347). -/
def execThermalTrip (sensor : Fin 40) (temp : BitVec 12) (s : State) : Out := ev s fun s => s.thermTrip sensor temp
/-- FATAL_EDGE_OFF (R403). -/
def execFatalEdgeOff (s : State) : Out := ev s fun s => s.fatalEdges
/-- FMAX_AGEING (R353). -/
def execFmaxAgeing (c : CoreId) (s : State) : Out := ev s fun s => s.ages c
/-- TIME_SYNC (R328). -/
def execTimeSync (e : EdgeId) (stamp roundTrip : Nat) (s : State) : Out := ev s fun s => s.timeSync e stamp roundTrip
/-- TIME_SYNC_SEND (R328). -/
def execTimeSyncSend (s : State) : Out := ev s fun s => s.timeSend
/-- UNSYNC (R328). -/
def execUnsync (s : State) : Out := ev s fun s => s.unsyncs
/-- LOSS_OF_POWER (R333). -/
def execLossOfPower (s : State) : Out := ev s fun s => s.powerLost

end Sys2Proof.Machine
end

