-- ==== Sys2Proof/Machine/Mailbox.lean ====
section
/-! DEFINITION. The mailboxes of Campanile (13): MGMT packets and doorbells (R364 to R369), semaphores (R375 to R378), freezing
and reset of a port (R379 to R382), taking a command (R370, R373) and writing a response (R367, R371). -/

namespace Sys2Proof.Machine

/-! ### Commands (Tables ONA-8 to ONA-12) -/

/-- A command's mark in the Sem column (R377). -/
inductive Mark where
  | free | hold (n : Fin 32) | other (n : Fin 32)
deriving DecidableEq, Repr

/-- What the tables say of a command: the table that lists it (its state class, R370), whether it changes state, its mark, and whether
it defines FLAGS bit 0. -/
structure CmdInfo where
  table : Nat
  changes : Bool
  mark : Mark
  opt : Bool
deriving DecidableEq, Repr

/-- The row of a command code. -/
def cmdInfo (code : Nat) : Option CmdInfo :=
  match code with
  | 0x0100 => some ⟨8, false, .free, false⟩
  | 0x0101 => some ⟨8, false, .free, false⟩
  | 0x0102 => some ⟨8, false, .free, false⟩
  | 0x0103 => some ⟨8, true, .free, false⟩
  | 0x0200 => some ⟨8, true, .hold 2, false⟩
  | 0x0201 => some ⟨8, true, .hold 2, false⟩
  | 0x0202 => some ⟨8, true, .hold 2, false⟩
  | 0x0203 => some ⟨8, true, .hold 2, false⟩
  | 0x0300 => some ⟨8, true, .other 2, false⟩
  | 0x0301 => some ⟨8, true, .other 2, false⟩
  | 0x0302 => some ⟨8, false, .free, false⟩
  | 0x0400 => some ⟨9, true, .hold 1, false⟩
  | 0x0401 => some ⟨9, true, .hold 1, false⟩
  | 0x0402 => some ⟨9, true, .hold 1, false⟩
  | 0x0403 => some ⟨9, true, .hold 1, true⟩
  | 0x0404 => some ⟨9, true, .hold 1, false⟩
  | 0x0500 => some ⟨9, true, .free, false⟩
  | 0x0501 => some ⟨9, true, .hold 1, false⟩
  | 0x0502 => some ⟨9, true, .hold 1, false⟩
  | 0x0503 => some ⟨9, false, .free, false⟩
  | 0x0600 => some ⟨10, true, .other 0, true⟩
  | 0x0601 => some ⟨10, false, .free, false⟩
  | 0x0602 => some ⟨10, true, .other 0, false⟩
  | 0x0603 => some ⟨10, true, .other 0, false⟩
  | 0x0604 => some ⟨10, false, .free, false⟩
  | 0x0605 => some ⟨10, true, .free, false⟩
  | 0x0606 => some ⟨10, true, .free, false⟩
  | 0x0607 => some ⟨10, true, .other 0, false⟩
  | 0x0700 => some ⟨10, true, .other 0, false⟩
  | 0x0701 => some ⟨10, true, .other 2, false⟩
  | 0x0702 => some ⟨10, true, .other 0, false⟩
  | 0x0800 => some ⟨11, false, .free, false⟩
  | 0x0801 => some ⟨11, true, .other 2, false⟩
  | 0x0802 => some ⟨11, true, .other 2, false⟩
  | 0x0803 => some ⟨11, true, .other 2, false⟩
  | 0x0804 => some ⟨11, true, .hold 1, false⟩
  | 0x0805 => some ⟨11, true, .hold 2, false⟩
  | 0x0806 => some ⟨11, true, .hold 2, false⟩
  | 0x0807 => some ⟨11, false, .free, false⟩
  | 0x0900 => some ⟨12, false, .free, false⟩
  | 0x0901 => some ⟨12, true, .hold 3, true⟩
  | 0x0A00 => some ⟨12, true, .hold 3, false⟩
  | 0x0A01 => some ⟨12, true, .hold 3, false⟩
  | 0x0B00 => some ⟨12, true, .other 2, false⟩
  | 0x0B01 => some ⟨12, true, .free, false⟩
  | _ => none

/-- The semaphore a mark names. -/
def Mark.sem : Mark → Option Nat
  | .free => none
  | .hold n => some n.val
  | .other n => some n.val

/-- The row of a command as its arguments make it: URGENT needs H, RELEASE needs H, and reading phase entries nothing. -/
def cmdOf (cmd : BitVec 512) : Option CmdInfo :=
  (cmdInfo (slotCode cmd)).map fun i =>
    if slotCode cmd = 0x0403 ∧ slotFlags cmd % 2 = 0 then { i with mark := .free, changes := false }
    else if slotCode cmd = 0x0600 ∧ slotFlags cmd % 2 = 1 then { i with mark := .hold 0 }
    else if slotCode cmd = 0x0607 ∧ slotBytes (slotArgs cmd) 8 1 = 0 then { i with mark := .free, changes := false }
    else i

/-- A malformed slot (R373 step 2). -/
def malformedSlot (cmd : BitVec 512) : Bool :=
  let sem := (cmdInfo (slotCode cmd)).bind (·.mark.sem)
  decide (2 ≤ slotFlags cmd) || decide (56 < slotArgLen cmd) || slotBytes cmd 7 1 != 0 || !(slotSem cmd == 0xFF || some (slotSem cmd) == sem)

/-! ### Semaphores (R375 to R378) -/

/-- The owner code of a port. -/
def ownerCode (p : CtlPort) : BitVec 2 := BitVec.ofNat 2 ((portIdx p).val + 1)

/-- A SEM event. -/
def semData (n : Fin 32) (op : Nat) (st : Status) (owner : BitVec 2) : List Byte :=
  leBytes (n.val + 256 * op) 2 ++ leBytes st.code 2 ++ leBytes owner.toNat 1

/-- What an operation of Table ONA-7 does: the status, and the semaphore after it. -/
def Sem.apply (x : Sem) (p : CtlPort) (op : Nat) (lease now : Nat) : Status × Sem :=
  let own := x.owner == ownerCode p
  let idle := x.owner == 0
  let fresh : Sem := { owner := ownerCode p, lapsed := false, lease := BitVec.ofNat 16 lease, ends := now + lease * 100000 }
  match op with
  | 0 => if idle || own then (.ok, fresh) else (.busy, x)
  | 1 => if own then (.ok, fresh) else if idle then (.conflict, x) else (.busy, x)
  | 2 => if own then (.ok, { owner := 0, lapsed := false, lease := x.lease, ends := 0 }) else (.conflict, x)
  | _ => if !idle && !own && x.lapsed then (.ok, fresh) else (.conflict, x)

/-- A BLF_PORT_SEM_OP write of a port: the event goes to it, a successful break's to both. A lease beyond 60,000 ms is taken
as 60,000, and a frozen port's operations are answered FROZEN. -/
def State.semOp (s : State) (p : CtlPort) (n : Fin 32) (op : Nat) (lease : Nat) : State :=
  let x := s.blf.sems[n]
  let ms := if lease = 0 then 1000 else min lease 60000
  let r := if (s.port p).frozen then (Status.frozen, x) else x.apply p op ms s.now
  let s := s.modBlf fun b => { b with sems := upd b.sems n fun _ => r.2 }
  if op = 3 ∧ r.1 = .ok then s.postBoth 5 (semData n op r.1 r.2.owner) else s.postEvent p 5 (semData n op r.1 r.2.owner)

/-- Release every semaphore a port owns; `tell` sends a SEM event to both ports for each (R380). -/
def State.releaseSems (s : State) (p : CtlPort) (tell : Bool) : State :=
  (List.finRange 32).foldl (fun (s : State) n =>
    if (s.blf.sems[n]).owner = ownerCode p then
      let s := s.modBlf fun b => { b with sems := upd b.sems n fun x => { x with owner := 0, lapsed := false, ends := 0 } }
      if tell then s.postBoth 5 (semData n 2 .ok 0) else s
    else s) s

/-- SEM_LEASE_LAPSE: the lease runs out at its end (R376). -/
def State.leaseLapses (s : State) (n : Fin 32) : State :=
  let x := s.blf.sems[n]
  if x.owner = 0 ∨ x.lapsed then s
  else
    let s := (s.advanceTo x.ends).modBlf fun b => { b with sems := upd b.sems n fun x => { x with lapsed := true } }
    s.postBoth 5 (semData n 4 .ok x.owner)

/-- The outcome of step 4 of R373: none when the command may go on. -/
def State.semCheck (s : State) (p : CtlPort) (m : Mark) : Option Status :=
  match m with
  | .free => none
  | .hold n =>
    let x := s.blf.sems[n]
    if x.owner = ownerCode p then (if x.lapsed then some .notReady else none)
    else if x.owner = ownerCode (otherPort p) ∧ x.lapsed = false then some .busy else some .denied
  | .other n =>
    let x := s.blf.sems[n]
    if x.owner = ownerCode (otherPort p) ∧ x.lapsed = false then some .busy else none

/-! ### Freezing a port (R379, R380) -/

/-- A port is frozen for a cause; `sec` is the security version of a rejected image (cause 3), which sets AUTH_FAIL (Table BOT-6). -/
def State.freezePort (s : State) (p : CtlPort) (cause sec : Nat) : State :=
  let s := s.modPort p fun q => { q with frozen := true, cause := BitVec.ofNat 3 cause }
  let s := s.releaseSems p true
  let s := if cause = 3
    then s.logTo true { cls := .contained, code := 0x702, block := 0x19, inst := 0, pkey := none, detail := sec, address := 0 }
    else s.logTo true { cls := .contained, code := 0x701, block := 0x1A, inst := (portIdx p).val, pkey := none, detail := (portIdx p).val, address := 0 }
  let s := if cause = 3 then s.modBlf fun b => { b with authFail := true } else s
  s.postBoth 6 (leBytes (portIdx p).val 2 ++ leBytes cause 1)

/-! ### MGMT packets and doorbells (R364, R365, R369) -/

/-- An MGMT packet is discarded: counted, and 0x701 at most once per 1 ms (R365). -/
def State.rejectMgmt (s : State) (p : CtlPort) (die addr : Nat) : State :=
  (s.modBlf fun b => { b with mgtReject := satAdd b.mgtReject 1 }).logLimited 100000 true
    { cls := .contained, code := 0x701, block := 0x1A, inst := (portIdx p).val, pkey := none, detail := die, address := addr }

/-- A TAIL write (R369); none when it would take slots back. -/
def State.tailWrite (s : State) (p : CtlPort) (new : BitVec 4) : Option State :=
  let q := s.port p
  let h := (q.cmdTail - q.cmdHead).toNat
  let n := (new - q.cmdHead).toNat
  if n < h then none
  else if n = h then some s
  else
    let k := s.blf.doorbells
    some ((s.modPort p fun q => { q with cmdTail := new, stamps := q.stamps ++ List.replicate (n - h) k }).modBlf fun b => { b with doorbells := k + 1 })

/-- A write of 1 to BLF_PORT_CTRL.RESET (R382). Onaune, once it runs, answers with READY: at once where it is ready and executes nothing. -/
def State.portReset (s : State) (p : CtlPort) : State :=
  let s := s.releaseSems p false
  let now := s.blf.stage = 5 ∧ (s.port p).executing.isNone
  let s := s.modPort p fun q => { q with
    cmdTail := 0, cmdHead := 0, rspHead := 0, rspTail := 0, stamps := [], subscribed := false, decimCount := 0, resetting := true, waiting := [] }
  let s := if now then s.sendReady p else s
  s.postBoth 6 (leBytes ((portIdx p).val + 512) 2 ++ leBytes (s.port p).cause.toNat 1)

/-- The holder's slots: a slot handed over and not yet taken may not be written (R365). -/
def PortState.owns (q : PortState) (slot : Nat) : Bool :=
  decide ((q.cmdTail - q.cmdHead).toNat ≤ (BitVec.ofNat 4 slot - q.cmdHead).toNat)

/-- A page byte lies in a writable area of the port (Table ONA-1). -/
def PortState.writable (q : PortState) (o : Nat) : Bool :=
  if o < 0x400 then q.owns (o / 0x40) else decide (0xC00 ≤ o ∧ o < 0xC40)

/-- A 16-byte line of an accepted packet: a quarter of a command slot, or a doorbell word. -/
def State.writeLine (s : State) (p : CtlPort) (o : Nat) (line : List Byte) : State :=
  let v : Word := BitVec.ofNat 32 (leNat (line.take 4))
  if o < 0x400 then s.modPort p fun q => { q with
    cmdSlots := upd q.cmdSlots (Fin.ofNat 16 (o / 0x40)) fun b =>
      let i := 8 * (o % 0x40)
      BitVec.ofNat 512 (field b.toNat 0 i + leNat line * 2 ^ i + field b.toNat (i + 128) (384 - i) * 2 ^ (i + 128)) }
  else if o = 0xC00 then (s.tailWrite p (BitVec.ofNat 4 v.toNat)).getD s
  else if o = 0xC10 then s.modPort p fun q => { q with rspHead := BitVec.ofNat 5 v.toNat }
  else if o = 0xC20 then s.semOp p (Fin.ofNat 32 v.toNat) (field v.toNat 5 2) (field v.toNat 8 16)
  else if v.toNat % 2 = 1 then s.portReset p else s

/-- The lines of a payload with their page offsets. -/
def linesOf (o : Nat) (pl : List Byte) : List (Nat × List Byte) :=
  (List.range (pl.length / 16)).map fun i => (o + 16 * i, (pl.drop (16 * i)).take 16)

/-- The packet passes R364 at a port whose page offset it names. -/
def State.mgmtOk (s : State) (p : CtlPort) (k : Packet) : Bool :=
  let q := s.port p
  let o := k.offset.toNat % 0x1000
  let n := 16 * k.len.toNat
  let tail := (linesOf o k.payload).find? fun x => x.1 == 0xC00
  bitOf q.bind.toNat 8 && k.pkey == 0 && k.window == 0 && k.destUnit == 8 && decide (k.offset.toNat < 0x2000 ∧ k.offset.toNat % 16 = 0)
    && decide (1 ≤ k.len.toNat ∧ k.len.toNat ≤ 4) && k.srcDie.toNat == field q.bind.toNat 0 6 && k.srcUnit.toNat == 12 + field q.bind.toNat 6 2
    && decide (o + n ≤ 0x1000) && ((List.range (n / 16)).all fun i => q.writable (o + 16 * i))
    && (!q.resetting || (o == 0xC30 && n == 16))
    && (match tail with
      | some x => (s.tailWrite p (BitVec.ofNat 4 (leNat (x.2.take 1)))).isSome
      | none => true)

/-- An MGMT packet reaches the mailbox; Campanile uses a poisoned payload of an accepted one (R396). -/
def State.takeMgmt (s : State) (k : Packet) : State :=
  let p : CtlPort := if k.offset.toNat / 0x1000 % 2 = 0 then .A else .B
  if s.mgmtOk p k then if k.poisoned then s.campPoison else (linesOf (k.offset.toNat % 0x1000) k.payload).foldl (fun s x => s.writeLine p x.1 x.2) s
  else s.rejectMgmt p k.srcDie.toNat (0x0300000000 + k.offset.toNat)

/-- A packet at MGMT that another row takes: a notice, an answer for Campanile, or a piece of a fetched object. -/
def State.elsewhere (s : State) (k : Packet) : Bool := k.isNotice || k.op == 4 || k.op == 0x3F || (k.op == 0x11 && s.blf.fetch.isSome)

/-- A request addressed to Campanile meets no window: it is answered as one that fails the window check, a FENCE_MARK is returned (R262, R279;
DESIGN CHOICE, log entry 62). -/
def State.mgmtAnswer (s : State) (k : Packet) : State :=
  if k.op = 0x20 then s.enterAt .mgmt (s.answerTo k 0x20 0 [])
  else if k.spec ∧ k.op = 3 then s.enterAt .mgmt (s.answerTo k 0x3F 3 [])
  else (s.log { cls := .contained, code := 0x202, block := 0x10, inst := 5, pkey := some k.pkey, detail := k.winDetail, address := k.offset.toNat }).enterAt
    .mgmt (s.answerTo k 0x3F 1 [])

/-- MGMT: the head of the MGMT port's queue; a request waits for room for its answer, and what nothing on the die takes is discarded. -/
def State.mgmtRow (s : State) : State :=
  match s.spire.mgmtQ with
  | [] => s
  | k :: r =>
    if s.elsewhere k then s
    else if k.isReq then (if s.mgmtRoom .rsp then (s.modSpire fun x => { x with mgmtQ := r }).mgmtAnswer k else s)
    else
      let s := s.modSpire fun x => { x with mgmtQ := r }
      if k.op = 0x10 then s.takeMgmt k else s

/-- A doorbell write of a port's holder, outside R365's rejections: `f` acts when it is accepted. -/
def State.doorbell (s : State) (p : CtlPort) (o : Nat) (f : State → Option State) : State :=
  let q := s.port p
  if bitOf q.bind.toNat 8 = false then s
  else match (if q.resetting ∧ o ≠ 0xC30 then none else f s) with
    | some t => t
    | none => s.rejectMgmt p (field q.bind.toNat 0 6) (0x0300000000 + 0x1000 * (portIdx p).val + o)

/-! ### Taking a command (R370, R373) -/

/-- Two commands must not run beside one another (R370). -/
def conflicting (a b : BitVec 512) : Bool :=
  match cmdOf a, cmdOf b with
  | some x, some y => x.table == y.table && (x.changes || y.changes)
  | _, _ => false

/-- The handed-over slots of a port with their doorbell order. -/
def PortState.handed (q : PortState) : List (BitVec 512 × Nat) :=
  q.stamps.zipIdx.map fun x => (q.cmdSlots[Fin.ofNat 16 (q.cmdHead.toNat + x.2)], x.1)

/-- The other port runs, or has handed over earlier, a command that this one must follow. -/
def State.mustFollow (s : State) (p : CtlPort) (cmd : BitVec 512) (stamp : Nat) : Bool :=
  let o := s.port (otherPort p)
  (match o.executing with
    | some c => conflicting c cmd
    | none => false)
    || (!o.frozen && o.handed.any fun x => decide (x.2 < stamp) && !malformedSlot x.1 && conflicting x.1 cmd)

/-- COMMAND_TAKE: the slot at CMD_HEAD is copied and checked; what passes steps 1 to 3 executes under its own row. -/
def State.takeCommand (s : State) (p : CtlPort) : State :=
  let q := s.port p
  let cmd := q.cmdSlots[Fin.ofNat 16 q.cmdHead.toNat]
  let bad := q.frozen || malformedSlot cmd || (cmdInfo (slotCode cmd)).isNone
  if s.blf.stage ≠ 5 ∨ q.resetting ∨ q.cmdHead = q.cmdTail ∨ q.executing.isSome ∨ (q.waiting.any fun w => !w.event) then s
  else if !bad && s.mustFollow p cmd (q.stamps.headD 0) then s
  else
    let now := s.now
    let s := s.modPort p fun q => { q with
      cmdHead := q.cmdHead + 1, stamps := q.stamps.drop 1, executing := some cmd, phase := .running, progress := 0, cmdAt := now }
    if q.frozen then s.respond p .frozen []
    else if malformedSlot cmd then (s.respond p .frozen []).freezePort p 1 0
    else if (cmdInfo (slotCode cmd)).isNone then s.respond p .unsupported [] else s

/-! ### Writing a response (R367, R371) -/

/-- The EVENT packet that carries a response slot. -/
def State.slotPacket (s : State) (p : CtlPort) (slot : Nat) (bits : BitVec 512) : Packet :=
  let q := s.port p
  { Packet.blank with
    vc := 2, epoch := s.spire.cur, opcode := 0x11, len := 4, destDie := BitVec.ofNat 6 q.bind.toNat
    destUnit := BitVec.ofNat 4 (12 + field q.bind.toNat 6 2), srcDie := s.dieId, srcUnit := 8
    offset := BitVec.ofNat 32 (0x1000 * (portIdx p).val + 0x400 + 0x40 * slot), payload := leBytes bits.toNat 64 }

/-- Write one slot to the ring and send it. -/
def State.writeSlot (s : State) (p : CtlPort) (bits : BitVec 512) : State :=
  let t := (s.port p).rspTail
  let s := s.modPort p fun q => { q with rspSlots := upd q.rspSlots (Fin.ofNat 32 t.toNat) fun _ => bits, rspTail := t + 1 }
  s.enterAt .mgmt (s.slotPacket p t.toNat bits)

/-- RESPONSE_WRITE: EVT_LOST first, then what waits, in order, while the ring has space. A port without a binding is sent nothing. -/
def State.writeResponse (s : State) (p : CtlPort) : State :=
  let q := s.port p
  if s.spireOn = false ∨ 31 ≤ (q.rspTail - q.rspHead).toNat ∨ s.mgmtRoom .mgt = false then s
  else if bitOf q.bind.toNat 8 = false then s.modPort p fun q => { q with waiting := q.waiting.drop 1 }
  else if q.lostSince ≠ 0 then
    (s.modPort p fun q => { q with lostSince := 0 }).writeSlot p (eventSlot 7 (leBytes q.lostSince.toNat 4))
  else match q.waiting with
    | [] => s
    | w :: r =>
      let ready := q.resetting && q.executing.isNone && w.event && slotBytes w.bits 4 2 == 1
      (s.modPort p fun q => { q with waiting := r, resetting := q.resetting && !ready }).writeSlot p w.bits

/-! ### Running a command (R373 steps 4 to 7) -/

/-- What a command's own steps 5 to 7 come to: a failure that changes nothing, a response with its effect, or a state in which the command
still waits. -/
inductive Reply where
  | fail (st : Status)
  | done (s : State) (st : Status) (data : List Byte)
  | wait (s : State) (ph : Phase)

/-- Run the command `code` of a port, when that is what it executes. -/
def State.runCmd (s : State) (p : CtlPort) (code : Nat) (f : State → BitVec 512 → Reply) : State :=
  match (s.port p).executing with
  | none => s
  | some cmd =>
    if (s.port p).phase ≠ .running ∨ slotCode cmd ≠ code then s
    else match cmdOf cmd with
      | none => s
      | some i => match s.semCheck p i.mark with
        | some .denied => (s.respond p .denied []).freezePort p 2 0
        | some st => s.respond p st []
        | none =>
          if slotFlags cmd % 2 = 1 ∧ i.opt = false then s.respond p .badArg []
          else match f s (slotArgs cmd) with
            | .fail st => s.respond p st []
            | .done t st data => t.respond p st data
            | .wait t ph => t.modPort p fun q => { q with phase := ph }

/-! ### Bulk references (R374) -/

/-- The window, offset and length of a bulk reference. -/
def brLen (a : BitVec 512) : Nat := slotBytes a 60 4

/-- The die-local address a valid bulk reference of at least `need` bytes names. -/
def State.bulk (s : State) (a : BitVec 512) (need : Nat) : Option Nat :=
  let w := s.spire.windows[Fin.ofNat 256 (slotBytes a 52 1)]
  if w.valid ∧ slotBytes a 56 4 + brLen a ≤ (w.len64.toNat + 1) * 64 ∧ need ≤ brLen a then some (w.base.toNat + slotBytes a 56 4) else none

/-- Campanile may reach the memory at `a`: it is no reserved address, and no core in C4 or latched off (R22, R25). -/
def State.bulkUp (s : State) (a : Nat) : Bool := s.judge .campanile a true == .ok

/-- The first line of a bulk transfer that cannot be reached. -/
def State.bulkBad (s : State) (a n : Nat) : Option Nat :=
  ((pieces a n).find? fun x => !s.bulkUp x.1 || !s.bulkUp (x.1 + x.2 - 1)).map fun x => if s.bulkUp x.1 then x.1 + x.2 - 1 else x.1

/-- The record of a bulk transfer that meets memory out of reach: one for the whole transfer (R22, R25; DESIGN CHOICE, log entry 129). -/
def State.bulkNote (s : State) (a n : Nat) : State :=
  match s.bulkBad a n with
  | some x => s.refuseMaster .campanile x (s.judge .campanile x true)
  | none => s

/-- Campanile writes bytes through a bulk reference, a line at a time; what is refused is discarded (R22, R25), and what R27 or R53 forbids
leaves its area undefined. -/
def State.bulkWrite (s : State) (a : Nat) (bs : List Byte) : State :=
  ((pieces a bs.length).foldl (fun s x =>
      if s.bulkUp x.1 && s.bulkUp (x.1 + x.2 - 1) then s.dieWrite x.1 (((bs.drop (x.1 - a)).take x.2).map fun b => (b, false)) else s) s).bulkNote a bs.length

/-- Campanile reads `n` bytes; none when a word is poisoned or cannot be read. -/
def State.bulkRead (s : State) (a n : Nat) : State × Option (List Byte) :=
  if (s.bulkBad a n).isSome then (s.bulkNote a n, none)
  else
    let r := s.readP a n
    (r.1, if r.2.any (·.2) then none else some (bytesOf r.2))

/-! ### Campanile's writes to a port page (R368) -/

/-- A word of a slot, written. -/
def putSlotWord (b : BitVec 512) (o : Nat) (v : Word) : BitVec 512 :=
  let i := 8 * (o % 0x40)
  BitVec.ofNat 512 (field b.toNat 0 i + v.toNat * 2 ^ i + field b.toNat (i + 32) (480 - i) * 2 ^ (i + 32))

/-- Campanile writes a word of a port page: a slot's word, a doorbell with its action, or a status word. A TAIL that R369 rejects is
ignored. -/
def State.pageSet (s : State) (p : CtlPort) (o : Nat) (v : Word) : Option State :=
  if o < 0x400 then some (s.modPort p fun q => { q with cmdSlots := upd q.cmdSlots (Fin.ofNat 16 (o / 0x40)) fun b => putSlotWord b o v })
  else if o < 0xC00 then some (s.modPort p fun q => { q with rspSlots := upd q.rspSlots (Fin.ofNat 32 ((o - 0x400) / 0x40)) fun b => putSlotWord b o v })
  else match o with
    | 0xC00 => some ((s.tailWrite p (BitVec.ofNat 4 v.toNat)).getD s)
    | 0xC10 => some (s.modPort p fun q => { q with rspHead := BitVec.ofNat 5 v.toNat })
    | 0xC20 => some (s.semOp p (Fin.ofNat 32 v.toNat) (field v.toNat 5 2) (field v.toNat 8 16))
    | 0xC30 => some (if bitOf v.toNat 0 then s.portReset p else s)
    | _ => s.pageWrite p o v

/-- The port page and the offset in it of an address. -/
def pageAt (a : Nat) : Option (CtlPort × Nat) :=
  if 0x0300000000 ≤ a ∧ a < 0x0300001000 then some (.A, a - 0x0300000000)
  else if 0x0300001000 ≤ a ∧ a < 0x0300002000 then some (.B, a - 0x0300001000) else none

/-- A register write by a master; Campanile's to a port page act as `State.pageSet` says. -/
def State.registerWrite (s : State) (m : Master) (a width : Nat) (v : Word) : State :=
  match m, pageAt a with
  | .campanile, some (p, o) =>
    if s.misfit a width then s
    else if width ≠ 4 ∨ a % 4 ≠ 0 then s.refuseMaster m a .reserved
    else (s.pageSet p o v).getD (s.refuseMaster m a .reserved)
  | _, _ => s.masterWrite m a width v

/-! ### The meanings -/

/-- REGISTER_WRITE (R12, R368). -/
def execRegisterWrite (m : Master) (addr : BitVec 40) (width : Nat) (v : Word) (s : State) : Out := ev s fun s =>
  s.registerWrite m addr.toNat width v
/-- MGMT (R364). -/
def execMgmt (s : State) : Out := ev s State.mgmtRow
/-- BLF_PORT_CMD_TAIL_WRITE (R369). -/
def execBlfPortCmdTailWrite (p : CtlPort) (v : Word) (s : State) : Out := ev s fun s =>
  s.doorbell p 0xC00 fun s => s.tailWrite p (BitVec.ofNat 4 v.toNat)
/-- BLF_PORT_RSP_HEAD_WRITE (R371). -/
def execBlfPortRspHeadWrite (p : CtlPort) (v : Word) (s : State) : Out := ev s fun s =>
  s.doorbell p 0xC10 fun s => some (s.modPort p fun q => { q with rspHead := BitVec.ofNat 5 v.toNat })
/-- SEM_TAKE (R376). -/
def execSemTake (p : CtlPort) (n : Fin 32) (lease : BitVec 16) (s : State) : Out := ev s fun s =>
  s.doorbell p 0xC20 fun s => some (s.semOp p n 0 lease.toNat)
/-- SEM_RENEW (R376). -/
def execSemRenew (p : CtlPort) (n : Fin 32) (lease : BitVec 16) (s : State) : Out := ev s fun s =>
  s.doorbell p 0xC20 fun s => some (s.semOp p n 1 lease.toNat)
/-- SEM_RELEASE (R376). -/
def execSemRelease (p : CtlPort) (n : Fin 32) (s : State) : Out := ev s fun s => s.doorbell p 0xC20 fun s => some (s.semOp p n 2 0)
/-- SEM_BREAK (R376). -/
def execSemBreak (p : CtlPort) (n : Fin 32) (lease : BitVec 16) (s : State) : Out := ev s fun s =>
  s.doorbell p 0xC20 fun s => some (s.semOp p n 3 lease.toNat)
/-- SEM_LEASE_LAPSE (R376). -/
def execSemLeaseLapse (n : Fin 32) (s : State) : Out := ev s fun s => s.leaseLapses n
/-- PORT_RESET (R382). -/
def execPortReset (p : CtlPort) (s : State) : Out := ev s fun s => s.doorbell p 0xC30 fun s => some (s.portReset p)
/-- COMMAND_TAKE (R370). -/
def execCommandTake (p : CtlPort) (s : State) : Out := ev s fun s => s.takeCommand p
/-- RESPONSE_WRITE (R371). -/
def execResponseWrite (p : CtlPort) (s : State) : Out := ev s fun s => s.writeResponse p

end Sys2Proof.Machine
end

