-- ==== Sys2Proof/Machine/Partitions.lean ====
section
/-! DEFINITION. The commands of Table ONA-8: identity, partitions with the tenant clear (R232 to R234), port keys and windows (R224 to
R231). -/

namespace Sys2Proof.Machine

/-! ### Ownership -/

/-- The keys that own a core or a slice of the die. -/
def State.ownerKeys (s : State) : List (BitVec 16) := (s.cores.toList.filterMap (·.owner)) ++ s.blf.sliceOwner.toList.filterMap id

/-- Open jobs are SHARED once resources of the die belong to more than one partition (R350). -/
def State.markShared (s : State) : State :=
  match s.ownerKeys with
  | [] => s
  | k :: r => if r.all (· == k) then s
    else s.modBrz fun b => { b with jobs := vmap (fun j => j.map fun x : Job => { x with shared := true }) b.jobs }

/-- The cores and slices a partition owns. -/
def State.coresOf (s : State) (key : BitVec 16) : BitVec 16 :=
  BitVec.ofNat 16 ((List.finRange 16).map fun c : CoreId => if (s.core c).owner = some key then 2 ^ c.val else 0).sum

/-- The slices a partition owns. -/
def State.slicesOf (s : State) (key : BitVec 16) : Byte :=
  BitVec.ofNat 8 ((List.finRange 8).map fun i : Fin 8 => if s.blf.sliceOwner[i] = some key then 2 ^ i.val else 0).sum

/-- A partition with this key exists. -/
def State.knownKey (s : State) (key : BitVec 16) : Bool := s.blf.partitions.any fun p => p.pkey == key

/-! ### Windows (R225, R227) -/

/-- The bytes of a window. -/
def Window.bytes (w : Window) : Nat := (w.len64.toNat + 1) * 64

/-- Two windows share a byte. -/
def Window.overlaps (a b : Window) : Bool := decide (a.base.toNat < b.base.toNat + b.bytes ∧ b.base.toNat < a.base.toNat + a.bytes)

/-- The cores and slices a range touches, when it lies whole in one of the places of R225. -/
def rangeOf (a n : Nat) : Option (List Resource) :=
  if a + n ≤ 0x04000000 then
    some (((List.finRange 8).filter fun i : Fin 8 => decide (a < (i.val + 1) * 0x800000 ∧ i.val * 0x800000 < a + n)).map Resource.slice)
  else if 0x0100000000 ≤ a ∧ a + n ≤ 0x0110000000 then
    let c : CoreId := Fin.ofNat 16 ((a - 0x0100000000) / 0x01000000)
    let o := a % 0x01000000
    if o + n ≤ 0x600000 ∨ (0xC00000 ≤ o ∧ o + n ≤ 0xD00000) then some [.core c] else none
  else none

/-- The owner of a resource. -/
def State.resOwner (s : State) : Resource → Option (BitVec 16)
  | .core c => (s.core c).owner
  | .slice i => s.blf.sliceOwner[i]

/-- R225 holds for an entry. -/
def State.windowOk (s : State) (w : Window) : Bool :=
  w.base.toNat % 64 == 0 && (match rangeOf w.base.toNat w.bytes with
    | some l => (l.all fun r => s.resOwner r == some w.pkey) && (s.core (Fin.ofNat 16 w.owner.toNat)).owner == some w.pkey
    | none => false)

/-- Open a window entry, its counters 0; an overlap with an open window sets MULTI (R224, R227). -/
def State.openEntry (s : State) (i : Fin 256) (w : Window) : State :=
  let hit := (List.finRange 256).find? fun j => (s.spire.windows[j]).valid && j != i && (s.spire.windows[j]).overlaps w
  s.modSpire fun p =>
    let p := { p with windows := upd p.windows i fun _ => w }
    match hit with
    | some j => { p with multi := true, lastNamed := 0, lastGov := BitVec.ofNat 8 j.val }
    | none => p

/-- A clear closes every window under its partition's key (R233 step 2). -/
def Clear.takes (x : Clear) (w : Window) : Bool := w.pkey == x.pkey

/-! ### The tenant clear (R233) -/

/-- Steps 1 and 2: every master of the partition is frozen, those of cores that stay with it too (DEDUCED, log entry 102), and its windows
close. -/
def State.beginClear (s : State) (x : Clear) : State :=
  let s := (bitsSet (s.coresOf x.pkey).toNat 16).foldl (fun s c => s.freezeMask (Fin.ofNat 16 c) 0x7F .command) s
  let s := s.modSpire fun p => { p with windows := vmap (fun w => if x.takes w then { w with valid := false } else w) p.windows }
  s.modBlf fun b => { b with clears := b.clears ++ [x] }

/-- Nothing these cores sent is still on its way (step 3). -/
def State.quietCores (s : State) (cores : BitVec 16) : Bool :=
  (bitsSet cores.toNat 16).all fun c =>
    (s.core (Fin.ofNat 16 c)).outst.isEmpty && (s.spire.heldSigs.all fun h => h.core.toNat != c && !(h.srcDie == s.dieId && h.srcCore.toNat == c))
      && s.spire.nocQ.all fun p => p.srcCore.toNat != c

/-- Zeroing of a core begins (R233 step 5, R234): it runs at 1.00 GHz, step 24, whatever its frequency was; a core in C2 or C3 is woken for it. -/
def State.beginZero (s : State) (c : CoreId) : State :=
  let s := s.modCore c fun k => { k with
    owner := none, clearing := true, waking := false, rampAt := none, freq := if k.cstate = .c4 then k.freq else 24 }
  if (s.core c).cstate = .c2 ∨ (s.core c).cstate = .c3 then s.askWake c else s

/-- Steps 4 and 5 begin: the resources lose their owner, the windows are zeroed; work that is discarded is logged, and SEQ_FAULT_DESC records
where it stood (R401). -/
def State.unown (s : State) (x : Clear) : State :=
  let cs := bitsSet x.cores.toNat 16
  let s := cs.foldl (fun s c => let c := Fin.ofNat 16 c; if (s.core c).firstOpen.isSome then (s.logFrozen c 0x7F).noteStop c 0x7F else s) s
  let s := (cs.foldl (fun s c => s.beginZero (Fin.ofNat 16 c)) s).decideVolt
  let s := s.modSpire fun p => { p with windows := vmap (fun w => if x.takes w && !w.valid then Window.reset else w) p.windows }
  s.modBlf fun b => { b with
    sliceOwner := Vector.ofFn fun i : Fin 8 => if bitOf x.slices.toNat i.val then none else b.sliceOwner[i]
    slicesClearing := b.slicesClearing ||| x.slices
    clears := b.clears.map fun y => if y.pkey = x.pkey then { y with zeroing := true } else y }

/-- A core's zeroing ends: its gate ramp is over, its units, registers and arrays are zero, and it is in C4 (R233 step 5, R234). -/
def State.zeroCore (s : State) (c : CoreId) : State :=
  let s := s.rampPasses c 200
  (((s.zeroArrays c).modCore c (Core.clearedUnits s.now s.waitDefault 0)).modCore c fun k => { k with
    clearing := false, cstate := .c4, waking := false, rampAt := none, pll := false, bellPend := false, droop := false }).decideVolt

/-- A slice's zeroing ends. -/
def State.zeroSlice (s : State) (i : Fin 8) : State :=
  (s.setMem (s.mem.clear (i.val * 0x800000) 0x800000)).modBlf fun b => { b with slicesClearing := putBit b.slicesClearing i.val false }

/-- A key leaves every allowed-key set. -/
def Spire.dropKeyOf (p : Spire) (key : BitVec 16) : Spire :=
  { p with keys := vmap (fun k => vmap (fun w => if bitOf w.toNat 16 && BitVec.ofNat 16 w.toNat == key then 0 else w) k) p.keys }

/-- A core joins a partition: it comes to C0 with SEQ_CTRL.ENABLE = 0 (R331). A core that belongs to it already stays as it is. -/
def State.joins (s : State) (key : BitVec 16) (c : CoreId) : State :=
  if (s.core c).owner = some key then s
  else
    let s := s.modCore c fun k => { k with owner := some key, seq := { k.seq with enable := false } }
    if (s.core c).cstate = .c0 ∨ (s.core c).waking then s else s.askWake c

/-- Cores and slices join a partition. -/
def State.bindTo (s : State) (key : BitVec 16) (cores : BitVec 16) (slices : Byte) : State :=
  let s := (bitsSet cores.toNat 16).foldl (fun s c => s.joins key (Fin.ofNat 16 c)) s
  (s.modBlf fun b => { b with
    sliceOwner := Vector.ofFn fun i : Fin 8 => if bitOf slices.toNat i.val then some key else b.sliceOwner[i] }).markShared

/-- The cores of a mask that are waking. -/
def State.wakingOf (s : State) (cores : BitVec 16) : BitVec 16 :=
  BitVec.ofNat 16 ((bitsSet cores.toNat 16).map fun c => if (s.core (Fin.ofNat 16 c)).waking then 2 ^ c else 0).sum

/-- The command that waited for the clears goes on: ASSIGN_CORES binds its resources and waits for the joining cores (R232, R331). -/
def State.clearsOver (s : State) (p : CtlPort) : State :=
  match (s.port p).executing with
  | none => s
  | some cmd =>
    let a := slotArgs cmd
    let key : BitVec 16 := BitVec.ofNat 16 (slotBytes a 8 2)
    if slotCode cmd = 0x0202 ∧ key ≠ 0 then
      let cores : BitVec 16 := BitVec.ofNat 16 (slotBytes a 10 2)
      let s := s.bindTo key cores (BitVec.ofNat 8 (slotBytes a 12 1))
      let w := s.wakingOf cores
      if w = 0 then s.respond p .ok [] else s.modPort p fun q => { q with phase := .awaitWake w }
    else s.respond p .ok []

/-- A named resource is still being cleared (R232). -/
def State.clearingAny (s : State) (cores : BitVec 16) (slices : Byte) : Bool :=
  ((bitsSet cores.toNat 16).any fun c => (s.core (Fin.ofNat 16 c)).clearing) || slices &&& s.blf.slicesClearing != 0
    || s.blf.clears.any fun x => x.cores &&& cores != 0 || x.slices &&& slices != 0

/-- The command of a port waits for clears no more: none of its own is left, nor one of a resource it names. -/
def State.clearsDone (s : State) (p : CtlPort) : Bool :=
  let a := ((s.port p).executing.map slotArgs).getD 0
  let names := ((s.port p).executing.map slotCode) == some 0x0202
  (s.port p).phase == .awaitClear && !(s.blf.clears.any fun y => y.port == some p)
    && !(names && s.clearingAny (BitVec.ofNat 16 (slotBytes a 10 2)) (BitVec.ofNat 8 (slotBytes a 12 1)))

/-- A clear has no resource left: its partition and keys go when it was destroyed, and a command that waited goes on after its last clear. -/
def State.clearEnds (s : State) (x : Clear) : State :=
  let s := s.modBlf fun b => { b with clears := b.clears.filter fun y => y.pkey != x.pkey }
  let s := if x.destroy then (s.modBlf fun b => { b with partitions := b.partitions.filter fun p => p.pkey != x.pkey }).modSpire fun p => p.dropKeyOf x.pkey
    else s
  [CtlPort.A, CtlPort.B].foldl (fun s p => if s.clearsDone p then s.clearsOver p else s) s

/-- A clear that owns nothing any more ends. -/
def State.settleClear (s : State) (key : BitVec 16) : State :=
  match s.blf.clears.find? fun x => x.pkey == key && x.zeroing && x.cores == 0 && x.slices == 0 with
  | some x => s.clearEnds x
  | none => s

/-- TENANT_CLEAR: step 4 begins once the network interfaces of the partition's cores are drained. -/
def State.tenantClear (s : State) (key : BitVec 16) : State :=
  match s.blf.clears.find? fun x => x.pkey == key && !x.zeroing with
  | none => s
  | some x => if s.quietCores (s.coresOf x.pkey) then (s.unown x).settleClear key else s

/-- A resource leaves a clear. -/
def Clear.without (x : Clear) : Resource → Clear
  | .core c => { x with cores := putBit x.cores c.val false }
  | .slice i => { x with slices := putBit x.slices i.val false }

/-- A resource is being zeroed by a clear. -/
def Clear.zeroes (x : Clear) : Resource → Bool
  | .core c => x.zeroing && bitOf x.cores.toNat c.val
  | .slice i => x.zeroing && bitOf x.slices.toNat i.val

/-- ZEROING_DONE: the resource is zero and free to be bound. -/
def State.zeroingDone (s : State) (r : Resource) : State :=
  match s.blf.clears.find? fun x => x.zeroes r with
  | none => s
  | some x =>
    let s := match r with
      | .core c => s.zeroCore c
      | .slice i => s.zeroSlice i
    (s.modBlf fun b => { b with clears := b.clears.map fun y => if y.pkey = x.pkey then y.without r else y }).settleClear x.pkey

/-! ### The commands -/

/-- The value a register of the map reads, without its read effect. -/
def State.peek (s : State) (a : Nat) : Nat := ((s.regRead a).map (·.1)).getD 0

/-- GET_IDENTITY. -/
def State.getIdentity (s : State) (_a : BitVec 512) : Reply :=
  let f := fun i : Fin 256 => (s.blf.shadow[i]).toNat
  .done s .ok (leBytes s.dieId.toNat 1 ++ leBytes (s.siteX + 8 * s.siteY) 1 ++ leBytes s.role 1 ++ leBytes 0xB0 1 ++ leBytes (f 1) 4 ++ leBytes (f 4) 4
    ++ leBytes (f 5) 4 ++ leBytes s.blf.fwVer.toNat 4 ++ leBytes s.blf.secVer.toNat 4 ++ leBytes (popcount (f 3) 32) 1)

/-- A partition record of GET_STATE. -/
def State.partRecord (s : State) (p : Partition) : List Byte :=
  leBytes p.pkey.toNat 2 ++ leBytes (b2n p.amode + 2 * (portIdx p.port).val + 0x80) 1 ++ leBytes (s.slicesOf p.pkey).toNat 1
    ++ leBytes (s.coresOf p.pkey).toNat 2 ++ leBytes 0 2

/-- A number whose bit `i` says `f i`. -/
def maskOf (n : Nat) (f : Nat → Bool) : Nat := ((List.range n).map fun i => if f i then 2 ^ i else 0).sum

/-- The partitions in key order. -/
def insertKey (p : Partition) : List Partition → List Partition
  | [] => [p]
  | q :: r => if p.pkey.toNat ≤ q.pkey.toNat then p :: q :: r else q :: insertKey p r

/-- GET_STATE. -/
def State.getState (s : State) (a : BitVec 512) : Reply :=
  let core := fun i => s.core (Fin.ofNat 16 i)
  let data := leBytes s.dieState 2 ++ leBytes (maskOf 16 fun i => (core i).here) 2 ++ leBytes (maskOf 16 fun i => (core i).owner.isSome) 2
    ++ leBytes (maskOf 8 fun i => (s.blf.sliceOwner[Fin.ofNat 8 i]).isSome) 1 ++ leBytes s.blf.partitions.length 1
    ++ leBytes (s.peek 0x0300040000) 4 ++ leBytes (s.peek 0x0200000004) 4 ++ leBytes (s.port .A).status 4 ++ leBytes (s.port .B).status 4
    ++ leBytes (s.semHeld .A) 4 ++ leBytes (s.semHeld .B) 4
    ++ leBytes ((List.finRange 4).map fun e : EdgeId => (s.edges[e]).state.toNat * 16 ^ e.val).sum 2
  if brLen a = 0 then .done s .ok data
  else match s.bulk a 128 with
    | none => .fail .badArg
    | some at_ =>
      let recs := (s.blf.partitions.foldl (fun l p => insertKey p l) []).flatMap s.partRecord
      .done (s.bulkWrite at_ (recs ++ List.replicate (128 - recs.length) 0)) .ok data

/-- GET_FUSES. -/
def State.getFuses (s : State) (a : BitVec 512) : Reply :=
  match s.bulk a 1024 with
  | none => .fail .badArg
  | some at_ => .done (s.bulkWrite at_ (s.blf.shadow.toList.flatMap fun w => leBytes w.toNat 4)) .ok []

/-- SUBSCRIBE_TELEMETRY (R351). -/
def State.subscribe (s : State) (p : CtlPort) (a : BitVec 512) : Reply :=
  let en := slotBytes a 8 1 % 2 = 1
  let n := slotBytes a 9 1
  if n = 0 ∨ 100 < n then .fail .badArg
  else .done (s.modPort p fun q => { q with subscribed := en, decimate := BitVec.ofNat 7 n, decimCount := 0 }) .ok []

/-- CREATE_PARTITION. -/
def State.createPartition (s : State) (a : BitVec 512) : Reply :=
  let key : BitVec 16 := BitVec.ofNat 16 (slotBytes a 8 2)
  if key = 0 ∨ 1 < slotBytes a 11 1 then .fail .badArg
  else if s.knownKey key ∨ 16 ≤ s.blf.partitions.length then .fail .conflict
  else .done (s.modBlf fun b => { b with partitions := b.partitions ++ [{
      pkey := key, amode := slotBytes a 10 1 % 2 = 1, port := if slotBytes a 11 1 = 0 then .A else .B }] }) .ok []

/-- DESTROY_PARTITION. -/
def State.destroyPartition (s : State) (p : CtlPort) (a : BitVec 512) : Reply :=
  let key : BitVec 16 := BitVec.ofNat 16 (slotBytes a 8 2)
  if s.knownKey key = false then .fail .badArg
  else .wait (s.beginClear { pkey := key, cores := s.coresOf key, slices := s.slicesOf key, zeroing := false, port := some p, destroy := true }) .awaitClear

/-- The clears of the resources a move takes from other partitions. -/
def State.leaving (s : State) (p : CtlPort) (key cores : BitVec 16) (slices : Byte) : List Clear :=
  (s.blf.partitions.filter fun x => x.pkey != key).filterMap fun x =>
    let c := s.coresOf x.pkey &&& cores
    let l := s.slicesOf x.pkey &&& slices
    if c = 0 ∧ l = 0 then none else some { pkey := x.pkey, cores := c, slices := l, zeroing := false, port := some p, destroy := false }

/-- ASSIGN_CORES (R232, R331, R387, R443): it binds once no named resource is being cleared. -/
def State.assignCores (s : State) (p : CtlPort) (a : BitVec 512) : Reply :=
  let key : BitVec 16 := BitVec.ofNat 16 (slotBytes a 8 2)
  let cores : BitVec 16 := BitVec.ofNat 16 (slotBytes a 10 2)
  let slices : Byte := BitVec.ofNat 8 (slotBytes a 12 1)
  if (key ≠ 0 ∧ s.knownKey key = false) ∨ (bitsSet cores.toNat 16).any fun c => !(s.core (Fin.ofNat 16 c)).here then .fail .badArg
  else if s.spireOn = false ∨ s.d2Pending then .fail .notReady
  else if (slices &&& s.blf.sliceBist) ≠ 0 ∨ (bitsSet cores.toNat 16).any fun c => (s.core (Fin.ofNat 16 c)).bist then .fail .conflict
  else
    let l := s.leaving p key cores slices
    if l.isEmpty && !s.clearingAny cores slices then
      if key = 0 then .done s .ok []
      else
        let t := s.bindTo key cores slices
        let w := t.wakingOf cores
        if w = 0 then .done t .ok [] else .wait t (.awaitWake w)
    else .wait (l.foldl State.beginClear s) .awaitClear

/-- SET_PORT_KEYS (R275). -/
def State.setPortKeys (s : State) (a : BitVec 512) : Reply :=
  let n := slotBytes a 8 1
  if 5 < n then .fail .badArg
  else
    let set : Vector Word 8 := Vector.ofFn fun i => BitVec.ofNat 32 (slotBytes a (12 + 4 * i.val) 4) &&& 0x1FFFF
    .done (s.modSpire fun p => { p with keys := upd p.keys (Fin.ofNat 6 n) fun _ => set }) .ok []

/-- The window an OPEN_WINDOW command describes. -/
def windowArg (a : BitVec 512) : Window :=
  { Window.reset with
    base := BitVec.ofNat 40 (slotBytes a 16 5), len64 := BitVec.ofNat 26 (slotBytes a 24 4), pkey := BitVec.ofNat 16 (slotBytes a 12 2)
    owner := BitVec.ofNat 4 (slotBytes a 10 1), valid := true, rd := bitOf (slotBytes a 9 1) 0, wr := bitOf (slotBytes a 9 1) 1
    sig := bitOf (slotBytes a 9 1) 2, specOk := bitOf (slotBytes a 9 1) 3 }

/-- OPEN_WINDOW (R225). -/
def State.openWindow (s : State) (a : BitVec 512) : Reply :=
  let i : Fin 256 := Fin.ofNat 256 (slotBytes a 8 1)
  if 15 < slotBytes a 10 1 ∨ 2 ^ 26 ≤ slotBytes a 24 4 ∨ s.windowOk (windowArg a) = false then .fail .badArg
  else if (s.spire.windows[i]).valid then .fail .conflict
  else .done (s.openEntry i (windowArg a)) .ok []

/-- CLOSE_WINDOW (R230). -/
def State.closeWindow (s : State) (a : BitVec 512) : Reply :=
  let i : Fin 256 := Fin.ofNat 256 (slotBytes a 8 1)
  if (s.spire.windows[i]).valid then
    .done (s.modSpire fun p => { p with windows := upd p.windows i fun w => { w with valid := false } }) .ok []
  else .fail .badArg

/-- LIST_WINDOWS. -/
def State.listWindows (s : State) (a : BitVec 512) : Reply :=
  let ws := s.spire.windows.toList
  let data := leBytes (ws.foldr (fun w n => b2n w.valid + 2 * n) 0) 32 ++ leBytes s.spire.openCount 1
  if brLen a = 0 then .done s .ok data
  else match s.bulk a 8192 with
    | none => .fail .badArg
    | some at_ => .done (s.bulkWrite at_ (ws.flatMap fun w => leBytes w.image 32)) .ok data

/-! ### The meanings -/

/-- GET_IDENTITY (R386). -/
def execGetIdentity (p : CtlPort) (s : State) : Out := ev s fun s => s.runCmd p 0x0100 State.getIdentity
/-- GET_STATE (R386). -/
def execGetState (p : CtlPort) (s : State) : Out := ev s fun s => s.runCmd p 0x0101 State.getState
/-- GET_FUSES (R386). -/
def execGetFuses (p : CtlPort) (s : State) : Out := ev s fun s => s.runCmd p 0x0102 State.getFuses
/-- SUBSCRIBE_TELEMETRY (R351). -/
def execSubscribeTelemetry (p : CtlPort) (s : State) : Out := ev s fun s => s.runCmd p 0x0103 fun s a => s.subscribe p a
/-- CREATE_PARTITION (R386). -/
def execCreatePartition (p : CtlPort) (s : State) : Out := ev s fun s => s.runCmd p 0x0200 State.createPartition
/-- DESTROY_PARTITION (R232). -/
def execDestroyPartition (p : CtlPort) (s : State) : Out := ev s fun s => s.runCmd p 0x0201 fun s a => s.destroyPartition p a
/-- ASSIGN_CORES (R232). -/
def execAssignCores (p : CtlPort) (s : State) : Out := ev s fun s => s.runCmd p 0x0202 fun s a => s.assignCores p a
/-- SET_PORT_KEYS (R275). -/
def execSetPortKeys (p : CtlPort) (s : State) : Out := ev s fun s => s.runCmd p 0x0203 State.setPortKeys
/-- OPEN_WINDOW (R225). -/
def execOpenWindow (p : CtlPort) (s : State) : Out := ev s fun s => s.runCmd p 0x0300 State.openWindow
/-- CLOSE_WINDOW (R230). -/
def execCloseWindow (p : CtlPort) (s : State) : Out := ev s fun s => s.runCmd p 0x0301 State.closeWindow
/-- LIST_WINDOWS (R386). -/
def execListWindows (p : CtlPort) (s : State) : Out := ev s fun s => s.runCmd p 0x0302 State.listWindows
/-- TENANT_CLEAR (R233). -/
def execTenantClear (pkey : BitVec 16) (s : State) : Out := ev s fun s => s.tenantClear pkey
/-- ZEROING_DONE (R233). -/
def execZeroingDone (res : Resource) (s : State) : Out := ev s fun s => s.zeroingDone res

end Sys2Proof.Machine
end

