-- ==== Sys2Proof/Machine/LinkCommands.lean ====
section
/-! DEFINITION. The commands of Table ONA-9: table versions and epochs (R281, R285, R286, R290), and links (R313, R314). -/

namespace Sys2Proof.Machine

/-- A command that names a die or an edge: Onaune compares the two paths first (R404). -/
def State.compared (s : State) (f : State → Reply) : Reply :=
  let t := s.compareEdges
  match f t with
  | .fail st => .done t st []
  | r => r

/-- The tables of a version may be loaded: not CUR, and no LOCK (R285). -/
def State.mayLoad (s : State) (v : Nat) : Bool := !s.spire.lock && v != (ver s.spire.cur).val

/-- A route entry that LOAD_ROUTE_TABLE takes: port code 6 is reserved. -/
def routeEntryOk (w : Nat) : Bool := decide (w < 512) && field w 0 3 != 6 && field w 4 3 != 6

/-- LOAD_ROUTE_TABLE (R285). -/
def State.loadRoute (s : State) (a : BitVec 512) : Reply :=
  let v := slotBytes a 8 1
  match s.bulk a 256 with
  | none => .fail .badArg
  | some at_ =>
    if 1 < v then .fail .badArg
    else
      let r := s.bulkRead at_ 256
      match r.2 with
      | none => .done r.1 .badArg []
      | some bs =>
        if ((List.range 64).all fun d => routeEntryOk (wordAt bs (4 * d))) = false then .done r.1 .badArg []
        else if s.mayLoad v = false then .done r.1 .conflict []
        else
          let tab : Vector Word 64 := Vector.ofFn fun d => BitVec.ofNat 32 (wordAt bs (4 * d.val))
          .done (r.1.modSpire fun p => { p with route := upd p.route (Fin.ofNat 2 v) fun _ => tab, loaded := p.loaded ||| 1 }) .ok []

/-- LOAD_RANK_TABLE (R285); reserved bits are ignored (R14). -/
def State.loadRank (s : State) (a : BitVec 512) : Reply :=
  let v := slotBytes a 8 1
  match s.bulk a 8192 with
  | none => .fail .badArg
  | some at_ =>
    if 1 < v then .fail .badArg
    else
      let r := s.bulkRead at_ 8192
      match r.2 with
      | none => .done r.1 .badArg []
      | some bs =>
        if s.mayLoad v = false then .done r.1 .conflict []
        else
          let arr := bs.toArray
          let byte := fun i : Nat => ((arr[i]?).getD 0).toNat
          let tab : Vector (BitVec 16) 4096 := Vector.ofFn fun i => BitVec.ofNat 16 (byte (2 * i.val) + 256 * byte (2 * i.val + 1)) &&& 0x83FF
          .done (r.1.modSpire fun p => { p with rank := upd p.rank (Fin.ofNat 2 v) fun _ => tab, loaded := p.loaded ||| 2 }) .ok []

/-- EPOCH_FLIP (R286). -/
def State.epochFlip (s : State) (_a : BitVec 512) : Reply :=
  if s.spire.lock ∨ s.spire.loaded ≠ 3 then .fail .conflict
  else
    let t := s.flip 0
    .done t .ok (leBytes (b2n t.spire.cur) 2 ++ leBytes t.spire.gen.toNat 2)

/-- The result of EPOCH_STATUS. -/
def Spire.epochData (p : Spire) : List Byte :=
  leBytes (b2n p.cur + 2 * b2n p.lock + 4 * p.loaded.toNat) 2 ++ leBytes p.gen.toNat 2 ++ leBytes (p.exits[0]).toNat 4 ++ leBytes (p.exits[1]).toNat 4
    ++ leBytes (p.enter[0]).toNat 4 ++ leBytes (p.enter[1]).toNat 4 ++ leBytes (p.held[0]).toNat 2 ++ leBytes (p.held[1]).toNat 2

/-- EPOCH_STATUS; with RELEASE the lock is released once nothing of the old version is held (R290). -/
def State.epochStatus (s : State) (a : BitVec 512) : Reply :=
  if slotFlags a % 2 = 0 then .done s .ok s.spire.epochData
  else if s.spire.held[ver !s.spire.cur] ≠ 0 then .fail .notReady
  else
    let t := s.modSpire fun p => { p with lock := false }
    .done t .ok t.spire.epochData

/-- MCAST_GROUP (R281, R285). -/
def State.mcastGroup (s : State) (a : BitVec 512) : Reply :=
  let v := slotBytes a 8 1
  let g := slotBytes a 9 1
  if 1 < v ∨ 15 < g then .fail .badArg
  else if s.mayLoad v = false then .fail .conflict
  else .done (s.modSpire fun p => { p with
    mcast := upd p.mcast (Fin.ofNat 2 v) fun t => upd t (Fin.ofNat 16 g) fun _ => BitVec.ofNat 32 (slotBytes a 12 4) }) .ok []

/-- The edge a command names in byte 8. -/
def edgeArg (a : BitVec 512) : Option EdgeId := if h : slotBytes a 8 1 < 4 then some ⟨slotBytes a 8 1, h⟩ else none

/-- A command that names an edge. -/
def State.onEdge (s : State) (a : BitVec 512) (f : State → EdgeId → Reply) : Reply :=
  match edgeArg a with
  | none => .fail .badArg
  | some e => s.compared fun s => f s e

/-- LINK_STATUS: REPLAYS and BAD_FLITS clear. -/
def State.linkStatus (s : State) (e : EdgeId) : Reply :=
  let x := s.edges[e]
  .done (s.modEdge e fun x => { x with replays := 0, badFlits := 0 }) .ok
    (leBytes (s.parStatus e) 4 ++ leBytes x.on.toNat 4 ++ leBytes x.offRetry.toNat 4 ++ leBytes x.offCmd.toNat 4 ++ leBytes x.peer.toNat 4
      ++ leBytes x.replays.toNat 4 ++ leBytes x.badFlits.toNat 4 ++ leBytes x.targetRate.toNat 4)

/-- LINK_RETRAIN (R313): the response follows the retrain. -/
def State.linkRetrain (s : State) (e : EdgeId) : Reply :=
  if (s.edges[e]).state ≠ stActive then .fail .notReady
  else .wait (s.modEdge e fun x => { x with state := stRetrain, retraining := true, resendAt := none, resendCount := 0 }) (.awaitRetrain e)

/-- MODULE_DISABLE (R314). -/
def State.moduleDisable (s : State) (a : BitVec 512) (e : EdgeId) : Reply :=
  let mask := slotBytes a 12 4
  let on := (s.edges[e]).on
  if 2 ^ 20 ≤ mask then .fail .badArg
  else if on &&& ~~~(BitVec.ofNat 20 mask) = 0 then .fail .conflict
  else .done (s.modulesOff e (on &&& BitVec.ofNat 20 mask) true true) .ok []

/-- A repair map routes a lane over a spare (R305, R306). -/
def usesSpare (w : Word) : Bool := (wordLanes w).any (fun l => l < 64) || bitOf w.toNat 28 || bitOf w.toNat 29

/-- LANE_REPORT. -/
def State.laneReport (s : State) (a : BitVec 512) (e : EdgeId) : Reply :=
  match s.bulk a 320 with
  | none => .fail .badArg
  | some at_ =>
    let x := s.edges[e]
    let one := fun m : Fin 20 => leBytes (s.fusedWord e m false).toNat 4 ++ leBytes (s.fusedWord e m true).toNat 4 ++ leBytes (x.mapTx[m]).toNat 4
      ++ leBytes (x.mapRx[m]).toNat 4
    let spare := maskOf 20 fun i => let m := Fin.ofNat 20 i; usesSpare x.mapTx[m] || usesSpare x.mapRx[m]
    .done (s.bulkWrite at_ ((List.finRange 20).flatMap one)) .ok (leBytes spare 4 ++ leBytes x.startFails.toNat 1)

/-! ### The meanings -/

/-- LOAD_ROUTE_TABLE (R285). -/
def execLoadRouteTable (p : CtlPort) (s : State) : Out := ev s fun s => s.runCmd p 0x0400 State.loadRoute
/-- LOAD_RANK_TABLE (R285). -/
def execLoadRankTable (p : CtlPort) (s : State) : Out := ev s fun s => s.runCmd p 0x0401 State.loadRank
/-- EPOCH_FLIP (R286). -/
def execEpochFlip (p : CtlPort) (s : State) : Out := ev s fun s => s.runCmd p 0x0402 State.epochFlip
/-- EPOCH_STATUS (R290). -/
def execEpochStatus (p : CtlPort) (s : State) : Out := ev s fun s => s.runCmd p 0x0403 State.epochStatus
/-- MCAST_GROUP (R281). -/
def execMcastGroup (p : CtlPort) (s : State) : Out := ev s fun s => s.runCmd p 0x0404 State.mcastGroup
/-- LINK_STATUS (R386). -/
def execLinkStatus (p : CtlPort) (s : State) : Out := ev s fun s => s.runCmd p 0x0500 fun s a => s.onEdge a State.linkStatus
/-- LINK_RETRAIN (R313). -/
def execLinkRetrain (p : CtlPort) (s : State) : Out := ev s fun s => s.runCmd p 0x0501 fun s a => s.onEdge a State.linkRetrain
/-- MODULE_DISABLE (R314). -/
def execModuleDisable (p : CtlPort) (s : State) : Out := ev s fun s => s.runCmd p 0x0502 fun s a => s.onEdge a fun s e => s.moduleDisable a e
/-- LANE_REPORT (R386). -/
def execLaneReport (p : CtlPort) (s : State) : Out := ev s fun s => s.runCmd p 0x0503 fun s a => s.onEdge a fun s e => s.laneReport a e

end Sys2Proof.Machine
end

