-- ==== Sys2Proof/Machine/PowerCommands.lean ====
section
/-! DEFINITION. The commands of Table ONA-10: caps, energy and jobs, phases, core and die states, core reset and fmax (R337, R341, R343,
R349, R350, R354, R330 to R333, R427). -/

namespace Sys2Proof.Machine

/-- SET_CAP (R337). -/
def State.setCap (s : State) (a : BitVec 512) : Reply :=
  let n := slotBytes a 8 1
  if n < 80 ∨ 250 < n then .fail .badArg
  else
    let t := s.modBrz fun b => { b with target := BitVec.ofNat 8 n, urgent := slotFlags a % 2 == 1 }
    .done t .ok (leBytes n 1 ++ leBytes t.bronze.nextCap.toNat 1 ++ leBytes t.bronze.ramp.toNat 1)

/-- GET_CAP. -/
def State.getCap (s : State) (_a : BitVec 512) : Reply :=
  let b := s.bronze
  .done s .ok (leBytes b.target.toNat 1 ++ leBytes b.effective.toNat 1 ++ leBytes b.ramp.toNat 1 ++ leBytes Config.limit1ms 2
    ++ leBytes b.ballastLimit.toNat 1)

/-- SET_RAMP. -/
def State.setRamp (s : State) (a : BitVec 512) : Reply :=
  let n := slotBytes a 8 1
  if n = 0 ∨ 100 < n then .fail .badArg else .done (s.modBrz fun b => { b with ramp := BitVec.ofNat 7 n }) .ok []

/-- SET_BALLAST (R341). -/
def State.setBallast (s : State) (a : BitVec 512) : Reply :=
  let n := slotBytes a 8 1
  if 40 < n then .fail .badArg else .done (s.modBrz fun b => { b with ballastLimit := BitVec.ofNat 6 n }) .ok []

/-- ENERGY_READ (R349). -/
def State.energyRead (s : State) (_a : BitVec 512) : Reply :=
  let b := s.bronze
  .done s .ok (leBytes b.energyTotal.toNat 8 ++ leBytes b.energyBallast.toNat 8 ++ leBytes b.energyTime.toNat 8)

/-- The slot of an open job. -/
def Bronze.jobSlot (b : Bronze) (id : Word) : Option (Fin 16) :=
  (List.finRange 16).find? fun i => (b.jobs[i]).any fun j => j.id == id

/-- The lowest free job slot. -/
def Bronze.freeJob (b : Bronze) : Option (Fin 16) := (List.finRange 16).find? fun i => (b.jobs[i]).isNone

/-- JOB_BEGIN (R350). -/
def State.jobBegin (s : State) (a : BitVec 512) : Reply :=
  let id : Word := BitVec.ofNat 32 (slotBytes a 8 4)
  let b := s.bronze
  match b.jobSlot id, b.freeJob with
  | none, some i =>
    let job : Job := ⟨id, b.energyTotal, b.energyBallast, s.blf.time, false⟩
    let t := s.modBrz fun b => { b with jobs := upd b.jobs i fun _ => some job }
    .done t.markShared .ok (leBytes 0 4 ++ leBytes i.val 1)
  | _, _ => .fail .conflict

/-- JOB_END (R350). -/
def State.jobEnd (s : State) (a : BitVec 512) : Reply :=
  match s.bronze.jobSlot (BitVec.ofNat 32 (slotBytes a 8 4)) with
  | none => .fail .badArg
  | some i => match s.bronze.jobs[i] with
    | none => .fail .badArg
    | some j =>
      let b := s.bronze
      .done (s.modBrz fun b => { b with jobs := upd b.jobs i fun _ => none }) .ok
        (leBytes 0 4 ++ leBytes (b.energyTotal - j.total).toNat 8 ++ leBytes (b.energyBallast - j.ballast).toNat 8
          ++ leBytes (s.blf.time - j.time).toNat 8 ++ leBytes (b2n j.shared) 1)

/-- A phase entry as PWR_PHASEp lays it out. -/
def PhaseEntry.image (e : PhaseEntry) : List Byte := leBytes e.avg.toNat 4 ++ leBytes (e.visits.toNat + 65536 * b2n e.locked) 4

/-- A phase entry read from that layout. -/
def phaseOf (bs : List Byte) : PhaseEntry :=
  { avg := BitVec.ofNat 16 (wordAt bs 0), visits := BitVec.ofNat 16 (wordAt bs 4), locked := bitOf (wordAt bs 4) 16 }

/-- Change `n` phase entries from `first`. -/
def Bronze.onPhases (b : Bronze) (first n : Nat) (f : Nat → PhaseEntry → PhaseEntry) : Bronze :=
  { b with phases := Vector.ofFn fun i : Fin 64 => if first ≤ i.val ∧ i.val < first + n then f (i.val - first) b.phases[i] else b.phases[i] }

/-- PHASE_TABLE (R343). -/
def State.phaseTable (s : State) (a : BitVec 512) : Reply :=
  let op := slotBytes a 8 1
  let first := slotBytes a 9 1
  let n := slotBytes a 10 1
  if 3 < op ∨ 64 < first + n then .fail .badArg
  else if op = 2 then .done (s.modBrz fun b => b.onPhases first n fun _ e => { e with locked := true }) .ok []
  else if op = 3 then .done (s.modBrz fun b => b.onPhases first n fun _ e => { e with locked := false }) .ok []
  else match s.bulk a (8 * n) with
    | none => .fail .badArg
    | some at_ =>
      if op = 0 then
        .done (s.bulkWrite at_ ((List.range n).flatMap fun i => (s.bronze.phases[Fin.ofNat 64 (first + i)]).image)) .ok []
      else
        let r := s.bulkRead at_ (8 * n)
        match r.2 with
        | none => .done r.1 .badArg []
        | some bs => .done (r.1.modBrz fun b => b.onPhases first n fun i _ => phaseOf (bs.drop (8 * i))) .ok []

/-! ### Core and die states -/

/-- The cores a command names in bytes 12 and 13. -/
def coresArg (a : BitVec 512) : List CoreId := (bitsSet (slotBytes a 12 2) 16).map fun c => Fin.ofNat 16 c

/-- A core may be put to sleep: its sequencer is idle, halted or asleep on an empty ring, and no unit holds a descriptor (R330). -/
def State.maySleep (s : State) (c : CoreId) : Bool :=
  let k := s.core c
  [0, 5, 6].contains (k.seqState s c) && k.inFlight == 0 && k.eng.toList.all (·.flight.isEmpty)

/-- CORE_POWER to a state of one core: a wake begins, or the core sleeps; out of C4 the arrays are zeroed first. -/
def State.moveCore (s : State) (c : CoreId) (goal : CState) : State :=
  let k := s.core c
  if k.cstate = goal then s
  else if goal = .c0 then (if k.waking then s else s.askWake c)
  else (if k.cstate = .c4 then s.zeroArrays c else s).sleepCore c goal

/-- The core state of a code. -/
def cstateOf (n : Nat) : Option CState :=
  match n with
  | 0 => some .c0
  | 2 => some .c2
  | 3 => some .c3
  | 4 => some .c4
  | _ => none

/-- CORE_POWER with core scope (R330, R331, R387). -/
def State.powerCores (s : State) (a : BitVec 512) : Reply :=
  let cs := coresArg a
  match cstateOf (slotBytes a 9 1) with
  | none => .fail .badArg
  | some goal =>
    if cs.any (fun c => !(s.core c).here) then .fail .badArg
    else if cs.any (fun c => ((s.core c).owner.isNone && goal != .c4) || (s.core c).bist
        || (goal != .c0 && (s.core c).cstate != .c4 && !s.maySleep c)) then .fail .conflict
    else
      let t := (cs.foldl (fun s c => s.moveCore c goal) s).decideVolt
      let w := t.wakingOf (BitVec.ofNat 16 (slotBytes a 12 2))
      if goal = .c0 ∧ w ≠ 0 then .wait t (.awaitWake w) else .done t .ok []

/-- CORE_POWER with die scope (R333): refused while a partition exists. -/
def State.powerDie (s : State) (a : BitVec 512) : Reply :=
  match slotBytes a 9 1 with
  | 2 =>
    if s.blf.partitions.isEmpty = false then .fail .conflict
    else if s.dstate = .d2 then .done s .ok [] else .wait { s with d2Pending := true } .awaitD2
  | 0 =>
    if s.blf.partitions.isEmpty = false then .fail .conflict
    else if s.dstate = .d2 then .wait s.leavesD2 .awaitD0 else .done s .ok []
  | _ => .fail .badArg

/-- CORE_POWER. -/
def State.corePower (s : State) (a : BitVec 512) : Reply :=
  match slotBytes a 8 1 with
  | 0 => s.powerCores a
  | 1 => s.powerDie a
  | _ => .fail .badArg

/-- The row of CORE_POWER: it begins the command, or answers one that waits for the links of a die that left D2. -/
def State.corePowerRow (s : State) (p : CtlPort) : State :=
  if (s.port p).phase = .awaitD0 then
    if s.edges.toList.all fun x => x.state == stActive || x.state == stDown || x.state == stOff then s.respond p .ok [] else s
  else s.runCmd p 0x0700 State.corePower

/-- One core's reset, with 0x703 when work of its is discarded (R401, R427). -/
def State.coreResetOne (s : State) (c : CoreId) : State :=
  (if (s.core c).firstOpen.isSome then s.logFrozen c 0x7F else s).resetCore c

/-- CORE_RESET (R423, R427). -/
def State.coreResetCmd (s : State) (a : BitVec 512) : Reply :=
  let cs := coresArg a
  if cs.any fun c => !(s.core c).here then .fail .badArg else .done (cs.foldl State.coreResetOne s) .ok []

/-- CORE_FMAX (R354). -/
def State.coreFmax (s : State) (a : BitVec 512) : Reply :=
  let n := slotBytes a 8 1
  let cs := coresArg a
  let step : BitVec 6 := BitVec.ofNat 6 n
  if 36 < n ∨ cs.any fun c => !(s.core c).here || decide ((s.core c).fmaxEff < step) then .fail .badArg
  else .done ((cs.foldl (fun s c => s.modCore c fun k => { k with ceiling := step, freq := if step < k.freq then step else k.freq }) s).decideVolt)
    .ok []

/-! ### The meanings -/

/-- SET_CAP (R337). -/
def execSetCap (p : CtlPort) (s : State) : Out := ev s fun s => s.runCmd p 0x0600 State.setCap
/-- GET_CAP (R337). -/
def execGetCap (p : CtlPort) (s : State) : Out := ev s fun s => s.runCmd p 0x0601 State.getCap
/-- SET_RAMP (R386). -/
def execSetRamp (p : CtlPort) (s : State) : Out := ev s fun s => s.runCmd p 0x0602 State.setRamp
/-- SET_BALLAST (R341). -/
def execSetBallast (p : CtlPort) (s : State) : Out := ev s fun s => s.runCmd p 0x0603 State.setBallast
/-- ENERGY_READ (R349). -/
def execEnergyRead (p : CtlPort) (s : State) : Out := ev s fun s => s.runCmd p 0x0604 State.energyRead
/-- JOB_BEGIN (R350). -/
def execJobBegin (p : CtlPort) (s : State) : Out := ev s fun s => s.runCmd p 0x0605 State.jobBegin
/-- JOB_END (R350). -/
def execJobEnd (p : CtlPort) (s : State) : Out := ev s fun s => s.runCmd p 0x0606 State.jobEnd
/-- PHASE_TABLE (R343). -/
def execPhaseTable (p : CtlPort) (s : State) : Out := ev s fun s => s.runCmd p 0x0607 State.phaseTable
/-- CORE_POWER (R330). -/
def execCorePower (p : CtlPort) (s : State) : Out := ev s fun s => s.corePowerRow p
/-- CORE_RESET (R427). -/
def execCoreReset (p : CtlPort) (s : State) : Out := ev s fun s => s.runCmd p 0x0701 State.coreResetCmd
/-- CORE_FMAX (R354). -/
def execCoreFmax (p : CtlPort) (s : State) : Out := ev s fun s => s.runCmd p 0x0702 State.coreFmax

end Sys2Proof.Machine
end

