-- ==== Sys2Proof/Machine/FaultCommands.lean ====
section
/-! DEFINITION. The commands of Table ONA-11: the fault log (R393), freezing (R399, R400), fencing (R406), mirrors and spares (R408 to
R411), the wait graph (R255), and the bound of a command. -/

namespace Sys2Proof.Machine

/-- How far number `a` lies behind number `b`, modulo 2^32. -/
def behind (a b : Word) : Nat := (b - a).toNat

/-- Records held in the ring. -/
def Belfry.heldCount (b : Belfry) : Nat := (b.newest + 1 - b.oldest).toNat

/-- ERR_LOG_READ: records from the first one named, or the oldest held after it. -/
def State.errLogRead (s : State) (a : BitVec 512) : Reply :=
  let b := s.blf
  let ask : Word := BitVec.ofNat 32 (slotBytes a 8 4)
  let n := slotBytes a 12 2
  match s.bulk a (32 * n) with
  | none => .fail .badArg
  | some at_ =>
    let d := behind b.oldest ask
    let first := if b.heldCount ≤ d ∧ 2 ^ 31 ≤ d then b.oldest else ask
    let off := behind b.oldest first
    let cnt := min n (b.heldCount - off)
    let bs := (List.range cnt).flatMap fun i => (b.logRing[logSlot (first + BitVec.ofNat 32 i)]).bytes
    .done (s.bulkWrite at_ bs) .ok (leBytes first.toNat 4 ++ leBytes cnt 4 ++ leBytes b.oldest.toNat 4 ++ leBytes b.newest.toNat 4)

/-- The fatal records held that ERR_CLEAR discards, from the oldest: those with numbers up to `n`. -/
def Belfry.fatalGone (b : Belfry) (n : Word) : Nat :=
  (((List.range b.fatalHeld).map fun i => b.fatalRing[Fin.ofNat 64 (b.fatalStored - b.fatalHeld + i)]).takeWhile fun r => behind r.number n < 2 ^ 31).length

/-- ERR_CLEAR (R393). -/
def State.errClear (s : State) (a : BitVec 512) : Reply :=
  let n : Word := BitVec.ofNat 32 (slotBytes a 8 4)
  .done (s.modBlf fun b =>
    let d := behind b.oldest n
    { b with
      oldest := if d < b.heldCount then n + 1 else if d < 2 ^ 31 then b.newest + 1 else b.oldest
      fatalHeld := b.fatalHeld - b.fatalGone n }) .ok []

/-! ### Freezing (R400) -/

/-- The port a FREEZE or UNFREEZE names, other than the issuer. -/
def namedPort (p : CtlPort) (a : BitVec 512) : Option CtlPort :=
  match slotBytes a 9 1 with
  | 0 => if p = .A then none else some .A
  | 1 => if p = .B then none else some .B
  | _ => none

/-- FREEZE. -/
def State.freezeCmd (s : State) (p : CtlPort) (a : BitVec 512) : Reply :=
  let mask := slotBytes a 10 1
  match slotBytes a 8 1 with
  | 0 =>
    if 127 < mask ∨ (coresArg a).any fun c => !(s.core c).here then .fail .badArg
    else .done ((coresArg a).foldl (fun s c => (s.freezeMask c mask .command).logFrozen c mask) s) .ok []
  | 1 => match namedPort p a with
    | none => .fail .badArg
    | some q => .done (s.freezePort q 4 0) .ok []
  | _ => .fail .badArg

/-- A wait of an unfrozen unit begins afresh when it had expired (R251). -/
def Wait.afresh (now default : Nat) (w : Wait) : Wait := if w.expired then w.restart now default else w

/-- A performer's queue at UNFREEZE: refused and failed descriptors are discarded, waits restart. -/
def UnitQ.thaw (now default : Nat) (q : UnitQ) : UnitQ :=
  { queue := q.queue.filter fun e => e.taken != .refused, active := q.active.filter fun a => a.progress != .failed
    wait := q.wait.map (Wait.afresh now default), freeze := none }

/-- UNFREEZE discards a descriptor that was refused or has ended failed. -/
def UnitQ.discards (q : UnitQ) (en : QEntry) : Bool :=
  en.taken == .refused || q.active.any fun a => a.entry.id == en.id && a.progress == .failed

/-- An engine at UNFREEZE: every chain wait begins afresh, and a group whose blocks all arrived while it was frozen opens (R124). -/
def State.thawEngine (s : State) (c : CoreId) (e : EngId) : State :=
  let now := s.now
  let dt := s.waitDefault
  let s := s.modEng c e fun x => { x with
    q := x.q.thaw now dt, stageWait := x.stageWait.map (Wait.afresh now dt)
    groups := vmap (fun g => { g with wait := g.wait.map (Wait.restart now dt) }) x.groups }
  (List.finRange 8).foldl (fun s g =>
    if (s.group c e g).state = .waitChain ∧ (s.group c e g).arrived = 0xFFFF then s.chainOpens c e g else s) (s.chainSettles c e)

/-- A FENCE whose mark ended failed is discarded without completing (R252, R400). -/
def State.dropFence (s : State) (c : CoreId) : State :=
  if (s.core c).seq.fencing.any (·.failed) then (s.modSeq c fun q => { q with fencing := none }).advance c else s

/-- UNFREEZE of one unit. -/
def State.thaw (s : State) (c : CoreId) (u : UnitId) : State :=
  match s.frozen c u with
  | none => s
  | some f =>
    let now := s.now
    let dt := s.waitDefault
    match u with
    | .eng e => s.thawEngine c e
    | .vec => s.modVec c fun v => { v with q := v.q.thaw now dt, running := v.running && !v.q.active.any fun a => a.progress == .failed }
    | .mover => (s.modMov c fun m => { (m.q.opens.filter m.q.discards).foldl Mover.discard m with q := m.q.thaw now dt }).dropFence c
    | .seq =>
      let own := f.discard && (s.core c).seq.fencing.isNone
      let s := s.modSeq c fun q => { q with freeze := none, wait := if own then none else q.wait.map (Wait.afresh now dt) }
      (if own then s.advance c else s).dropFence c

/-- UNFREEZE (R381, R400): a fatal freeze stands. -/
def State.unfreezeCmd (s : State) (p : CtlPort) (a : BitVec 512) : Reply :=
  let mask := slotBytes a 10 1
  match slotBytes a 8 1 with
  | 0 =>
    if 127 < mask ∨ (coresArg a).any fun c => !(s.core c).here then .fail .badArg
    else if s.fatal then .fail .conflict
    else .done ((coresArg a).foldl (fun s c => (bitsSet mask 7).foldl (fun s n => match unitOf n with
      | some u => s.thaw c u
      | none => s) s) s) .ok []
  | 1 => match namedPort p a with
    | none => .fail .badArg
    | some q =>
      if (s.port q).frozen then
        .done ((s.modPort q fun x => { x with frozen := false }).postBoth 6 (leBytes ((portIdx q).val + 256) 2 ++ leBytes (s.port q).cause.toNat 1)) .ok []
      else .done s .ok []
  | _ => .fail .badArg

/-! ### Fencing, mirrors and spares (R404, R406, R408, R410) -/

/-- FENCE_DIE (R406). -/
def State.fenceDie (s : State) (a : BitVec 512) : Reply :=
  let d := slotBytes a 8 1
  if 63 < d ∨ d = s.dieId.toNat then .fail .badArg
  else s.compared fun s =>
    let s := s.modBlf fun b => { b with fenced := putBit b.fenced d true }
    .done ((List.finRange 4).foldl (fun s e =>
      let x := s.edges[e]
      if bitOf x.peer.toNat 11 ∧ x.peerDie = d ∧ x.state ≠ stOff then s.edgeStops e stOff 7 true else s) s) .ok []

/-- Case 4 of R404: every edge toward a die named as live is down. -/
def State.compareLive (s : State) (d : Nat) : State :=
  let die : BitVec 6 := BitVec.ofNat 6 d
  let s := s.compareRoute die
  if die = s.dieId then s
  else
    let r := s.routeEntry s.spire.cur die
    let edges := [field r 0 3, field r 4 3].filterMap fun n => match portOf n with
      | some (.edge e) => some e
      | _ => none
    if edges.all fun e => !s.carries e then s.disagree 4 d else s

/-- The two ranges meet. -/
def rangesMeet (a n b m : Nat) : Bool := decide (a < b + m ∧ b < a + n)

/-- MIRROR_CFG OP 1 (R408). -/
def State.hostMirror (s : State) (peer win size base : Nat) : Reply :=
  let i : Fin 256 := Fin.ofNat 256 win
  let touched := match rangeOf base size with
    | some l => l
    | none => []
  let keys := touched.map s.resOwner
  let met := fun m : Mirror => m.valid && rangesMeet base size m.base.toNat m.size.toNat
  if base % 64 ≠ 0 ∨ 0x04000000 < base + size then .fail .badArg
  else match keys with
    | some key :: r =>
      let owner := (List.finRange 16).find? fun c : CoreId => (s.core c).owner == some key
      match owner with
      | none => .fail .conflict
      | some c =>
        if (r.all (· == some key)) = false ∨ (s.blf.mirrorIn :: s.blf.hosted).any met ∨ (s.spire.windows[i]).valid then .fail .conflict
        else
          let w : Window := { Window.reset with
            base := BitVec.ofNat 40 base, len64 := BitVec.ofNat 26 (size / 64 - 1), pkey := key, owner := BitVec.ofNat 4 c.val, valid := true
            rd := true, wr := true }
          let m : Mirror := { peer := BitVec.ofNat 6 peer, window := BitVec.ofNat 8 win, valid := true, base := BitVec.ofNat 32 base
                              size := BitVec.ofNat 32 size }
          .done ((s.openEntry i w).modBlf fun b => { b with mirrorIn := m, hosted := b.hosted ++ [m] }) .ok []
    | _ => .fail .conflict

/-- MIRROR_CFG. OP 0 clears the records and closes every window this die hosts (R408; DEDUCED, log entry 133). -/
def State.mirrorCfg (s : State) (a : BitVec 512) : Reply :=
  let op := slotBytes a 8 1
  let peer := slotBytes a 9 1
  let win := slotBytes a 10 1
  let size := slotBytes a 12 4
  if op = 0 then
    let open_ := (s.blf.mirrorIn :: s.blf.hosted).filter (·.valid)
    let s := open_.foldl (fun s m => s.modSpire fun p => { p with windows := upd p.windows (Fin.ofNat 256 m.window.toNat) fun w => { w with valid := false } }) s
    .done (s.modBlf fun b => { b with mirrorIn := Mirror.reset, mirrorOut := Mirror.reset, hosted := [] }) .ok []
  else if 2 < op ∨ 63 < peer ∨ size = 0 ∨ size % 64 ≠ 0 ∨ 0x1000000 < size then .fail .badArg
  else s.compared fun s =>
    let s := s.compareLive peer
    if op = 1 then match s.hostMirror peer win size (slotBytes a 16 5) with
      | .fail st => .done s st []
      | r => r
    else .done (s.modBlf fun b => { b with mirrorOut :=
      { peer := BitVec.ofNat 6 peer, window := BitVec.ofNat 8 win, valid := true, base := 0, size := BitVec.ofNat 32 size } }) .ok []

/-- A key joins the first free entry of a port's set. -/
def addKey (set : Vector Word 8) (key : BitVec 16) : Vector Word 8 :=
  match (List.finRange 8).find? fun i => !bitOf (set[i]).toNat 16 with
  | some i => upd set i fun _ => BitVec.ofNat 32 (key.toNat + 65536)
  | none => set

/-- The mirror's READs (R410 step 4), up to the end of the 64-byte unit in which the length ends, as windows are laid out (Table MEM-3). -/
def mirrorItem (key : BitVec 16) (buddy win n : Nat) : NetItem :=
  { kind := .mirror key, dest := BitVec.ofNat 16 (buddy * 16), window := BitVec.ofNat 8 win, offset := 0, loc := 0, rowBytes := (n + 63) / 64 * 64, rows := 1
    localPitch := 0, remotePitch := 0, signal := false, sigCnt := 0, sigInc := 0, group := 0, spec := false, row := 0, pos := 0, seq := 0, desc := 0
    off := 0 }

/-- PROMOTE_SPARE (R410). -/
def State.promoteSpare (s : State) (p : CtlPort) (a : BitVec 512) : Reply :=
  let buddy := slotBytes a 9 1
  let n := slotBytes a 12 4
  let key : BitVec 16 := BitVec.ofNat 16 (slotBytes a 16 2)
  if 63 < slotBytes a 8 1 ∨ 63 < buddy ∨ key = 0 ∨ 0x1000000 < n then .fail .badArg
  else s.compared fun s =>
    let s := s.compareLive buddy
    if s.role ≠ 2 ∨ s.blf.partitions.isEmpty = false ∨ (s.spire.keys.toList.any fun k => k.toList.all fun w => bitOf w.toNat 16)
        ∨ s.clearingAny 0xFFFF 0xFF then .done s .conflict []
    else if s.spireOn = false then .done s .notReady []
    else
      let s := s.modBlf fun b => { b with partitions := [{ pkey := key, amode := true, port := p }] }
      let s := s.bindTo key (BitVec.ofNat 16 (maskOf 16 fun c => (s.core (Fin.ofNat 16 c)).here)) 0xFF
      let s := s.modSpire fun x => { x with keys := Vector.ofFn fun i : Fin 6 =>
        if i.val = 4 ∨ (i.val < 4 ∧ (s.edges[Fin.ofNat 4 i.val]).linked) then addKey x.keys[i] key else x.keys[i] }
      if n = 0 then .done s .ok (leBytes 0 4 ++ leBytes (crc32 []).toNat 4)
      else .wait (s.modBlf fun b => { b with campWork := [mirrorItem key buddy (slotBytes a 10 1) n] }) .awaitBuddy

/-- COMMAND_BOUND_EXPIRY: 4 ms without the buddy's data, or 2 s without the store's confirmation (R388, R410). -/
def State.boundExpires (s : State) (p : CtlPort) : State :=
  let q := s.port p
  if q.executing.isNone then s
  else if q.phase = .awaitBuddy then
    ((s.advanceTo (q.cmdAt + 400000)).modBlf fun b => { b with campWork := [], campOut := [] }).respond p .timeout []
  else if q.phase = .awaitStore then ((s.advanceTo (q.cmdAt + 200000000)).modBlf fun b => { b with storeAsk := none }).respond p .timeout []
  else s

/-! ### The wait graph (R255) -/

/-- KIND of Table SYN-3. -/
def WaitKind.code : WaitKind → Nat
  | .waitDesc => 0
  | .header => 1
  | .chainRecv => 2
  | .chainSend => 3

/-- A record of Table SYN-3. -/
def graphRecord (c : CoreId) (unit : Nat) (frozen : Bool) (kind counter thresh value desc age : Nat) : List Byte :=
  leBytes (c.val + 16 * unit + 128 * b2n frozen + 256 * kind + 65536 * counter) 4 ++ leBytes thresh 2 ++ leBytes value 2 ++ leBytes desc 4
    ++ leBytes (min 0xFFFFFFFF age) 4

/-- The unit is frozen by a wait timeout, of whichever kind of wait. -/
def State.timedOut (s : State) (c : CoreId) (u : UnitId) : Bool :=
  (s.frozen c u).any fun f => f.cause == .waitTimeout || f.cause == .answerTimeout

/-- The unit with a number of Table SYN-3 is frozen by a wait timeout. -/
def State.timedOutN (s : State) (c : CoreId) (unit : Nat) : Bool := (unitOf unit).any (s.timedOut c)

/-- The record of a counter wait. -/
def State.waitRecord (s : State) (c : CoreId) (unit : Nat) (w : Wait) : List Byte :=
  graphRecord c unit (s.timedOutN c unit) w.kind.code w.counter.toNat w.thresh.toNat ((s.core c).cnt[Fin.ofNat 64 w.counter.toNat]).toNat w.desc (s.now - w.began)

/-- The records of an engine's group waits. -/
def State.groupRecords (s : State) (c : CoreId) (e : EngId) : List (List Byte) :=
  (List.finRange 8).filterMap fun g =>
    let x := s.group c e g
    x.wait.map fun w =>
      let v := if w.kind = .chainRecv then popcount x.arrived.toNat 16 else popcount x.accepted.toNat 16
      graphRecord c e.val (s.timedOutN c e.val) w.kind.code 0 16 v w.desc (s.now - w.began)

/-- The record of an answer wait of the descriptor at `desc` that began at `began`. -/
def State.answerRecord (s : State) (c : CoreId) (u : UnitId) (desc began : Nat) : List Byte :=
  graphRecord c (unitNum u) (s.timedOut c u) 4 0 1 0 desc (s.now - began)

/-- The records of one unit: its waits, then its answer waits of at least 1 ms, one for each outstanding entry; a unit that an answer wait
froze and that sleeps on no wait gives the record of that answer wait. -/
def State.unitRecords (s : State) (c : CoreId) (u : UnitId) : List (List Byte) :=
  let own := ((s.core c).unitQ u).wait.map fun w => s.waitRecord c (unitNum u) w
  let more := match u with
    | .eng e => ((s.eng c e).stageWait.map fun w => s.waitRecord c (unitNum u) w).toList ++ s.groupRecords c e
    | _ => []
  let answers := ((s.core c).outst.filter fun o => o.unit.toNat == unitNum u && decide (100000 ≤ s.now - o.began)).flatMap fun o =>
    List.replicate o.due (s.answerRecord c u o.off o.began)
  let frozen := match (s.frozen c u).bind (·.answer) with
    | some x => if own.isNone ∧ more = [] then [s.answerRecord c u x.1 x.2] else []
    | none => []
  own.toList ++ more ++ frozen ++ answers

/-- WAIT_GRAPH. -/
def State.waitGraph (s : State) (a : BitVec 512) : Reply :=
  match s.bulk a 1792 with
  | none => .fail .badArg
  | some at_ =>
    let recs := (List.finRange 16).flatMap fun c => (List.range 7).flatMap fun n => match unitOf n with
      | some u => s.unitRecords c u
      | none => []
    .done (s.bulkWrite at_ (recs.take (brLen a / 16)).flatten) .ok (leBytes recs.length 2)

/-! ### The meanings -/

/-- ERR_LOG_READ (R393). -/
def execErrLogRead (p : CtlPort) (s : State) : Out := ev s fun s => s.runCmd p 0x0800 State.errLogRead
/-- ERR_CLEAR (R393). -/
def execErrClear (p : CtlPort) (s : State) : Out := ev s fun s => s.runCmd p 0x0801 State.errClear
/-- FREEZE (R400). -/
def execFreeze (p : CtlPort) (s : State) : Out := ev s fun s => s.runCmd p 0x0802 fun s a => s.freezeCmd p a
/-- UNFREEZE (R400). -/
def execUnfreeze (p : CtlPort) (s : State) : Out := ev s fun s => s.runCmd p 0x0803 fun s a => s.unfreezeCmd p a
/-- FENCE_DIE (R406). -/
def execFenceDie (p : CtlPort) (s : State) : Out := ev s fun s => s.runCmd p 0x0804 State.fenceDie
/-- PROMOTE_SPARE (R410). -/
def execPromoteSpare (p : CtlPort) (s : State) : Out := ev s fun s => s.runCmd p 0x0805 fun s a => s.promoteSpare p a
/-- MIRROR_CFG (R408). -/
def execMirrorCfg (p : CtlPort) (s : State) : Out := ev s fun s => s.runCmd p 0x0806 State.mirrorCfg
/-- WAIT_GRAPH (R255). -/
def execWaitGraph (p : CtlPort) (s : State) : Out := ev s fun s => s.runCmd p 0x0807 State.waitGraph
/-- COMMAND_BOUND_EXPIRY (R373). -/
def execCommandBoundExpiry (p : CtlPort) (s : State) : Out := ev s fun s => s.boundExpires p

end Sys2Proof.Machine
end

