-- ==== Sys2Proof/Machine/CareCommands.lean ====
section
/-! DEFINITION. The commands of Table ONA-12: the calibration record (R356, R357, R388), firmware images (R389, R420) and the
scrubbers' controls (R239, R240), with the image check the boot ROM shares. -/

namespace Sys2Proof.Machine

/-! ### The calibration record (Table PWR-9) -/

/-- The record's 16-bit field at an offset. -/
def half (bs : List Byte) (o : Nat) : Nat := leNat ((bs.drop o).take 2)

/-- The CRC over bytes 0x000 to 0xFFB matches the stored one (R356). -/
def calCrcOk (bs : List Byte) : Bool := decide (4096 ≤ bs.length) && (crc32 (bs.take 4092)).toNat == wordAt bs 4092

/-- A number lies in the range a field allows. -/
def between (lo x hi : Nat) : Bool := decide (lo ≤ x ∧ x ≤ hi)

/-- A record that CAL_WRITE accepts: magic, format version, CRC, and droop thresholds and Vmin in their ranges. -/
def calGood (bs : List Byte) : Bool :=
  calCrcOk bs && wordAt bs 0 == 0x314C4143 && half bs 4 == 1
    && ((List.range 64).all fun i => between 5 (half bs (0xB0 + 2 * i)) 150)
    && ((List.range 16).all fun n => (List.range 37).all fun i => between 550 (half bs (0x140 + 80 * n + 2 * i)) 850)

/-- A CAL event (Table ONA-13). -/
def State.calEvent (s : State) : State := s.postBoth 0xB (leBytes (b2n s.bronze.calInvalid) 4 ++ leBytes (wordAt s.blf.cal 4092) 4)

/-- CAL_READ. -/
def State.calRead (s : State) (a : BitVec 512) : Reply :=
  match s.bulk a 4096 with
  | none => .fail .badArg
  | some at_ =>
    let c := s.blf.cal
    .done (s.bulkWrite at_ (c ++ List.replicate (4096 - c.length) 0)) .ok (leBytes (wordAt c 4092) 4 ++ leBytes (b2n s.bronze.calInvalid) 1)

/-- CAL_WRITE: the working copy is replaced; with PERSIST the image store at the boot source is asked to overwrite its copy, and the response
waits for it (R388). -/
def State.calWrite (s : State) (a : BitVec 512) : Reply :=
  match s.bulk a 4096 with
  | none => .fail .badArg
  | some at_ =>
    let r := s.bulkRead at_ 4096
    match r.2 with
    | none => .done r.1 .badArg []
    | some bs =>
      if calGood bs = false then .done r.1 .badArg []
      else
        let t := ((r.1.modBlf fun b => { b with cal := bs }).modBrz fun b => { b with calInvalid := false }).calEvent
        if slotFlags a % 2 = 1 then .wait (t.modBlf fun b => { b with storeAsk := some bs }) .awaitStore else .done t .ok []

/-- STORE_CONFIRM (R388). -/
def State.storeConfirms (s : State) : State :=
  s.forWaiting .awaitStore fun s p => (s.modBlf fun b => { b with storeAsk := none }).respond p .ok []

/-! ### Images (R420) -/

/-- The part of an image from byte `o`, `n` bytes. -/
def part (im : List Byte) (o n : Nat) : List Byte := (im.drop o).take n

/-- The body of an image (Table BOT-2). -/
def imageBody (im : List Byte) : List Byte := part im 256 (wordAt im 12)

/-- The lengths lie within the image and the image within 384 KiB. -/
def imageFits (im : List Byte) : Bool :=
  between 256 im.length 0x60000 && decide (256 + wordAt im 12 ≤ im.length ∧ wordAt im 208 + wordAt im 212 ≤ wordAt im 12)

/-- KEY_HASH0 to KEY_HASH11 as a digest. -/
def Belfry.keyDigest (b : Belfry) : Nat := beNat ((List.range 12).flatMap fun i => leBytes (b.shadow[Fin.ofNat 256 (8 + i)]).toNat 4)

/-- The ROLLBACK count: the number of bits set. -/
def Belfry.rollback (b : Belfry) : Nat := popcount (b.shadow[3]).toNat 32

/-- The image is authentic and not rolled back (R420). -/
def Belfry.accepts (b : Belfry) (im : List Byte) : Bool :=
  imageFits im && wordAt im 0 == 0x4E55414F && decide (b.rollback ≤ wordAt im 8) && sha384 (part im 16 96) == b.keyDigest
    && ecdsaOk (beNat (part im 16 48)) (beNat (part im 64 48)) (sha384 (im.take 112 ++ part im 208 48 ++ imageBody im)) (beNat (part im 112 48))
      (beNat (part im 160 48))

/-- An accepted image becomes the running one; Onaune starts. -/
def Belfry.run (b : Belfry) (im : List Byte) : Belfry :=
  { b with image := im, accepted := true, stage := 4, fwVer := BitVec.ofNat 32 (wordAt im 4), secVer := BitVec.ofNat 6 (wordAt im 8) }

/-- FW_STAGE. -/
def State.fwStage (s : State) (a : BitVec 512) : Reply :=
  let n := brLen a
  match s.bulk a 1 with
  | none => .fail .badArg
  | some at_ =>
    if 0x60000 < n then .fail .badArg
    else
      let r := s.bulkRead at_ n
      match r.2 with
      | none => .done r.1 .badArg []
      | some bs => .done (r.1.modBlf fun b => { b with staged := bs }) .ok []

/-- FW_ACTIVATE (R389): the restart into the new image, or DENIED with the port frozen. -/
def State.fwActivate (s : State) (p : CtlPort) (_a : BitVec 512) : Reply :=
  let im := s.blf.staged
  if im.isEmpty then .fail .notReady
  else if s.blf.accepts im then .done (s.modBlf fun b => { b.run im with staged := [], activation := true }) .ok []
  else .done (s.freezePort p 3 (wordAt im 8)) .denied []

/-! ### Scrubbers (R239, R240) -/

/-- SCRUB_CFG. -/
def State.scrubCfg (s : State) (a : BitVec 512) : Reply :=
  let period := slotBytes a 12 2
  if between 10 period 60000 = false then .fail .badArg
  else .done ((bitsSet (slotBytes a 8 3) 24).foldl (fun s u => s.setScrub (Fin.ofNat 24 u) (slotBytes a 11 1 % 2 = 1) period) s) .ok []

/-- SCRUB_STATUS: the four registers of a unit; reading clears the two counters. -/
def State.scrubStatus (s : State) (a : BitVec 512) : Reply :=
  let n := slotBytes a 8 1
  let u : Fin 24 := Fin.ofNat 24 n
  if 23 < n then .fail .badArg
  else
    let at_ := 0x0300020000 + 16 * n
    .done (s.modBlf fun b => { b with eccCorr := upd b.eccCorr u fun _ => 0, eccUncorr := upd b.eccUncorr u fun _ => 0 }) .ok
      (leBytes (s.peek at_) 4 ++ leBytes (s.peek (at_ + 4)) 4 ++ leBytes (s.peek (at_ + 8)) 4 ++ leBytes (s.peek (at_ + 12)) 4)

/-! ### The meanings -/

/-- CAL_READ (R386). -/
def execCalRead (p : CtlPort) (s : State) : Out := ev s fun s => s.runCmd p 0x0900 State.calRead
/-- CAL_WRITE (R357). -/
def execCalWrite (p : CtlPort) (s : State) : Out := ev s fun s => s.runCmd p 0x0901 State.calWrite
/-- FW_STAGE (R386). -/
def execFwStage (p : CtlPort) (s : State) : Out := ev s fun s => s.runCmd p 0x0A00 State.fwStage
/-- FW_ACTIVATE (R389). -/
def execFwActivate (p : CtlPort) (s : State) : Out := ev s fun s => s.runCmd p 0x0A01 fun s a => s.fwActivate p a
/-- SCRUB_CFG (R240). -/
def execScrubCfg (p : CtlPort) (s : State) : Out := ev s fun s => s.runCmd p 0x0B00 State.scrubCfg
/-- SCRUB_STATUS (R386). -/
def execScrubStatus (p : CtlPort) (s : State) : Out := ev s fun s => s.runCmd p 0x0B01 State.scrubStatus
/-- STORE_CONFIRM (R388). -/
def execStoreConfirm (s : State) : Out := ev s fun s => s.storeConfirms

end Sys2Proof.Machine
end

