-- ==== Sys2Proof/Machine/Scrub.lean ====
section
/-! DEFINITION. The scrubbers of the Cupolas and Dome slices (R237 to R240) and the upsets that strike a word before an access
checks it (R235, R236). -/

namespace Sys2Proof.Machine

/-- An upset joins the damaged words, in address order; two on one word are uncorrectable. -/
def addUpset (w : Nat) (double : Bool) : List (Nat × Bool) → List (Nat × Bool)
  | [] => [(w, double)]
  | x :: r => if w < x.1 then (w, double) :: x :: r else if w = x.1 then (w, true) :: r else x :: addUpset w double r

/-- An address of SRAM. -/
def isSram (a : Nat) : Bool :=
  match region a with
  | .dome _ | .cupola _ | .lantern _ => true
  | _ => false

/-- An upset strikes a word of SRAM. -/
def State.strike (s : State) (x : Upset) : State :=
  if isSram x.addr then s.setMem { s.mem with upsets := addUpset (x.addr / 8) x.double s.mem.upsets } else s

/-- Where a scrubber's memory begins, and how many 64-byte lines it has. -/
def scrubRange (u : Fin 24) : Nat × Nat :=
  if u.val < 16 then (coreBase (Fin.ofNat 16 u.val), 98304) else ((u.val - 16) * 0x800000, 131072)

/-- A damaged word of a scrubbed line: corrected, or marked poisoned with fault 0x102. -/
def State.scrubWord (s : State) (pos : Nat) (x : Nat × Bool) : State :=
  let s := s.eccRead x
  if x.2 then
    s.log { cls := .deferred, code := 0x102, block := (memSource (8 * x.1)).1, inst := (memSource (8 * x.1)).2, pkey := none, detail := pos
            address := 8 * x.1 }
  else s

/-- The scrubber reads the words of the line at `a`. -/
def State.scrubRead (s : State) (pos a : Nat) : State :=
  let hit := fun x : Nat × Bool => decide (a / 8 ≤ x.1 ∧ x.1 < a / 8 + 8)
  (s.mem.upsets.filter hit).foldl (fun s x => s.scrubWord pos x) (s.setMem { s.mem with upsets := s.mem.upsets.filter fun x => !hit x })

/-- A new pass begins: its PERIOD is taken over (R240). -/
def Belfry.newPass (b : Belfry) (u : Fin 24) (now : Nat) : Belfry :=
  { b with
    scrubNow := upd b.scrubNow u fun _ => b.scrubPeriod[u], scrubAt := upd b.scrubAt u fun _ => now, scrubRun := putBit b.scrubRun u.val true
    scrubOver := putBit b.scrubOver u.val false }

/-- A pass ends: one that overran its period is followed at once by the next, another waits for its period's end. -/
def Belfry.endPass (b : Belfry) (u : Fin 24) (now : Nat) : Belfry :=
  if bitOf b.scrubOver.toNat u.val then b.newPass u now
  else { b with scrubRun := putBit b.scrubRun u.val false, scrubLag := putBit b.scrubLag u.val false }

/-- SCRUB_LINE. -/
def State.scrubLine (s : State) (u : Fin 24) (strikes : List Upset) : State :=
  if s.scrubIdle u ∨ bitOf s.blf.scrubRun.toNat u.val = false then s
  else
    let pos := (s.blf.scrubPos[u]).toNat
    let r := scrubRange u
    let last := decide (r.2 ≤ pos + 1)
    let s := (strikes.foldl State.strike s).scrubRead pos (r.1 + 64 * pos)
    let s := s.modBlf fun b => { b with scrubPos := upd b.scrubPos u fun _ => if last then 0 else BitVec.ofNat 17 (pos + 1) }
    if last then s.modBlf fun b => b.endPass u s.now else s

/-- SCRUB_PERIOD_END: an unfinished pass sets LAG; after a finished one the next begins. -/
def State.scrubPeriodEnd (s : State) (u : Fin 24) : State :=
  if s.scrubIdle u ∨ bitOf s.blf.scrubOver.toNat u.val then s
  else
    let s := s.advanceTo (s.blf.scrubAt[u] + (s.blf.scrubNow[u]).toNat * 100000)
    if bitOf s.blf.scrubRun.toNat u.val then
      s.modBlf fun b => { b with scrubOver := putBit b.scrubOver u.val true, scrubLag := putBit b.scrubLag u.val true }
    else s.modBlf fun b => b.newPass u s.now

/-- SCRUB_LINE (R237). -/
def execScrubLine (u : Fin 24) (strikes : List Upset) (s : State) : Out := ev s fun s => s.scrubLine u strikes
/-- SCRUB_PERIOD_END (R237). -/
def execScrubPeriodEnd (u : Fin 24) (s : State) : Out := ev s fun s => s.scrubPeriodEnd u

end Sys2Proof.Machine
end

