-- ==== Sys2Proof/Machine/Boot.lean ====
section
/-! DEFINITION. Start-up and reset (15): PORST_N, the fetch of the image and the calibration record (R418), authentication (R420,
R421), the package configuration record (R422), and die warm reset (R423, R425, R426) with the watchdog. -/

namespace Sys2Proof.Machine

/-! ### Cold reset (R415, R416, R424) -/

/-- PORST_N is asserted: every field goes to its Reset column; the TAP and the programmed fuses stay (R433, R442). -/
def State.coldReset (s : State) : State :=
  let t := coldState s.blf.fuses (fuseShadow s.blf.fuses) s.tap s.pending
  { t with free := s.free, dstate := if s.dstate = .d3 then .d3 else .up }

/-- A step of fmax the ageing monitors may leave a core of fused code `c`: no less than 92 % (R353). -/
def fmaxAllowed (c i : Nat) : Bool := decide (92 * (1100 + 25 * c) ≤ 100 * (400 + 25 * i))

/-- The effective step after a reduction by `n` steps, as far as it is allowed. -/
def agedStep (c n : Nat) : Nat :=
  match ((List.range (n + 1)).filter fun k => k ≤ 28 + c && fmaxAllowed c (28 + c - k)).getLast? with
  | some k => 28 + c - k
  | none => 28 + c

/-- Each core's effective fmax from its ageing monitors. -/
def State.ageAtStart (s : State) (aged : List Nat) : State :=
  s.forCores fun s c =>
    let code := s.fmaxCode c.val
    let i := agedStep code ((aged[c.val]?).getD 0)
    s.modCore c fun k => { k with
      fmaxEff := BitVec.ofNat 6 i, ceiling := BitVec.ofNat 6 i
      aged := BitVec.ofNat 8 (openDiv s.free (1000 * (25 * ((28 + code : Nat) - i : Int))) (1100 + 25 * code : Nat)).toNat }

/-- PORST_N is released: the fuse shadow is loaded, the PLLs start and the edges that are not OFF enter SB_DETECT after 0.2 ms;
a die that is unprogrammed or
disabled stops (R415, R416). -/
def State.coldStart (s : State) (aged : List Nat) : State :=
  let t := coldState s.blf.fuses (fuseShadow s.blf.fuses) s.tap s.pending
  let t := ({ t with free := s.free, porst := false }.ageAtStart aged).takeFree
  let t := t.pass 20000
  let runs := t.role ≠ 0 ∧ t.role ≠ 3
  let t := t.modBrz fun b => { b with spirePll := runs, domePll := runs }
  let t := (List.finRange 4).foldl (fun t e => t.modEdge e fun x => { x with
    state := if t.fusedOff e then stOff else stSbDetect, began := t.now, pll := !t.fusedOff e }) t
  t.modBlf fun b => { b with stage := if t.role = 0 ∨ t.role = 3 then 7 else 1 }

/-! ### The fetch (R418) -/

/-- The longest object: 384 KiB of image, 4 KiB of record. -/
def Fetch.limit (f : Fetch) : Nat :=
  match f.object with
  | .image => 0x60000
  | .calibration => 4096

/-- The bytes to fetch as far as known. -/
def Fetch.goal (f : Fetch) : Nat := min f.limit (f.size.getD f.limit)

/-- The bytes from `a` to below `b` have arrived. -/
def Fetch.has (f : Fetch) (a b : Nat) : Bool :=
  let l := (f.buf.drop a).take (b - a)
  decide (b - a ≤ l.length) && l.all (·.isSome)

/-- Bytes arrive at an offset. -/
def Fetch.put (f : Fetch) (o : Nat) (bs : List Byte) : Fetch :=
  let bs := bs.take (f.limit - o)
  if bs.isEmpty then f
  else { f with buf := (f.buf ++ List.replicate (o - f.buf.length) none).take o ++ bs.map some ++ f.buf.drop (o + bs.length) }

/-- The object's first bytes, as many as arrived without a gap are meant to be. -/
def Fetch.bytes (f : Fetch) : List Byte := (f.buf.take f.goal).map fun b => b.getD 0

/-- A fetch that has not asked for anything. -/
def Fetch.begin (o : FetchObject) : Fetch := { object := o, buf := [], size := none, requested := 0, outstanding := [], started := none }

/-- The fused boot source (Table PAR-9). -/
def State.bootDie (s : State) : Nat := field (s.blf.shadow[2]).toNat 0 6
/-- BOOT_JTAG. -/
def State.bootJtag (s : State) : Bool := bitOf (s.blf.shadow[2]).toNat 6
/-- BOOT_EDGE. -/
def State.bootEdge (s : State) : Nat := field (s.blf.shadow[2]).toNat 7 2

/-- The request for the piece at an offset. -/
def State.fetchPacket (s : State) (f : Fetch) (o : Nat) : Packet :=
  { Packet.blank with
    vc := 2, epoch := s.spire.cur, opcode := 0x10, len := 1, destDie := BitVec.ofNat 6 s.bootDie, destUnit := BitVec.ofNat 4 (12 + s.bootEdge)
    srcDie := s.dieId, srcUnit := 8
    payload := leBytes (match f.object with
      | .image => 0
      | .calibration => 1) 4 ++ leBytes o 4 ++ leBytes (min 4096 (f.limit - o)) 4 ++ leBytes 0 4 }

/-- Replace the fetch. -/
def State.setFetch (s : State) (f : Option Fetch) : State := s.modBlf fun b => { b with fetch := f }

/-- The image fetch begins (again). -/
def State.beginFetch (s : State) : State :=
  s.modBlf fun b => { b with
    stage := 2, fetch := some (Fetch.begin .image), retryAt := 0, attempts := if b.attempts = 255 then 255 else b.attempts + 1 }

/-- The next request, while at most four are outstanding. -/
def State.fetchNext (s : State) : State :=
  match s.blf.fetch with
  | none => s
  | some f =>
    if 4 ≤ f.outstanding.length ∨ f.goal ≤ f.requested ∨ s.spireOn = false ∨ s.mgmtRoom .mgt = false then s
    else
      (s.setFetch (some { f with
        requested := f.requested + 4096, outstanding := f.outstanding ++ [(f.requested, s.now)], started := some (f.started.getD s.now) })).enterAt .mgmt
        (s.fetchPacket f f.requested)

/-- Training of every edge has ended (R415). -/
def State.trained (s : State) : Bool := s.edges.toList.all fun x => x.state == stActive || x.state == stDown || x.state == stOff

/-- The calibration step of a cold start is over: Bronze checks the working copy, and a missing one fails too (R358, R418, R419). -/
def State.judgeCal (s : State) : State := s.modBrz fun b => { b with calInvalid := !calCrcOk s.blf.cal }

/-- The image has arrived over the fabric or JTAG: the calibration record is fetched next, except at a die warm reset (its copy is kept) and
with BOOT_JTAG. -/
def State.imageHere (s : State) : State :=
  if s.blf.warm then s.modBlf fun b => { b with stage := 3, fetch := none }
  else if s.bootJtag then s.judgeCal.modBlf fun b => { b with stage := 3, fetch := none }
  else s.modBlf fun b => { b with stage := 2, fetch := some (Fetch.begin .calibration) }

/-- The calibration fetch ends. -/
def State.calHere (s : State) : State := s.judgeCal.modBlf fun b => { b with stage := 3, fetch := none }

/-- IMAGE_FETCH: the ROM begins, once the edges have trained, and asks for the next piece. With BOOT_JTAG it waits for JTAG. -/
def State.imageFetch (s : State) : State :=
  if s.blf.stage = 1 ∧ s.trained then
    if s.blf.source then s.imageHere.fetchNext
    else if s.bootJtag then s.modBlf fun b => { b with stage := 6 }
    else s.beginFetch.fetchNext
  else if s.blf.stage = 2 then s.fetchNext else s

/-- A piece or the end of the object arrives. -/
def State.fetchTakes (s : State) (f : Fetch) (k : Packet) : State :=
  let f := if k.len = 0 then { f with size := some k.offset.toNat } else f.put k.offset.toNat k.payload
  let f := { f with outstanding := f.outstanding.filter fun x => !f.has x.1 (min (x.1 + 4096) f.goal) }
  let s := s.setFetch (some f)
  if f.has 0 f.goal = false then s
  else match f.object with
    | .image => (s.modBlf fun b => { b with image := f.bytes, source := false }).imageHere
    | .calibration => (s.modBlf fun b => { b with cal := f.bytes }).calHere

/-- IMAGE_FETCH_RESPONSE: the EVENT at the head of the MGMT port's queue. -/
def State.fetchResponse (s : State) : State :=
  match s.blf.fetch, s.spire.mgmtQ with
  | some f, k :: r => 
    if k.op ≠ 0x11 ∨ k.isNotice then s
    else
      let s := s.modSpire fun x => { x with mgmtQ := r }
      if k.poisoned then s.campPoison else s.fetchTakes f k
  | _, _ => s

/-- FETCH_RETRY: the oldest request has been unanswered for 10 ms. -/
def State.fetchRetry (s : State) : State :=
  match s.blf.fetch with
  | none => s
  | some f => match f.outstanding with
    | [] => s
    | x :: r =>
      if s.mgmtRoom .mgt = false then s else
      let s := s.advanceTo (x.2 + 1000000)
      (s.setFetch (some { f with outstanding := r ++ [(x.1, s.now)] })).enterAt .mgmt (s.fetchPacket f x.1)

/-- CALIBRATION_FETCH_END: no byte of the record within 100 ms of the first request. -/
def State.calEnds (s : State) : State :=
  match s.blf.fetch with
  | some f => match f.object, f.started with
    | .calibration, some t => if f.buf.any (·.isSome) then s else (s.advanceTo (t + 10000000)).calHere
    | _, _ => s
  | none => s

/-! ### Authentication (R420, R421) -/

/-- AUTHENTICATION. -/
def State.authenticate (s : State) : State :=
  let im := s.blf.image
  if s.blf.stage ≠ 3 then s
  else if s.blf.accepts im then s.modBlf fun b => { b.run im with wdogFed := s.now }
  else
    let s := s.logTo true { cls := .contained, code := 0x702, block := 0x19, inst := 0, pkey := none, detail := wordAt im 8, address := 0 }
    s.modBlf fun b => { b with
      authFail := true, accepted := false, stage := if s.bootJtag then 6 else 2, retryAt := s.now + 100000000, image := [], source := false }

/-- AUTH_RETRY: 1 s after the rejection the ROM fetches again. -/
def State.authRetry (s : State) : State :=
  if s.blf.stage = 2 ∧ s.blf.fetch = none ∧ s.blf.retryAt ≠ 0 then (s.advanceTo s.blf.retryAt).beginFetch else s

/-! ### The package configuration record (R422) -/

/-- The record inside the running image (Table BOT-3). -/
def Belfry.config (b : Belfry) : List Byte := part (imageBody b.image) (wordAt b.image 208) (wordAt b.image 212)

/-- The record's magic and serial match. -/
def Belfry.configOk (b : Belfry) : Bool := wordAt b.config 0 == 0x43474B50 && wordAt b.config 4 == (b.shadow[4]).toNat

/-- A write of Campanile to a register, which may not exist. -/
def State.campSets (s : State) (a v : Nat) : State := (s.regWrite a (BitVec.ofNat 32 v)).getD s

/-- The record is applied. -/
def State.applyConfig (s : State) : State :=
  let c := s.blf.config
  let o := 0x40 + 8 * s.dieId.toNat
  let s := s.modPort .A fun q => { q with bind := BitVec.ofNat 9 (half c o) }
  let s := s.modPort .B fun q => { q with bind := BitVec.ofNat 9 (half c (o + 2)) }
  let s := (s.campSets 0x0300030000 (wordAt c 12)).campSets 0x0200000030 (wordAt c 16)
  let s := { s with edges := Vector.ofFn fun e : Fin 4 =>
    let x := s.edges[e]
    { x with targetRate := BitVec.ofNat 2 (wordAt c (o + 4) / 4 ^ e.val) } }
  let s := s.modBlf fun b => { b with root := leNat (part c 8 1) == s.dieId.toNat }
  s.modSpire fun p => { p with bootMode := false }

/-- A reset port whose READY event is still to come (R382). -/
def PortState.owesReady (q : PortState) : Bool :=
  q.resetting && q.executing.isNone && !(q.waiting.any fun w => w.event && slotBytes w.bits 4 2 == 1)

/-- READY to both ports, and of reason 3 to a port reset meanwhile; Onaune takes commands from now on. -/
def State.ready (s : State) (reason : Nat) : State :=
  let s := [CtlPort.A, CtlPort.B].foldl (fun s p => if (s.port p).owesReady then s.sendReady p else s) s
  let s := s.modBlf fun b => { b with
    stage := 5, readyTime := BitVec.ofNat 32 b.time.toNat, wdogFed := s.now, warm := false, activation := false }
  s.postBoth 1 (leBytes reason 4 ++ leBytes s.blf.fwVer.toNat 4)

/-- At a cold start the outcome of the calibration check is told (Table ONA-13). -/
def State.tellCal (s : State) : State := if s.blf.warm then s else s.calEvent

/-- CONFIG_APPLY. -/
def State.configApply (s : State) : State :=
  if s.blf.stage ≠ 4 ∨ s.blf.cfgBad then s
  else if s.blf.activation then s.ready 2
  else if s.blf.configOk = false then
    s.modBlf fun b => { b with cfgBad := true, ports := vmap (fun q : PortState => { q with bind := q.bind &&& 0xFF }) b.ports }
  else s.applyConfig.tellCal.ready (b2n s.blf.warm)

/-! ### Die warm reset (R423, R425, R426, R378, R295) -/

/-- A port at die warm reset: rings and binding stay; the command that was executing is gone. -/
def State.warmPort (s : State) (p : CtlPort) (thaw : Bool) : State :=
  s.modPort p fun q => { q with executing := none, phase := .idle, progress := 0, frozen := q.frozen && !thaw, evtLost := 0 }

/-- A core at die warm reset: its units are reset, SHORT is cleared, and an assigned core is in C0. -/
def State.warmCore (s : State) (c : CoreId) : State :=
  if (s.core c).present = false then s
  else
    let s := s.coreResetOne c
    let s := if (s.core c).owner.isSome ∧ (s.core c).cstate = .c4 then s.zeroArrays c else s
    s.modCore c fun k => { k with short := false, waking := false, rampAt := none, pll := k.owner.isSome, cstate := if k.owner.isSome then .c0 else .c4 }

/-- The registers of Table SCO-4's codes RW and RC that no rule keeps: scrubber controls, ECC counters, Bronze's event counters. -/
def State.warmRegs (s : State) : State :=
  let s := s.modBlf fun b => { b with
    scrubEn := 0xFFFFFF, scrubPeriod := Vector.ofFn fun u : Fin 24 => if u.val < 16 then 1000 else 4000, eccCorr := Vector.replicate 24 0
    eccUncorr := Vector.replicate 24 0, waitDefault := 0x01000000, mgtReject := 0 }
  s.modBrz fun b => { b with alertCount := 0, droopCount := 0, peakCount := 0 }

/-- Die warm reset; `thaw` when the sideband asked for it (R381). -/
def State.warmReset (s : State) (thaw : Bool) : State :=
  let s := s.forCores State.warmCore
  let s := ((s.warmPort .A thaw).warmPort .B thaw).warmRegs
  let s := s.modBlf fun b => { b with
    stage := 3, fetch := none, retryAt := 0, warm := true, activation := false, cfgBad := false, campWork := [], campOut := [], storeAsk := none
    clears := b.clears.map fun x => { x with port := none } }
  { s with d2Pending := false }.decideVolt

/-- WATCHDOG: Onaune, which runs from stage 4 on and in D2 too (Table DIE-9), has not refreshed BLF_WDOG for TIMEOUT ms. -/
def State.watchdog (s : State) : State :=
  if s.blf.stage ≠ 4 ∧ s.blf.stage ≠ 5 then s
  else
    let s := s.advanceTo (s.blf.wdogFed + s.blf.wdogTimeout.toNat * 100000)
    (s.modBlf fun b => { b with wdogExpired := if b.wdogExpired = 0xFFFF then 0xFFFF else b.wdogExpired + 1 }).warmReset false

/-- TARGET_RESET: RSTACT 0x01 and a Target Reset pattern; performed only with both ports frozen, and not in D2 (R385, R425). -/
def State.targetReset (s : State) (defining : Byte) : State :=
  if defining ≠ 1 then s
  else if (s.port .A).frozen ∧ (s.port .B).frozen ∧ s.dstate = .up then s.warmReset true
  else s.postBoth 9 (leBytes 2 1)

/-! ### The meanings -/

/-- PORST_N_ASSERT (R424): it acts in every state. -/
def execPorstAssert (s : State) : Out := .next s.coldReset
/-- PORST_N_RELEASE (R415). -/
def execPorstRelease (aged : List Nat) (s : State) : Out := .next (if s.porst then s.coldStart aged else s)
/-- IMAGE_FETCH (R418). -/
def execImageFetch (s : State) : Out := ev s State.imageFetch
/-- IMAGE_FETCH_RESPONSE (R418). -/
def execImageFetchResponse (s : State) : Out := ev s State.fetchResponse
/-- FETCH_RETRY (R418). -/
def execFetchRetry (s : State) : Out := ev s State.fetchRetry
/-- CALIBRATION_FETCH_END (R418). -/
def execCalibrationFetchEnd (s : State) : Out := ev s State.calEnds
/-- AUTHENTICATION (R420). -/
def execAuthentication (s : State) : Out := ev s State.authenticate
/-- AUTH_RETRY (R421). -/
def execAuthRetry (s : State) : Out := ev s State.authRetry
/-- CONFIG_APPLY (R422). -/
def execConfigApply (s : State) : Out := ev s State.configApply
/-- WATCHDOG (R425). -/
def execWatchdog (s : State) : Out := ev s State.watchdog
/-- TARGET_RESET (R385). -/
def execTargetReset (defining : Byte) (s : State) : Out := ev s fun s => s.targetReset defining

end Sys2Proof.Machine
end

