-- ==== Sys2Proof/Machine/Sideband.lean ====
section
/-! DEFINITION. The I3C sideband (R383 to R385): the index map of Table ONA-14, the emergency commands and the Provisioned ID; and the
watch on FUSE_VPP (R435). -/

namespace Sys2Proof.Machine

/-- The first 56 bytes of the index map (Table ONA-14). -/
def State.sideImage (s : State) : List Byte :=
  let f := fun i : Fin 256 => (s.blf.shadow[i]).toNat
  let code := if s.blf.newest = 0xFFFFFFFF then 0 else ((s.blf.logRing[logSlot s.blf.newest]).code).toNat
  leBytes (s.dieId.toNat + 256 * (s.siteX + 8 * s.siteY) + 65536 * s.role + 0xB0000000) 4 ++ leBytes (f 4) 4
    ++ (s.bronze.telemetry ++ List.replicate (32 - s.bronze.telemetry.length) 0) ++ leBytes (s.peek 0x0300040000) 4
    ++ leBytes (s.port .A).status 2 ++ leBytes (s.port .B).status 2 ++ leBytes (code + 65536 * s.blf.fatalHeld) 4 ++ leBytes (s.peek 0x0300040024) 4

/-- The byte at an index: the map, 0 at the two written bytes, and open elsewhere. -/
def State.sideByte (s : State) (i : Nat) : Byte :=
  match s.sideImage[i]? with
  | some b => b
  | none => if i = 0x40 ∨ i = 0x41 then 0 else Config.freeByte s.free i

/-- THROTTLE_ALL: an alert assertion followed at once by its deassertion, and a SIDEBAND event (R345, R384). -/
def State.sideThrottle (s : State) : State := s.throttleAll.postBoth 9 (leBytes 0 1)

/-- HALT_ALL: every unit of every present core is frozen, and a SIDEBAND event follows (R384). -/
def State.sideHalt (s : State) : State := (s.haltAll .command).postBoth 9 (leBytes 1 1)

/-- I3C_PRIVATE_WRITE: the first byte is the index; a byte and its complement at index 0x40 are an emergency command. -/
def State.i3cWrite (s : State) (bytes : List Byte) : State :=
  match bytes with
  | [] => s
  | i :: r =>
    let s := s.modBlf fun b => { b with i3cIndex := i }
    if i ≠ 0x40 then s
    else if r = [0xA1, 0x5E] then s.sideThrottle
    else if r = [0xA2, 0x5D] then s.sideHalt else s

/-- I3C_PRIVATE_READ: `n` bytes from the index on. -/
def State.i3cRead (s : State) (n : Nat) : State :=
  let i := s.blf.i3cIndex.toNat
  (s.modBlf fun b => { b with
    i3cOut := (List.range n).map fun j => s.sideByte ((i + j) % 256), i3cIndex := BitVec.ofNat 8 (i + n) }).takeFree

/-- The 48-bit Provisioned ID: DIE_ID in bits [5:0], serial bits [25:0] in [31:6], and the manufacturer's field, which the manual does not
give, above. -/
def State.provisionedId (s : State) : Nat :=
  s.dieId.toNat + 64 * ((s.blf.shadow[4]).toNat % 2 ^ 26) + 2 ^ 32 * ((Config.freeByte s.free 0x100).toNat + 256 * (Config.freeByte s.free 0x101).toNat)

/-- ENTDAA: the target sends its Provisioned ID, most significant byte first, and takes the address. -/
def State.takesAddress (s : State) (da : BitVec 7) : State :=
  (s.modBlf fun b => { b with i3cAddr := da, i3cOut := (leBytes s.provisionedId 6).reverse }).takeFree

/-- FUSE_VPP above 0.3 V while no fuse is programmed: 0x701 at most once per 1 s. -/
def State.vppFound (s : State) (mv : Nat) : State :=
  if mv ≤ 300 then s
  else s.logLimited 100000000 false { cls := .contained, code := 0x701, block := 0x1B, inst := 0, pkey := none, detail := 0, address := 0 }

/-- I3C_PRIVATE_WRITE (R383). -/
def execI3cPrivateWrite (bytes : List Byte) (s : State) : Out := ev s fun s => s.i3cWrite bytes
/-- I3C_PRIVATE_READ (R383). -/
def execI3cPrivateRead (n : Nat) (s : State) : Out := ev s fun s => s.i3cRead n
/-- ENTDAA (R383). -/
def execEntdaa (da : BitVec 7) (s : State) : Out := ev s fun s => s.takesAddress da
/-- THROTTLE_ALL (R384). -/
def execThrottleAll (s : State) : Out := ev s State.sideThrottle
/-- HALT_ALL (R384). -/
def execHaltAll (s : State) : Out := ev s State.sideHalt
/-- FUSE_VPP_VIOLATION (R435). -/
def execFuseVppViolation (mv : Nat) (s : State) : Out := ev s fun s => s.vppFound mv

end Sys2Proof.Machine
end

