-- ==== Sys2Proof/Machine/TestAccess.lean ====
section
/-! DEFINITION. Test access (16): the TAP (R439 to R441) and the instruments of Table PHY-9 (R442, R443). The TAP works without regard
to PORST_N (R433). -/

namespace Sys2Proof.Machine

/-- A TAP command's effect: it needs VDD_AON only, which D3 takes away (Table DIE-9, R433, R439). -/
def evTap (s : State) (f : State → State) : Out := .next (if s.dstate = .d3 then s else f s)

/-! ### The TAP -/

/-- What the instruction register captures. -/
def tapCapture : Byte := 0x01

/-- IDCODE (R441): version, part number, manufacturer code, 1. -/
def idcodeValue : Word := BitVec.ofNat 32 (0x1 * 2 ^ 28 + 0xA4C1 * 2 ^ 12 + 0x2D9 * 2 + 1)

/-- An instruction code of Table PHY-8. -/
def tapListed (code : Byte) : Bool := code == 0 || code == 1 || code == 2 || code == 3 || code == 4 || code == 0x10 || code == 0xFF

/-- An instruction is selected; HIGHZ alone keeps the outputs at high impedance. -/
def State.setIr (s : State) (code : Byte) : State := { s with tap := { s.tap with ir := code, highz := code == 4 } }

/-- An instruction is shifted in; what the register captured is shifted out (R440). -/
def State.scanIr (s : State) (code : Byte) : State :=
  let s := s.setIr code
  { s with tap := { s.tap with irOut := tapCapture } }

/-- What the selected data register captured is shifted out: `n` bits. The IEEE 1687 network's length is not given. -/
def State.scanDr (s : State) (n v : Nat) : State := { s with tap := { s.tap with drOut := (n, v) } }

/-- A scan through the bypass register, which captures 0 (PRESUMED from IEEE 1149.1, log entry 135). -/
def State.scanBypass (s : State) (code : Byte) : State := (s.scanIr code).scanDr 1 0

/-- The die enters the fenced state of R403: every unit is frozen, nothing leaves LOCAL, and the edges go OFF after 100 µs. -/
def State.tapFence (s : State) : State :=
  if s.powered = false ∨ s.fatal then s
  else { (s.forCores fun s c => if (s.core c).here then s.freezeMask c 0x7F .fatal else s) with fatal := true, fatalAt := s.now }

/-! ### Instruments -/

/-- The number of an instrument's fields in the TAP: the 89 memories, 80 loop-backs, 80 margining units, the fuse programmer and the image
loader. -/
def bistKey : BistTarget → Nat
  | .cupola c => c.val
  | .lantern c e => 16 + 4 * c.val + e.val
  | .dome i => 80 + i.val
  | .campanile => 88
/-- Module loop-back. -/
def loopKey (e : EdgeId) (m : Fin 20) : Nat := 100 + 20 * e.val + m.val
/-- Lane margining. -/
def marginKey (e : EdgeId) (m : Fin 20) : Nat := 200 + 20 * e.val + m.val
/-- The fuse programmer. -/
def fuseKey : Nat := 300
/-- The image loader. -/
def loaderKey : Nat := 301

/-- The fields of an instrument, in order of its number. -/
def putInstr (key : Nat) (st : BitVec 2) (res : List Nat) : List (Nat × BitVec 2 × List Nat) → List (Nat × BitVec 2 × List Nat)
  | [] => [(key, st, res)]
  | x :: r => if key < x.1 then (key, st, res) :: x :: r else if key = x.1 then (key, st, res) :: r else x :: putInstr key st res r

/-- An instrument reports a status (0 idle, 1 running, 2 done, 3 refused) and its result fields. -/
def State.report (s : State) (key : Nat) (st : BitVec 2) (res : List Nat) : State :=
  { s with tap := { s.tap with instruments := putInstr key st res s.tap.instruments } }

/-- An instrument's status; idle when it has not been used. -/
def Tap.status (t : Tap) (key : Nat) : BitVec 2 :=
  match t.instruments.find? fun x => x.1 == key with
  | some x => x.2.1
  | none => 0

/-! ### Memory BIST -/

/-- A BIST of one of a core's arrays is running. -/
def Tap.holdsCore (t : Tap) (c : CoreId) : Bool :=
  t.status (bistKey (.cupola c)) == 1 || (List.finRange 4).any fun e => t.status (bistKey (.lantern c e)) == 1

/-- The target may be marched: a core or slice of no partition, Campanile only in stage 6 or 7. -/
def State.bistAllowed (s : State) : BistTarget → Bool
  | .cupola c | .lantern c _ => (s.core c).here && (s.core c).owner.isNone && !(s.core c).clearing && ((s.core c).cstate == .c4 || (s.core c).bist)
  | .dome i => (s.blf.sliceOwner[i]).isNone && !bitOf s.blf.slicesClearing.toNat i.val
  | .campanile => s.blf.stage == 6 || s.blf.stage == 7

/-- The BIST's resource is held. PORST_N ends a hold, not the status the TAP shows (R433). -/
def State.bistHeld (s : State) : BistTarget → Bool
  | .cupola c | .lantern c _ => (s.core c).bist
  | .dome i => bitOf s.blf.sliceBist.toNat i.val
  | .campanile => s.blf.campBist

/-- A core is powered for its test (R331). -/
def State.bistCore (s : State) (c : CoreId) : State :=
  let s := s.modCore c fun k => { k with bist := true }
  if (s.core c).cstate = .c4 ∧ (s.core c).waking = false then s.askWake c else s

/-- A core's test is over; with no other of its arrays under test it returns to C4 (R330). -/
def State.bistOver (s : State) (c : CoreId) : State :=
  if s.tap.holdsCore c then s
  else (s.modCore c fun k => { k with bist := false, cstate := .c4, waking := false, rampAt := none, pll := false }).decideVolt

/-- The BIST holds its resource, or lets go of it. -/
def State.hold (s : State) (t : BistTarget) (on : Bool) : State :=
  match t with
  | .cupola c | .lantern c _ => if on then s.bistCore c else s.bistOver c
  | .dome i => s.modBlf fun b => { b with sliceBist := putBit b.sliceBist i.val on }
  | .campanile => s.modBlf fun b => { b with campBist := on }

/-- The array is left zeroed. -/
def State.marched (s : State) : BistTarget → State
  | .cupola c => s.setMem (s.mem.clear (coreBase c) 0x600000)
  | .lantern c e => s.setMem (s.mem.clear (lanternBase c e) 0x40000)
  | .dome i => s.setMem (s.mem.clear (i.val * 0x800000) 0x800000)
  | .campanile => s.modBlf fun b => { b with image := [], staged := [], source := false }

/-- The moment of a march: a core is powered once its gate ramp is over (R326). -/
def State.bistPower (s : State) : BistTarget → State
  | .cupola c | .lantern c _ => s.rampPasses c 200
  | _ => s

/-- MEMORY_BIST: a start under its condition, and the end of a march with its result: pass or fail, the first failing bank and row, the
failure count. A march whose hold PORST_N has ended does nothing (R444). -/
def State.memoryBist (s : State) (t : BistTarget) : BistPhase → State
  | .start =>
    if s.tap.status (bistKey t) = 1 then s
    else if s.powered && s.spireOn && s.bistAllowed t then (s.report (bistKey t) 1 []).hold t true
    else s.report (bistKey t) 3 []
  | .finish n bank row =>
    if s.tap.status (bistKey t) ≠ 1 then s
    else if s.bistHeld t = false then s.report (bistKey t) 3 []
    else (((s.bistPower t).report (bistKey t) 2 [b2n (n != 0), bank, row, n]).marched t).hold t false

/-! ### Modules, fuses, images -/

/-- The module is not active: switched off, or its edge OFF or DOWN. -/
def Edge.idleModule (x : Edge) (m : Fin 20) : Bool :=
  x.state == stOff || x.state == stDown || bitOf (x.offRetry ||| x.offCmd ||| x.offTrain).toNat m.val
    || (x.linked && !bitOf x.on.toNat m.val)

/-- A module is held by margining (`margin`) or by loop-back, or let go (R443). -/
def Edge.holdModule (margin : Bool) (m : Fin 20) (on : Bool) (x : Edge) : Edge :=
  if margin then { x with heldM := putBit x.heldM m.val on } else { x with held := putBit x.held m.val on }

/-- A module instrument reports its result and holds the module or lets go of it (R443). Its condition is met when it starts; a test that holds the
module ends as it is. -/
def State.moduleTest (s : State) (e : EdgeId) (m : Fin 20) (margin : Bool) (res : List Nat) (hold : Bool) : State :=
  let x := s.edges[e]
  let key := if margin then marginKey e m else loopKey e m
  let mine := bitOf (if margin then x.heldM else x.held).toNat m.val
  if s.powered && (x.idleModule m || (mine && !hold)) then
    (s.modEdge e (Edge.holdModule margin m hold)).report key (if hold then 1 else 2) res
  else s.report key 3 []

/-- Set fuse bits: no bit returns to 0; the shadow keeps its values until the next cold reset. -/
def setFuses (v : Vector Word 256) (bits : List (Fin 8192)) : Vector Word 256 :=
  bits.foldl (fun v i => upd v (Fin.ofNat 256 (i.val / 32)) fun w => putBit w (i.val % 32) true) v

/-- FUSE_PROGRAMMER: FUSE_VPP must lie within its programming range (Table PHY-4). -/
def State.program (s : State) (mv : Nat) (bits : List (Fin 8192)) : State :=
  if between 1710 mv 1890 then (s.modBlf fun b => { b with fuses := setFuses b.fuses bits }).report fuseKey 2 []
  else s.report fuseKey 3 []

/-- An object loaded over JTAG takes the place of a fetched one; an image in stage 6 is authenticated next (R419). -/
def State.loaded (s : State) (o : FetchObject) (bytes : List Byte) : State :=
  match o with
  | .calibration =>
    let s := (s.modBlf fun b => { b with cal := bytes.take 4096 }).judgeCal
    if (s.blf.fetch.map (·.object)) = some .calibration then s.calHere else s
  | .image =>
    let s := s.modBlf fun b => { b with image := bytes.take 0x60000, source := true }
    if s.blf.stage = 6 ∨ (s.blf.stage = 2 ∧ (s.blf.fetch.map (·.object)) ≠ some .calibration) then s.imageHere else s

/-- IMAGE_LOADER: before an image has been accepted. -/
def State.loadImage (s : State) (o : FetchObject) (bytes : List Byte) : State :=
  if s.powered && !s.blf.accepted then (s.loaded o bytes).report loaderKey 2 [] else s.report loaderKey 3 []

/-! ### The meanings -/

/-- TAP_RESET (R433): IDCODE is selected. -/
def execTapReset (s : State) : Out := evTap s fun s => s.setIr 0x02
/-- EXTEST (R440): the cells drive what was preloaded, and a scan captures the pins. -/
def execExtest (s : State) : Out := evTap s fun s => ((s.scanIr 0x00).tapFence.scanDr 336 (Config.pinLevels s.free).toNat).takeFree
/-- SAMPLE/PRELOAD (R440): the pins are captured, and the cells take what is shifted in. -/
def execSamplePreload (scan : BoundaryScan) (s : State) : Out := evTap s fun s =>
  let s := (s.scanIr 0x01).scanDr 336 scan.pins.toNat
  { s with tap := { s.tap with bsr := scan.cells } }
/-- IDCODE (R441): the register's value is shifted out. -/
def execIdcode (s : State) : Out := evTap s fun s =>
  { (s.scanIr 0x02).scanDr 32 idcodeValue.toNat with readBack := { value := idcodeValue, poisoned := false } }
/-- CLAMP (R440). -/
def execClamp (s : State) : Out := evTap s fun s => (s.scanBypass 0x03).tapFence
/-- HIGHZ (R440). -/
def execHighz (s : State) : Out := evTap s fun s => (s.scanBypass 0x04).tapFence
/-- IJTAG (R442): the IEEE 1687 network is selected; its instruments have their own rows (R444). -/
def execIjtag (s : State) : Out := evTap s fun s => s.scanIr 0x10
/-- BYPASS (R440): 0xFF, or any code not listed. -/
def execBypass (code : Byte) (s : State) : Out := evTap s fun s => s.scanBypass (if tapListed code then 0xFF else code)
/-- MEMORY_BIST (R442). -/
def execMemoryBist (t : BistTarget) (ph : BistPhase) (s : State) : Out := evTap s fun s => s.memoryBist t ph
/-- MODULE_LOOP_BACK (R442). -/
def execModuleLoopBack (e : EdgeId) (m : Fin 20) (test : LoopBack) (hold : Bool) (s : State) : Out := evTap s fun s =>
  s.moduleTest e m false [test.rate.val, test.failing.toNat] hold
/-- LANE_MARGINING (R442). -/
def execLaneMargining (e : EdgeId) (m : Fin 20) (eyes : List (BitVec 16)) (hold : Bool) (s : State) : Out := evTap s fun s =>
  s.moduleTest e m true (eyes.map (·.toNat)) hold
/-- FUSE_PROGRAMMER (R442). -/
def execFuseProgrammer (vppMv : Nat) (bits : List (Fin 8192)) (s : State) : Out := evTap s fun s => s.program vppMv bits
/-- IMAGE_LOADER (R419). -/
def execImageLoader (obj : FetchObject) (bytes : List Byte) (s : State) : Out := evTap s fun s => s.loadImage obj bytes

end Sys2Proof.Machine
end

