-- ==== Sys2Proof/Machine/Dispatch.lean ====
section
/-! DEFINITION. One arm per command; each calls the meaning of that command. -/

namespace Sys2Proof.Machine

/-- The effect of a command on everything but the queue. -/
def exec (i : Instr) (s : State) : Host.Outcome State Fault Refusal :=
  match i with
  | .loadb c => Sys2Proof.Machine.execLoadb c s
  | .loadbStaging c e => Sys2Proof.Machine.execLoadbStaging c e s
  | .tileInstall c e => Sys2Proof.Machine.execTileInstall c e s
  | .stream c => Sys2Proof.Machine.execStream c s
  | .stepEntry c e => Sys2Proof.Machine.execStepEntry c e s
  | .stepReplay c e => Sys2Proof.Machine.execStepReplay c e s
  | .promotion c e => Sys2Proof.Machine.execPromotion c e s
  | .openZero c a => Sys2Proof.Machine.execOpenZero c a s
  | .openCupola c a => Sys2Proof.Machine.execOpenCupola c a s
  | .openGroup c a => Sys2Proof.Machine.execOpenGroup c a s
  | .openChain c a => Sys2Proof.Machine.execOpenChain c a s
  | .close c a => Sys2Proof.Machine.execClose c a s
  | .closeChain c a => Sys2Proof.Machine.execCloseChain c a s
  | .save c a => Sys2Proof.Machine.execSave c a s
  | .status c a => Sys2Proof.Machine.execStatus c a s
  | .vec c a => Sys2Proof.Machine.execVec c a s
  | .move c a => Sys2Proof.Machine.execMove c a s
  | .gather c a => Sys2Proof.Machine.execGather c a s
  | .scatter c a => Sys2Proof.Machine.execScatter c a s
  | .remoteWrite c a => Sys2Proof.Machine.execRemoteWrite c a s
  | .remoteRead c a => Sys2Proof.Machine.execRemoteRead c a s
  | .mcast c a => Sys2Proof.Machine.execMcast c a s
  | .compress c a => Sys2Proof.Machine.execCompress c a s
  | .wait c => Sys2Proof.Machine.execWait c s
  | .signal c a => Sys2Proof.Machine.execSignal c a s
  | .jump c => Sys2Proof.Machine.execJump c s
  | .repeatDesc c => Sys2Proof.Machine.execRepeatDesc c s
  | .phase c => Sys2Proof.Machine.execPhase c s
  | .fence c => Sys2Proof.Machine.execFence c s
  | .halt c => Sys2Proof.Machine.execHalt c s
  | .headerWaitMet c u => Sys2Proof.Machine.execHeaderWaitMet c u s
  | .descriptorRetire c u => Sys2Proof.Machine.execDescriptorRetire c u s
  | .prefetch c src => Sys2Proof.Machine.execPrefetch c src s
  | .nop c => Sys2Proof.Machine.execNop c s
  | .endProg c => Sys2Proof.Machine.execEndProg c s
  | .setvl c => Sys2Proof.Machine.execSetvl c s
  | .lil c => Sys2Proof.Machine.execLil c s
  | .lih c => Sys2Proof.Machine.execLih c s
  | .adda c => Sys2Proof.Machine.execAdda c s
  | .bnz c => Sys2Proof.Machine.execBnz c s
  | .splat c => Sys2Proof.Machine.execSplat c s
  | .ld c => Sys2Proof.Machine.execLd c s
  | .st c => Sys2Proof.Machine.execSt c s
  | .lds c => Sys2Proof.Machine.execLds c s
  | .sts c => Sys2Proof.Machine.execSts c s
  | .add c => Sys2Proof.Machine.execAdd c s
  | .sub c => Sys2Proof.Machine.execSub c s
  | .mul c => Sys2Proof.Machine.execMul c s
  | .fma c => Sys2Proof.Machine.execFma c s
  | .max c => Sys2Proof.Machine.execMax c s
  | .min c => Sys2Proof.Machine.execMin c s
  | .abs c => Sys2Proof.Machine.execAbs c s
  | .neg c => Sys2Proof.Machine.execNeg c s
  | .mov c => Sys2Proof.Machine.execMov c s
  | .cmpeq c => Sys2Proof.Machine.execCmpeq c s
  | .cmpne c => Sys2Proof.Machine.execCmpne c s
  | .cmplt c => Sys2Proof.Machine.execCmplt c s
  | .cmple c => Sys2Proof.Machine.execCmple c s
  | .sel c => Sys2Proof.Machine.execSel c s
  | .recip c => Sys2Proof.Machine.execRecip c s
  | .rsqrt c => Sys2Proof.Machine.execRsqrt c s
  | .exp2 c => Sys2Proof.Machine.execExp2 c s
  | .log2 c => Sys2Proof.Machine.execLog2 c s
  | .rsum c => Sys2Proof.Machine.execRsum c s
  | .rmax c => Sys2Proof.Machine.execRmax c s
  | .rmin c => Sys2Proof.Machine.execRmin c s
  | .accsq c => Sys2Proof.Machine.execAccsq c s
  | .welford c => Sys2Proof.Machine.execWelford c s
  | .merge c => Sys2Proof.Machine.execMerge c s
  | .rmerge c => Sys2Proof.Machine.execRmerge c s
  | .topk c => Sys2Proof.Machine.execTopk c s
  | .cvt c => Sys2Proof.Machine.execCvt c s
  | .cvtAmax c => Sys2Proof.Machine.execCvtAmax c s
  | .seqTailWrite m c v => Sys2Proof.Machine.execSeqTailWrite m c v s
  | .resume m c => Sys2Proof.Machine.execResume m c s
  | .seqRingConfigWrite m c reg v => Sys2Proof.Machine.execSeqRingConfigWrite m c reg v s
  | .vecSrSeedWrite m c v => Sys2Proof.Machine.execVecSrSeedWrite m c v s
  | .coreCntWrite m c n v => Sys2Proof.Machine.execCoreCntWrite m c n v s
  | .coreCntAdd m c n v => Sys2Proof.Machine.execCoreCntAdd m c n v s
  | .coreCntSub m c n v => Sys2Proof.Machine.execCoreCntSub m c n v s
  | .coreBellRing m c v => Sys2Proof.Machine.execCoreBellRing m c v s
  | .registerWrite m addr width v => Sys2Proof.Machine.execRegisterWrite m addr width v s
  | .rcRead m addr width => Sys2Proof.Machine.execRcRead m addr width s
  | .loReadCapture m addr width => Sys2Proof.Machine.execLoReadCapture m addr width s
  | .waitRetest c u => Sys2Proof.Machine.execWaitRetest c u s
  | .waitTimeout c u g => Sys2Proof.Machine.execWaitTimeout c u g s
  | .answerWaitTimeout c u tag => Sys2Proof.Machine.execAnswerWaitTimeout c u tag s
  | .accChainResend c e g b => Sys2Proof.Machine.execAccChainResend c e g b s
  | .packetInjection src => Sys2Proof.Machine.execPacketInjection src s
  | .routerHop port vc pkt => Sys2Proof.Machine.execRouterHop port vc pkt s
  | .write => Sys2Proof.Machine.execWrite s
  | .writeSignal => Sys2Proof.Machine.execWriteSignal s
  | .read => Sys2Proof.Machine.execRead s
  | .readRsp => Sys2Proof.Machine.execReadRsp s
  | .signalPacket => Sys2Proof.Machine.execSignalPacket s
  | .heldSignalPerform => Sys2Proof.Machine.execHeldSignalPerform s
  | .accChain => Sys2Proof.Machine.execAccChain s
  | .nack => Sys2Proof.Machine.execNack s
  | .fenceMark => Sys2Proof.Machine.execFenceMark s
  | .epochMark => Sys2Proof.Machine.execEpochMark s
  | .violationNotice => Sys2Proof.Machine.execViolationNotice s
  | .mgmt => Sys2Proof.Machine.execMgmt s
  | .blfPortCmdTailWrite p v => Sys2Proof.Machine.execBlfPortCmdTailWrite p v s
  | .blfPortRspHeadWrite p v => Sys2Proof.Machine.execBlfPortRspHeadWrite p v s
  | .semTake p n lease => Sys2Proof.Machine.execSemTake p n lease s
  | .semRenew p n lease => Sys2Proof.Machine.execSemRenew p n lease s
  | .semRelease p n => Sys2Proof.Machine.execSemRelease p n s
  | .semBreak p n lease => Sys2Proof.Machine.execSemBreak p n lease s
  | .semLeaseLapse n => Sys2Proof.Machine.execSemLeaseLapse n s
  | .portReset p => Sys2Proof.Machine.execPortReset p s
  | .commandTake p => Sys2Proof.Machine.execCommandTake p s
  | .responseWrite p => Sys2Proof.Machine.execResponseWrite p s
  | .getIdentity p => Sys2Proof.Machine.execGetIdentity p s
  | .getState p => Sys2Proof.Machine.execGetState p s
  | .getFuses p => Sys2Proof.Machine.execGetFuses p s
  | .subscribeTelemetry p => Sys2Proof.Machine.execSubscribeTelemetry p s
  | .createPartition p => Sys2Proof.Machine.execCreatePartition p s
  | .destroyPartition p => Sys2Proof.Machine.execDestroyPartition p s
  | .assignCores p => Sys2Proof.Machine.execAssignCores p s
  | .setPortKeys p => Sys2Proof.Machine.execSetPortKeys p s
  | .openWindow p => Sys2Proof.Machine.execOpenWindow p s
  | .closeWindow p => Sys2Proof.Machine.execCloseWindow p s
  | .listWindows p => Sys2Proof.Machine.execListWindows p s
  | .loadRouteTable p => Sys2Proof.Machine.execLoadRouteTable p s
  | .loadRankTable p => Sys2Proof.Machine.execLoadRankTable p s
  | .epochFlip p => Sys2Proof.Machine.execEpochFlip p s
  | .epochStatus p => Sys2Proof.Machine.execEpochStatus p s
  | .mcastGroup p => Sys2Proof.Machine.execMcastGroup p s
  | .linkStatus p => Sys2Proof.Machine.execLinkStatus p s
  | .linkRetrain p => Sys2Proof.Machine.execLinkRetrain p s
  | .moduleDisable p => Sys2Proof.Machine.execModuleDisable p s
  | .laneReport p => Sys2Proof.Machine.execLaneReport p s
  | .setCap p => Sys2Proof.Machine.execSetCap p s
  | .getCap p => Sys2Proof.Machine.execGetCap p s
  | .setRamp p => Sys2Proof.Machine.execSetRamp p s
  | .setBallast p => Sys2Proof.Machine.execSetBallast p s
  | .energyRead p => Sys2Proof.Machine.execEnergyRead p s
  | .jobBegin p => Sys2Proof.Machine.execJobBegin p s
  | .jobEnd p => Sys2Proof.Machine.execJobEnd p s
  | .phaseTable p => Sys2Proof.Machine.execPhaseTable p s
  | .corePower p => Sys2Proof.Machine.execCorePower p s
  | .coreReset p => Sys2Proof.Machine.execCoreReset p s
  | .coreFmax p => Sys2Proof.Machine.execCoreFmax p s
  | .errLogRead p => Sys2Proof.Machine.execErrLogRead p s
  | .errClear p => Sys2Proof.Machine.execErrClear p s
  | .freeze p => Sys2Proof.Machine.execFreeze p s
  | .unfreeze p => Sys2Proof.Machine.execUnfreeze p s
  | .fenceDie p => Sys2Proof.Machine.execFenceDie p s
  | .promoteSpare p => Sys2Proof.Machine.execPromoteSpare p s
  | .mirrorCfg p => Sys2Proof.Machine.execMirrorCfg p s
  | .waitGraph p => Sys2Proof.Machine.execWaitGraph p s
  | .calRead p => Sys2Proof.Machine.execCalRead p s
  | .calWrite p => Sys2Proof.Machine.execCalWrite p s
  | .fwStage p => Sys2Proof.Machine.execFwStage p s
  | .fwActivate p => Sys2Proof.Machine.execFwActivate p s
  | .scrubCfg p => Sys2Proof.Machine.execScrubCfg p s
  | .scrubStatus p => Sys2Proof.Machine.execScrubStatus p s
  | .tenantClear pkey => Sys2Proof.Machine.execTenantClear pkey s
  | .zeroingDone res => Sys2Proof.Machine.execZeroingDone res s
  | .scrubLine u strikes => Sys2Proof.Machine.execScrubLine u strikes s
  | .scrubPeriodEnd u => Sys2Proof.Machine.execScrubPeriodEnd u s
  | .sbDetect e => Sys2Proof.Machine.execSbDetect e s
  | .noPeer e => Sys2Proof.Machine.execNoPeer e s
  | .sbExchange e peers => Sys2Proof.Machine.execSbExchange e peers s
  | .mbInit e tests => Sys2Proof.Machine.execMbInit e tests s
  | .mbTrain e eyes => Sys2Proof.Machine.execMbTrain e eyes s
  | .linkInit e => Sys2Proof.Machine.execLinkInit e s
  | .flit e flits => Sys2Proof.Machine.execFlit e flits s
  | .replayTimeout e => Sys2Proof.Machine.execReplayTimeout e s
  | .retryWindowEnd e m => Sys2Proof.Machine.execRetryWindowEnd e m s
  | .retrain e ok => Sys2Proof.Machine.execRetrain e ok s
  | .creditTimeout e vc => Sys2Proof.Machine.execCreditTimeout e vc s
  | .bellWake c => Sys2Proof.Machine.execBellWake c s
  | .coreWake c railOk => Sys2Proof.Machine.execCoreWake c railOk s
  | .idleTimeout c => Sys2Proof.Machine.execIdleTimeout c s
  | .d2Entry => Sys2Proof.Machine.execD2Entry s
  | .fastLoop pred choice => Sys2Proof.Machine.execFastLoop pred choice s
  | .frequencyStep c => Sys2Proof.Machine.execFrequencyStep c s
  | .intervalEnd demand => Sys2Proof.Machine.execIntervalEnd demand s
  | .vddEngSample mv ma => Sys2Proof.Machine.execVddEngSample mv ma s
  | .railCurrentSample mem io aon => Sys2Proof.Machine.execRailCurrentSample mem io aon s
  | .avsErr => Sys2Proof.Machine.execAvsErr s
  | .avsRetry ok => Sys2Proof.Machine.execAvsRetry ok s
  | .pwrAlertN => Sys2Proof.Machine.execPwrAlertN s
  | .alertHoldRelease => Sys2Proof.Machine.execAlertHoldRelease s
  | .droopTrip c d => Sys2Proof.Machine.execDroopTrip c d s
  | .thermalThrottle readings => Sys2Proof.Machine.execThermalThrottle readings s
  | .thermalTrip sensor temp => Sys2Proof.Machine.execThermalTrip sensor temp s
  | .fatalEdgeOff => Sys2Proof.Machine.execFatalEdgeOff s
  | .fmaxAgeing c => Sys2Proof.Machine.execFmaxAgeing c s
  | .timeSync e stamp roundTrip => Sys2Proof.Machine.execTimeSync e stamp roundTrip s
  | .timeSyncSend => Sys2Proof.Machine.execTimeSyncSend s
  | .unsync => Sys2Proof.Machine.execUnsync s
  | .watchdog => Sys2Proof.Machine.execWatchdog s
  | .porstAssert => Sys2Proof.Machine.execPorstAssert s
  | .porstRelease aged => Sys2Proof.Machine.execPorstRelease aged s
  | .imageFetch => Sys2Proof.Machine.execImageFetch s
  | .imageFetchResponse => Sys2Proof.Machine.execImageFetchResponse s
  | .fetchRetry => Sys2Proof.Machine.execFetchRetry s
  | .calibrationFetchEnd => Sys2Proof.Machine.execCalibrationFetchEnd s
  | .authentication => Sys2Proof.Machine.execAuthentication s
  | .authRetry => Sys2Proof.Machine.execAuthRetry s
  | .configApply => Sys2Proof.Machine.execConfigApply s
  | .i3cPrivateWrite bytes => Sys2Proof.Machine.execI3cPrivateWrite bytes s
  | .i3cPrivateRead n => Sys2Proof.Machine.execI3cPrivateRead n s
  | .entdaa da => Sys2Proof.Machine.execEntdaa da s
  | .throttleAll => Sys2Proof.Machine.execThrottleAll s
  | .haltAll => Sys2Proof.Machine.execHaltAll s
  | .targetReset defining => Sys2Proof.Machine.execTargetReset defining s
  | .fuseVppViolation mv => Sys2Proof.Machine.execFuseVppViolation mv s
  | .tapReset => Sys2Proof.Machine.execTapReset s
  | .extest => Sys2Proof.Machine.execExtest s
  | .samplePreload cells => Sys2Proof.Machine.execSamplePreload cells s
  | .idcode => Sys2Proof.Machine.execIdcode s
  | .clamp => Sys2Proof.Machine.execClamp s
  | .highz => Sys2Proof.Machine.execHighz s
  | .ijtag => Sys2Proof.Machine.execIjtag s
  | .bypass code => Sys2Proof.Machine.execBypass code s
  | .memoryBist t ph => Sys2Proof.Machine.execMemoryBist t ph s
  | .moduleLoopBack e m failing hold => Sys2Proof.Machine.execModuleLoopBack e m failing hold s
  | .laneMargining e m eyes hold => Sys2Proof.Machine.execLaneMargining e m eyes hold s
  | .fuseProgrammer vppMv bits => Sys2Proof.Machine.execFuseProgrammer vppMv bits s
  | .imageLoader obj bytes => Sys2Proof.Machine.execImageLoader obj bytes s
  | .pwrAlertDeassert => Sys2Proof.Machine.execPwrAlertDeassert s
  | .lossOfPower => Sys2Proof.Machine.execLossOfPower s
  | .stretchRelease c => Sys2Proof.Machine.execStretchRelease c s
  | .storeConfirm => Sys2Proof.Machine.execStoreConfirm s
  | .commandBoundExpiry p => Sys2Proof.Machine.execCommandBoundExpiry p s

end Sys2Proof.Machine
end

