-- ==== Sys2Proof/Safety.lean ====
section
/-! DEFINITION. What counts as a safe run in the terms the statements use: a step that answers a next state, and the
canonical form of the SRAM. -/

namespace Sys2Proof.Machine

/-- The outcome is a next state. -/
def completes (o : Out) : Prop := ∃ t, o = .next t

/-- The invariant of the block that every step keeps: the SRAM is in its canonical form. -/
def State.wf (s : State) : Prop := s.mem.wf = true

end Sys2Proof.Machine
end

