-- ==== Sys2Proof/Certificates/Slice0/Obligations.lean ====
section
/-! DEFINITION. The statements for the provers (def Obligations.<Name> : Prop) and the words they share: what leaves the rest of the
die as it was, what the units are ready for, and the trees and orders of the rules written a second time. -/

namespace Sys2Proof.Claims

open Sys2Proof.Machine

/-! ### Frames -/

/-- Every byte of the SRAM reads as before. -/
def SameBytes (s t : State) : Prop := ∀ a, t.mem.byteAt a = s.mem.byteAt a

/-- Every byte of the SRAM outside the `n` bytes from `a` reads as before. -/
def SameBytesBut (s t : State) (a n : Nat) : Prop := ∀ b, b < a ∨ a + n ≤ b → t.mem.byteAt b = s.mem.byteAt b

/-- Only the cores, the SRAM and the Belfry may differ. -/
def SameDie (s t : State) : Prop := t = { s with cores := t.cores, mem := t.mem, blf := t.blf }

/-- Every core but `c` is as before. -/
def SameCores (s t : State) (c : CoreId) : Prop := ∀ d, d ≠ c → t.core d = s.core d

/-- No core differs. -/
def AllCores (s t : State) : Prop := ∀ d, t.core d = s.core d

/-- No damaged word lies in the `n` bytes from `a`, so reading them changes nothing. -/
def Undamaged (s : State) (a n : Nat) : Prop := ∀ u ∈ s.mem.upsets, u.1 < a / 8 ∨ a / 8 + wordSpan a n ≤ u.1

/-- The record last written to the fault log. -/
def lastRecord (s : State) : FaultRec := s.blf.logRing[logSlot s.blf.newest]

/-- The first record of the fault log that `t` holds and `s` does not. -/
def nextRecord (s t : State) : FaultRec := t.blf.logRing[logSlot (s.blf.newest + 1)]

/-- The `n`-th such record. -/
def recordAt (s t : State) (n : Nat) : FaultRec := t.blf.logRing[logSlot (s.blf.newest + BitVec.ofNat 32 n)]

end Sys2Proof.Claims

/-! ## Number formats and rounding (03) -/

namespace Sys2Proof.Claims

open Sys2Proof.Machine

/-- The value of an exact magnitude without its sign. -/
def exactSize (x : Exact) : ℚ := x.m * (2 : ℚ) ^ x.e

/-- The rounding unit of a format for a magnitude: 2^(max(e, emin) − m) has this exponent. -/
def unitExp (f : Fmt) (x : Exact) : Int := max x.exp f.emin - f.mbits

/-- The decision of R79 for n + f units: `neg` is the sign of x, `r` the draw. -/
def roundsAway (mode : RMode) (neg : Bool) (r : Nat) (n : ℤ) (f : ℚ) : Prop :=
  match mode with
  | .rne => f > 1 / 2 ∨ (f = 1 / 2 ∧ n % 2 = 1)
  | .rtz => False
  | .ru => 0 < f ∧ neg = false
  | .rd => 0 < f ∧ neg = true
  | .sr => 65536 ≤ ⌊f * 65536⌋ + r

/-- The magnitude of a decoded number. -/
def magnitude : FVal → Option ℚ
  | .fin _ m e => some (m * (2 : ℚ) ^ e)
  | _ => none

/-- The magnitude of a format's largest finite value. -/
def largest (f : Fmt) : ℚ := f.maxSig * (2 : ℚ) ^ (f.emax - f.mbits)

/-- The bits of an encoding of format `f`. -/
def width (f : Fmt) : Nat := 1 + f.ebits + f.mbits

end Sys2Proof.Claims

open Sys2Proof Sys2Proof.Machine Sys2Proof.Claims

/-- R79: writing |x| = (n + f) × u, the result is n or n + 1 units as the mode decides, and it is inexact exactly when f is not 0. -/
def Obligations.RoundingFollowsTheModes : Prop :=
  ∀ (mode : RMode) (r : Nat) (x : Exact) (u : Int), x.sticky = false →
    ∀ (n : ℤ) (f : ℚ), exactSize x = (n + f) * (2 : ℚ) ^ u → 0 ≤ f → f < 1 →
      (((roundAt mode r x u).1 : ℤ) = n ∨ ((roundAt mode r x u).1 : ℤ) = n + 1)
      ∧ (((roundAt mode r x u).1 : ℤ) = n + 1 ↔ roundsAway mode x.neg r n f)
      ∧ ((roundAt mode r x u).2 = true ↔ f ≠ 0)

/-- R82, R84, R85: a nonzero exact value delivered in a format is an overflow of Table NUM-4 with OF and NX, a flushed tiny result with FLUSH, UF and
NX, or an encoding whose value is the multiple of the rounding unit that R79 gives, with NX when inexact and UF when also tiny. -/
def Sys2Proof.Claims.NarrowingDeliversTheRoundedValue : Prop :=
  ∀ (f : Fmt) (mode : RMode) (r : Nat) (sat subn : Bool) (x : Exact), x.sticky = false → x.m ≠ 0 →
    let u := unitExp f x
    let n := (roundAt mode r x u).1
    let out := roundTo f mode r sat subn x
    let whole := (roundAt mode r x (x.exp - f.mbits)).1
    let tiny := (whole : ℚ) * (2 : ℚ) ^ (x.exp - f.mbits) < (2 : ℚ) ^ f.emin
    out.1 < 2 ^ width f ∧ f.neg out.1 = x.neg
    ∧ (tiny → subn = false → f.mag out.1 = 0 ∧ out.2 = fFLUSH ||| fUF ||| fNX)
    ∧ (¬ (tiny ∧ subn = false) → largest f < (n : ℚ) * (2 : ℚ) ^ u → out.2 = fOF ||| fNX
        ∧ f.mag out.1 = if sat = true ∨ mode = .rtz ∨ (mode = .rd ∧ x.neg = false) ∨ (mode = .ru ∧ x.neg = true) then f.maxBits else f.infBits)
    ∧ (¬ (tiny ∧ subn = false) → (n : ℚ) * (2 : ℚ) ^ u ≤ largest f →
        magnitude (decodeF f out.1) = some ((n : ℚ) * (2 : ℚ) ^ u)
        ∧ (out.2.getLsbD 3 = true ↔ (roundAt mode r x u).2 = true)
        ∧ (out.2.getLsbD 2 = true ↔ tiny ∧ (roundAt mode r x u).2 = true)
        ∧ out.2.getLsbD 1 = false ∧ out.2.getLsbD 0 = false ∧ out.2.getLsbD 4 = false)

/-- R93: whatever the operands, no operation sets OF or UF without NX, and an invalid one gives the canonical NaN with NV and, of the rest, at
most FLUSH for a flushed input. -/
def Sys2Proof.Claims.OverflowAndUnderflowComeWithInexact : Prop :=
  ∀ (f : Fmt) (subn : Bool) (a b c : Nat),
    ∀ r ∈ [fAdd f subn a b, fSub f subn a b, fMul f subn a b, fFma f subn a b c, fSpecial .recip f subn a, fSpecial .rsqrt f subn a,
        fSpecial .exp2 f subn a, fSpecial .log2 f subn a],
      (r.2.getLsbD 1 = true → r.2.getLsbD 3 = true) ∧ (r.2.getLsbD 2 = true → r.2.getLsbD 3 = true)
      ∧ (r.2.getLsbD 0 = true → r.1 = f.nanBits ∧ r.2.getLsbD 1 = false ∧ r.2.getLsbD 2 = false ∧ r.2.getLsbD 3 = false)

/-- Narrowing delivers the rounded value with its flags, and overflow and underflow never come without inexact (R82, R84, R85, R93). -/
def Obligations.NarrowingAndItsFlagsFollowTheFormats : Prop := NarrowingDeliversTheRoundedValue ∧ OverflowAndUnderflowComeWithInexact

/-- R94: MAX and MIN are commutative; a NaN gives way to a number and two give the canonical NaN; of two numbers the greater, or the lesser, in the
order that places −0 below +0 is delivered; NV is set exactly for a signalling NaN; under SUBN = 0 each operand is flushed first. -/
def Obligations.MaxAndMinFollowTheirTable : Prop :=
  ∀ (up subn : Bool) (f : Fmt) (a b : Nat), f = .fp32 ∨ f = .fp16 → a < 2 ^ width f → b < 2 ^ width f →
    let x := (flushIn f subn a).1
    let y := (flushIn f subn b).1
    let out := fMaxMin up f subn a b
    out = fMaxMin up f subn b a
    ∧ ((decodeF f x).isNan = true → (decodeF f y).isNan = true → out.1 = f.nanBits)
    ∧ ((decodeF f x).isNan = false → (decodeF f y).isNan = true → out.1 = x)
    ∧ ((decodeF f x).isNan = false → (decodeF f y).isNan = false → (out.1 = x ∨ out.1 = y)
        ∧ (if up then orderKey f x ≤ orderKey f out.1 ∧ orderKey f y ≤ orderKey f out.1
            else orderKey f out.1 ≤ orderKey f x ∧ orderKey f out.1 ≤ orderKey f y))
    ∧ (out.2.getLsbD 0 = true ↔ (decodeF f x).isSig = true ∨ (decodeF f y).isSig = true)
    ∧ (out.2.getLsbD 4 = true ↔ subn = false ∧ (f.subnormal a = true ∨ f.subnormal b = true))

/-! ## The vector engine (07) -/

namespace Sys2Proof.Claims

open Sys2Proof.Machine

/-- The vector engine of core `c` is about to issue the instruction `i` at its program counter. -/
structure Issues (s : State) (c : CoreId) (i : VIns) : Prop where
  powered : s.powered = true
  live : (s.core c).live = true
  running : (s.core c).vec.running = true
  unfrozen : (s.core c).vec.q.freeze = none
  inside : (s.core c).vec.pc < cupolaEnd
  word : decodeIns (s.insWord c) = i

/-- … and Table VEC-4 does not refuse it for its fields or its register operands. -/
structure Runs (s : State) (c : CoreId) (i : VIns) : Prop extends Issues s c i where
  fields : i.fieldsBad = false
  operands : i.operandsBad = false

/-- An instruction has been issued and completed at the vector engine of core `c`: the rest of the die is as before, every byte of the SRAM reads as
before, and nothing is logged when no poison was consumed and the instruction's word was undamaged. -/
structure VecFrame (s t : State) (c : CoreId) (hot : Bool) : Prop where
  others : SameCores s t c
  units : t.core c = { s.core c with vec := (t.core c).vec }
  die : SameDie s t
  bytes : SameBytes s t
  quiet : Undamaged s (coreBase c + (s.core c).vec.pc) 8 → hot = false → t.mem = s.mem ∧ t.blf = s.blf

/-- The vector engine moved on by one instruction, with registers `v`, flags `fl` and random sources `sr`; only the marks that a descriptor has logged
poison may differ in its queue. -/
structure Moved (v v' : VecEngine) (hot : Bool) : Prop where
  rest : v' = { v with pc := v.pc + 8, lastPc := BitVec.ofNat 23 v.pc, instrCount := v.instrCount + 1, v := v'.v, flags := v'.flags, sr := v'.sr, q := v'.q }
  queue : v'.q = { v.q with active := v'.q.active }
  quiet : hot = false → v'.q = v.q

/-- Parts of `sz` bytes of register `r` after an instruction that writes part `j` by `g` where `on j` holds, the poison bit of a lane being that of the
parts written in it joined with its old one where a part is left (R194, R196). -/
def Written (sz : Nat) (r r' : VReg) (on : Nat → Bool) (g : Nat → Nat) (hot : Nat → Bool) : Prop :=
  (∀ j, j < 1024 / sz → r'.part sz j = if on j then g j else r.part sz j)
  ∧ ∀ k : Fin 256, r'.poison[k] = (List.range (4 / sz)).any fun p => if on (k.val * (4 / sz) + p) then hot (k.val * (4 / sz) + p) else r.poison[k]

/-- The flags of the parts below `n`, joined with the old ones, and POISON when a consumed part was poisoned. -/
def FlagsOf (old new : Flags) (n : Nat) (g : Nat → Flags) (hot : Bool) : Prop :=
  ∀ b, b < 8 → new.getLsbD b = (old.getLsbD b || ((List.range n).any fun j => (g j).getLsbD b) || (b == 6 && hot))

/-- Every vector register but those of `l` is as before. -/
def OtherRegs (v v' : VecEngine) (l : List Nat) : Prop := ∀ n, n < 32 → n ∉ l → v'.reg n = v.reg n

/-- A comparison's lane. -/
def cmpLane (k : Cmp) (f : Fmt) (u : Bool) (a b : Nat) : Nat × Flags :=
  let r := fCmp k f u a b
  (if r.1 then 2 ^ (8 * f.size) - 1 else 0, r.2)

/-- The lane-wise arithmetic rows: the command, its opcode, how many of va, vb and vc it reads, and one lane's result. -/
def arithRows (c : CoreId) : List (Instr × Nat × Nat × (Fmt → Bool → Nat → Nat → Nat → Nat × Flags)) :=
  [(.add c, 0x20, 2, fun f u x y _ => fAdd f u x y), (.sub c, 0x21, 2, fun f u x y _ => fSub f u x y), (.mul c, 0x22, 2, fun f u x y _ => fMul f u x y),
    (.fma c, 0x23, 3, fun f u x y z => fFma f u x y z), (.max c, 0x24, 2, fun f u x y _ => fMaxMin true f u x y),
    (.min c, 0x25, 2, fun f u x y _ => fMaxMin false f u x y), (.cmpeq c, 0x30, 2, fun f u x y _ => cmpLane .eq f u x y),
    (.cmpne c, 0x31, 2, fun f u x y _ => cmpLane .ne f u x y), (.cmplt c, 0x32, 2, fun f u x y _ => cmpLane .lt f u x y),
    (.cmple c, 0x33, 2, fun f u x y _ => cmpLane .le f u x y), (.recip c, 0x40, 1, fun f u x _ _ => fSpecial .recip f u x),
    (.rsqrt c, 0x41, 1, fun f u x _ _ => fSpecial .rsqrt f u x), (.exp2 c, 0x42, 1, fun f u x _ _ => fSpecial .exp2 f u x),
    (.log2 c, 0x43, 1, fun f u x _ _ => fSpecial .log2 f u x)]

/-- A lane of the first `k` sources is poisoned. -/
def srcsHot (v : VecEngine) (i : VIns) (k j : Nat) : Bool :=
  v.srcHot i i.va j || (decide (2 ≤ k) && v.srcHot i i.vb j) || (decide (3 ≤ k) && v.srcHot i i.vc j)

/-- The lane moves: the command, its opcode, and what a lane of vd becomes with its mark. -/
def moveRows (c : CoreId) : List (Instr × Nat × (VecEngine → VIns → Nat → Nat × Bool)) :=
  [(.splat c, 0x07, fun v i _ => (v.adr i.va % 2 ^ (8 * i.size), false)),
    (.abs c, 0x26, fun v i j => (v.src i i.va j % 2 ^ (8 * i.size - 1), v.srcHot i i.va j)),
    (.neg c, 0x27, fun v i j => ((v.src i i.va j + 2 ^ (8 * i.size - 1)) % 2 ^ (8 * i.size), v.srcHot i i.va j)),
    (.mov c, 0x28, fun v i j => (v.src i i.va j, v.srcHot i i.va j)),
    (.sel c, 0x34, fun v i j => if v.src i i.vc j ≠ 0 then (v.src i i.va j, v.srcHot i i.va j) else (v.src i i.vb j, v.srcHot i i.vb j))]

/-- The fixed pairwise tree of R204 over 2^k values, with the flags of every operation joined. -/
def pairTree {α : Type} (op : α → α → α × Flags) : Nat → (Nat → α) → α × Flags
  | 0, w => (w 0, 0)
  | k + 1, w =>
    let l := pairTree op k w
    let r := pairTree op k fun j => w (j + 2 ^ k)
    let x := op l.1 r.1
    (x.1, l.2 ||| r.2 ||| x.2)

/-- The reductions: the command, its opcode, the operation, its identity. -/
def reduceRows (c : CoreId) : List (Instr × Nat × (Fmt → Bool → Nat → Nat → Nat × Flags) × (Fmt → Nat)) :=
  [(.rsum c, 0x50, fAdd, fun f => if f = .fp32 then 0x80000000 else 0x8000),
    (.rmax c, 0x51, fMaxMin true, fun f => if f = .fp32 then 0x7FC00000 else 0x7E00),
    (.rmin c, 0x52, fMaxMin false, fun f => if f = .fp32 then 0x7FC00000 else 0x7E00)]

/-- Candidate `a` of a TOPK group ranks before candidate `b` (R95, R207): numbers in the order of Table NUM-9, every NaN and every inactive lane below
them, ties to the lower index. -/
def ranksBefore (v : VecEngine) (i : VIns) (base a b : Nat) : Bool :=
  let num := fun j => decide (base + j < v.active i.lanes) && !(decodeF i.fm (flushIn i.fm v.subnNow (v.src i i.va (base + j))).1).isNan
  let key := fun j => orderKey i.fm (flushIn i.fm v.subnNow (v.src i i.va (base + j))).1
  if num a then !num b || decide (key b < key a) || (decide (key a = key b) && decide (a < b))
  else !num b && decide (a < b)

end Sys2Proof.Claims

/-- NOP, END, SETVL, LIL, LIH, ADDA and BNZ complete with the effect of Table VEC-2: they write at most the vector length, one address register and the program
counter, END ends the program and completes its VEC descriptor. -/
def Sys2Proof.Claims.VectorControlInstructionsComplete : Prop :=
  ∀ (s : State) (c : CoreId) (i : VIns), Runs s c i →
    let v := (s.core c).vec
    let next : VecEngine := { v with pc := v.pc + 8, lastPc := BitVec.ofNat 23 v.pc, instrCount := v.instrCount + 1 }
    let completes := fun (m : Instr) (v' : VecEngine) => ∃ t, exec m s = .next t ∧ VecFrame s t c false ∧ (t.core c).vec = v'
    (i.op = 0x00 → completes (.nop c) next)
    ∧ (i.op = 0x01 → completes (.endProg c) { next with
        running := false
        q := { v.q with active := v.q.active.map fun a => if a.progress = .busy then { a with progress := .done } else a } })
    ∧ (i.op = 0x02 → completes (.setvl c) { next with vl := if v.adr i.va = 0 ∨ 512 ≤ v.adr i.va then 512 else BitVec.ofNat 10 (v.adr i.va) })
    ∧ (i.op = 0x03 → completes (.lil c) { next with
        a := upd v.a (Fin.ofNat 16 i.vd) fun _ => ((v.a[Fin.ofNat 16 i.vd] &&& 0xFFFF0000#32) ||| (BitVec.ofNat 32 i.imm &&& 0xFFFF#32)) })
    ∧ (i.op = 0x04 → completes (.lih c) { next with
        a := upd v.a (Fin.ofNat 16 i.vd) fun _ => ((v.a[Fin.ofNat 16 i.vd] &&& 0xFFFF#32) ||| (BitVec.ofNat 32 i.imm <<< 16)) })
    ∧ (i.op = 0x05 → completes (.adda c) { next with
        a := upd v.a (Fin.ofNat 16 i.vd) fun _ => (v.a[Fin.ofNat 16 i.va] + (BitVec.ofNat 28 i.imm).signExtend 32) })
    ∧ (i.op = 0x06 → v.a[Fin.ofNat 16 i.va] = 0 → completes (.bnz c) next)
    ∧ (i.op = 0x06 → v.a[Fin.ofNat 16 i.va] ≠ 0 → 0 ≤ (v.pc : Int) + 8 * (BitVec.ofNat 28 i.imm).toInt →
        (v.pc : Int) + 8 * (BitVec.ofNat 28 i.imm).toInt < 0x600000 →
        completes (.bnz c) { next with
          pc := ((v.pc : Int) + 8 * (BitVec.ofNat 28 i.imm).toInt).toNat
          a := upd v.a (Fin.ofNat 16 i.va) fun _ => (v.a[Fin.ofNat 16 i.va] - 1) })

/-- ADD, SUB, MUL, FMA, MAX, MIN, the comparisons and the special functions complete: every active lane of vd holds the operation's result with the poison of
the lanes it was computed from, inactive lanes and every other register stay, the flags gain those of the active lanes (R196, R203, R214). -/
def Sys2Proof.Claims.VectorLaneArithmeticCompletes : Prop :=
  ∀ (s : State) (c : CoreId) (i : VIns), Runs s c i → ∀ r ∈ arithRows c, i.op = r.2.1 →
    let v := (s.core c).vec
    let n := v.active i.lanes
    let g := fun j => r.2.2.2 i.fm v.subnNow (v.src i i.va j) (v.src i i.vb j) (v.src i i.vc j)
    let hot := (List.range n).any fun j => srcsHot v i r.2.2.1 j
    ∃ t, exec r.1 s = .next t ∧ VecFrame s t c hot ∧ Moved v (t.core c).vec hot ∧ (t.core c).vec.sr = v.sr
      ∧ Written i.size (v.reg i.vd) ((t.core c).vec.reg i.vd) (fun j => decide (j < n)) (fun j => (g j).1) (srcsHot v i r.2.2.1)
      ∧ OtherRegs v (t.core c).vec [i.vd]
      ∧ FlagsOf v.flags (t.core c).vec.flags n (fun j => (g j).2) hot

/-- SPLAT, ABS, NEG, MOV and SEL complete: active lanes take bits and mark of the lane moved, inactive lanes and other registers stay, and no flag
changes (R85, R196, R203). -/
def Sys2Proof.Claims.VectorMovesComplete : Prop :=
  ∀ (s : State) (c : CoreId) (i : VIns), Runs s c i → ∀ r ∈ moveRows c, i.op = r.2.1 →
    let v := (s.core c).vec
    ∃ t, exec r.1 s = .next t ∧ VecFrame s t c false ∧ Moved v (t.core c).vec false ∧ (t.core c).vec.sr = v.sr
      ∧ Written i.size (v.reg i.vd) ((t.core c).vec.reg i.vd) (fun j => decide (j < v.active i.lanes)) (fun j => (r.2.2 v i j).1) (fun j => (r.2.2 v i j).2)
      ∧ OtherRegs v (t.core c).vec [i.vd] ∧ (t.core c).vec.flags = v.flags

/-- The control rows, the lane arithmetic and the lane moves of the vector engine complete with the effect of Table VEC-2. -/
def Obligations.VectorLaneRowsComplete : Prop := VectorControlInstructionsComplete ∧ VectorLaneArithmeticCompletes ∧ VectorMovesComplete

/-- RSUM, RMAX, RMIN and RMERGE complete with the value of the fixed pairwise tree in lane 0 and +0 in every other lane, inactive lanes entering as the
identity; lane 0 is poisoned when an active lane was (R204, R206). -/
def Sys2Proof.Claims.VectorReductionsComplete : Prop :=
  ∀ (s : State) (c : CoreId) (i : VIns), Runs s c i →
    let v := (s.core c).vec
    let levels := if i.fmt = 0 then 8 else 9
    let first := fun (x : Nat) => fun j => if j = 0 then x else 0
    (∀ r ∈ reduceRows c, i.op = r.2.1 →
      let hot := (List.range (v.active i.lanes)).any fun j => v.srcHot i i.va j
      let w := pairTree (r.2.2.1 i.fm v.subnNow) levels fun j => if j < v.active i.lanes then v.src i i.va j else r.2.2.2 i.fm
      ∃ t, exec r.1 s = .next t ∧ VecFrame s t c hot ∧ Moved v (t.core c).vec hot ∧ (t.core c).vec.sr = v.sr
        ∧ (∀ j, j < i.lanes → ((t.core c).vec.reg i.vd).part i.size j = first w.1 j)
        ∧ (∀ k : Fin 256, ((t.core c).vec.reg i.vd).poison[k] = (k.val == 0 && hot))
        ∧ OtherRegs v (t.core c).vec [i.vd] ∧ FlagsOf v.flags (t.core c).vec.flags 1 (fun _ => w.2) hot)
    ∧ (i.op = 0x56 →
      let hot := (List.range (v.active 256)).any fun j => (v.wstate i.va j).2
      let w := pairTree (wMerge v.subnNow) 8 fun j => if j < v.active 256 then (v.wstate i.va j).1 else (0, 0, 0)
      ∃ t, exec (.rmerge c) s = .next t ∧ VecFrame s t c hot ∧ Moved v (t.core c).vec hot ∧ (t.core c).vec.sr = v.sr
        ∧ (∀ j, j < 256 → ((t.core c).vec.reg i.vd).part 4 j = first w.1.1 j ∧ ((t.core c).vec.reg (i.vd + 1)).part 4 j = first w.1.2.1 j
            ∧ ((t.core c).vec.reg (i.vd + 2)).part 4 j = first w.1.2.2 j)
        ∧ (∀ k : Fin 256, ∀ r ∈ [i.vd, i.vd + 1, i.vd + 2], ((t.core c).vec.reg r).poison[k] = (k.val == 0 && hot))
        ∧ OtherRegs v (t.core c).vec [i.vd, i.vd + 1, i.vd + 2] ∧ FlagsOf v.flags (t.core c).vec.flags 1 (fun _ => w.2) hot)

namespace Sys2Proof.Claims

open Sys2Proof.Machine

/-- The source lane of ACCSQ and WELFORD for FP32 lane `j`: lane j, or lane 256H + j of an FP16 source. -/
def statLane (i : VIns) (j : Nat) : Nat := if i.fmt = 0 then j else 256 * i.half + j

/-- Its value in FP32 after the flush of R85, with the flush's flag. -/
def statValue (v : VecEngine) (i : VIns) (j : Nat) : Nat × Flags :=
  let x := flushIn i.fm v.subnNow (v.src i i.va (statLane i j))
  (widen32 i.fm x.1, x.2)

/-- Two FP32 lanes' flags after R93's suppression for a NaN sum. -/
def sumFlags (x : Nat × Flags) : Flags := if (decodeF .fp32 x.1).isNan then x.2 &&& ~~~(fOF ||| fUF ||| fNX) else x.2

end Sys2Proof.Claims

/-- ACCSQ, WELFORD and MERGE complete: ACCSQ adds x to vd and the rounded square of x to vc; WELFORD merges (1, x, +0) into, and MERGE merges a second state into,
the state of each active lane, by R127 (R205, R206). -/
def Sys2Proof.Claims.VectorStatisticsComplete : Prop :=
  ∀ (s : State) (c : CoreId) (i : VIns), Runs s c i →
    let v := (s.core c).vec
    let on := fun j => decide (j < 256 ∧ statLane i j < v.active i.lanes)
    let x := fun j => (statValue v i j).1
    let xHot := fun j => v.srcHot i i.va (statLane i j)
    (i.op = 0x53 →
      let a := fun j => fAdd .fp32 v.subnNow ((v.reg i.vd).part 4 j) (x j)
      let q := fun j => fMul .fp32 v.subnNow (x j) (x j)
      let b := fun j => fAdd .fp32 v.subnNow ((v.reg i.vc).part 4 j) (q j).1
      let hot := (List.range 256).any fun j => on j && (xHot j || (v.reg i.vd).hot 4 j || (v.reg i.vc).hot 4 j)
      ∃ t, exec (.accsq c) s = .next t ∧ VecFrame s t c hot ∧ Moved v (t.core c).vec hot ∧ (t.core c).vec.sr = v.sr
        ∧ Written 4 (v.reg i.vd) ((t.core c).vec.reg i.vd) on (fun j => (a j).1) (fun j => xHot j || (v.reg i.vd).hot 4 j)
        ∧ Written 4 (v.reg i.vc) ((t.core c).vec.reg i.vc) on (fun j => (b j).1) (fun j => xHot j || (v.reg i.vc).hot 4 j)
        ∧ OtherRegs v (t.core c).vec [i.vd, i.vc]
        ∧ FlagsOf v.flags (t.core c).vec.flags 256
            (fun j => if on j then (statValue v i j).2 ||| sumFlags (a j) ||| sumFlags ((b j).1, (b j).2 ||| (q j).2) else 0) hot)
    ∧ (i.op = 0x54 →
      let m := fun j => wMerge v.subnNow (v.wstate i.vd j).1 (1, x j, 0)
      let h := fun j => (v.wstate i.vd j).2 || xHot j
      let hot := (List.range 256).any fun j => on j && h j
      ∃ t, exec (.welford c) s = .next t ∧ VecFrame s t c hot ∧ Moved v (t.core c).vec hot ∧ (t.core c).vec.sr = v.sr
        ∧ Written 4 (v.reg i.vd) ((t.core c).vec.reg i.vd) on (fun j => (m j).1.1) h
        ∧ Written 4 (v.reg (i.vd + 1)) ((t.core c).vec.reg (i.vd + 1)) on (fun j => (m j).1.2.1) h
        ∧ Written 4 (v.reg (i.vd + 2)) ((t.core c).vec.reg (i.vd + 2)) on (fun j => (m j).1.2.2) h
        ∧ OtherRegs v (t.core c).vec [i.vd, i.vd + 1, i.vd + 2]
        ∧ FlagsOf v.flags (t.core c).vec.flags 256 (fun j => if on j then (m j).2 ||| (statValue v i j).2 else 0) hot)
    ∧ (i.op = 0x55 →
      let m := fun j => wMerge v.subnNow (v.wstate i.vd j).1 (v.wstate i.va j).1
      let act := fun j => decide (j < v.active 256)
      let h := fun j => (v.wstate i.vd j).2 || (v.wstate i.va j).2
      let hot := (List.range (v.active 256)).any h
      ∃ t, exec (.merge c) s = .next t ∧ VecFrame s t c hot ∧ Moved v (t.core c).vec hot ∧ (t.core c).vec.sr = v.sr
        ∧ Written 4 (v.reg i.vd) ((t.core c).vec.reg i.vd) act (fun j => (m j).1.1) h
        ∧ Written 4 (v.reg (i.vd + 1)) ((t.core c).vec.reg (i.vd + 1)) act (fun j => (m j).1.2.1) h
        ∧ Written 4 (v.reg (i.vd + 2)) ((t.core c).vec.reg (i.vd + 2)) act (fun j => (m j).1.2.2) h
        ∧ OtherRegs v (t.core c).vec [i.vd, i.vd + 1, i.vd + 2]
        ∧ FlagsOf v.flags (t.core c).vec.flags (v.active 256) (fun j => (m j).2) hot)

/-- TOPK completes: in every group, rank r receives the index of the one lane that exactly r lanes of the group rank before, and that lane's bits (the canonical
NaN for an inactive lane: log entry 35); every other lane receives +0 and all ones; a poisoned lane poisons its group's lanes (R147, R148, R207). -/
def Sys2Proof.Claims.VectorTopkRanksEachGroup : Prop :=
  ∀ (s : State) (c : CoreId) (i : VIns), Runs s c i → i.op = 0x58 →
    let v := (s.core c).vec
    let k := field i.imm 0 4
    let e := field i.imm 4 9
    let step := if bitOf i.imm 13 then k else e
    let groups := i.lanes / e
    let hot := (List.range (groups * e)).any fun j => v.srcHot i i.va j
    ∃ t, exec (.topk c) s = .next t ∧ VecFrame s t c hot ∧ Moved v (t.core c).vec hot ∧ (t.core c).vec.sr = v.sr
      ∧ OtherRegs v (t.core c).vec [i.vd, i.vb]
      ∧ (∀ g r, g < groups → r < k →
          let x := ((t.core c).vec.reg i.vb).part i.size (g * step + r)
          x < e ∧ ((List.range e).filter fun j => ranksBefore v i (g * e) j x).length = r
          ∧ ((t.core c).vec.reg i.vd).part i.size (g * step + r)
              = (if g * e + x < v.active i.lanes then v.src i i.va (g * e + x) else i.fm.nanBits))
      ∧ (∀ l, l < i.lanes → (groups * step ≤ l ∨ k ≤ l % step) →
          ((t.core c).vec.reg i.vd).part i.size l = 0 ∧ ((t.core c).vec.reg i.vb).part i.size l = 2 ^ (8 * i.size) - 1)
      ∧ (∀ g l, g < groups → g * step ≤ l → l < (g + 1) * step → ((List.range e).any fun j => v.srcHot i i.va (g * e + j)) = true →
          ((t.core c).vec.reg i.vd).hot i.size l = true ∧ ((t.core c).vec.reg i.vb).hot i.size l = true)
      ∧ FlagsOf v.flags (t.core c).vec.flags (groups * e) (fun l =>
          let x := flushIn i.fm v.subnNow (v.src i i.va l)
          if l < v.active i.lanes then x.2 ||| (if (decodeF i.fm x.1).isSig then fNV else 0) else 0) hot

/-- The reductions, the statistics rows and TOPK complete (R95, R125 to R128, R147, R148, R204 to R207). -/
def Obligations.VectorGroupRowsComplete : Prop := VectorReductionsComplete ∧ VectorStatisticsComplete ∧ VectorTopkRanksEachGroup

namespace Sys2Proof.Claims

open Sys2Proof.Machine

/-- The source of a conversion is in an FP8 format. -/
def fromFp8 (i : VIns) : Bool := i.src == 2 || i.src == 3

/-- The format a conversion computes from: an FP8 source is widened to FP16 first (R75). -/
def srcFmt (i : VIns) : Fmt := if fromFp8 i then .fp16 else (fmtOf i.src).getD .fp32

/-- The bytes of a source element. -/
def srcBytes (i : VIns) : Nat := if i.src = 0 then 4 else if fromFp8 i then 1 else 2

/-- The elements a conversion has: 256 when either side is FP32, else 512 (Table VEC-3). -/
def elems (i : VIns) : Nat := if i.src = 0 ∨ i.fmt = 0 then 256 else 512

/-- The source part of element `e`: in place, or in the half POS[7] names (Table VEC-3). Where the bytes of an FP8 source lie is the model's choice
(log entry 34). -/
def fromPart (i : VIns) (e : Nat) : Nat :=
  if fromFp8 i then (if i.fmt = 0 then 256 * field i.imm 7 2 else 512 * field i.imm 7 1) + e
  else if i.src ≠ 0 ∧ i.fmt = 0 then 256 * field i.imm 7 1 + e else e

/-- Source element `e`, an FP8 one widened to FP16 (R75). -/
def srcElem (v : VecEngine) (i : VIns) (e : Nat) : Nat :=
  let b := (v.reg i.va).part (srcBytes i) (fromPart i e)
  if fromFp8 i then widen16 ((fmtOf i.src).getD .fp32) b else b

/-- The destination part of element 0 (Table VEC-3). -/
def toPart (i : VIns) : Nat :=
  if i.fmt = 0 then 0
  else if i.fmt = 2 ∨ i.fmt = 3 then (if i.src = 0 then 256 * field i.imm 7 2 else 512 * field i.imm 7 1)
  else if i.src = 0 then 256 * field i.imm 7 1 else 0

/-- Element `e` converted: the block scale from byte e ÷ block of vb where SCL is set, the draw of random source e under SR; a NaN widened from
FP8 to FP16 keeps its bits (R75, R80, R208, R209). -/
def converted (v : VecEngine) (i : VIns) (e : Nat) : Nat × Flags :=
  let sr := v.sr[Fin.ofNat 512 e] * 0x0019660D + 0x3C6EF35F
  if fromFp8 i = true ∧ i.fmt = 1 ∧ (decodeF .fp16 (srcElem v i e)).isNan = true then (srcElem v i e, 0) else
  convert (srcFmt i) i.fm ((rmodeOf i.rm).getD .rne) (if i.rm = 4 then sr.toNat / 65536 else 0) (bitOf i.imm 4) v.subnNow
    (if bitOf i.imm 5 then (v.reg i.vb).part 1 (e / if bitOf i.imm 6 then 32 else 16) else 127) (srcElem v i e)

/-- Element `e`'s source lane, or its block's scale, is poisoned. -/
def convHot (v : VecEngine) (i : VIns) (e : Nat) : Bool :=
  (v.reg i.va).hot (srcBytes i) (fromPart i e) || (bitOf i.imm 5 && (v.reg i.vb).hot 1 (e / if bitOf i.imm 6 then 32 else 16))

/-- The random sources after a conversion of `n` elements: each has advanced once under SR, and none in another mode. -/
def srAfter (v v' : VecEngine) (i : VIns) (n : Nat) : Prop :=
  ∀ j : Fin 512, v'.sr[j] = if i.rm = 4 ∧ j.val < n then v.sr[j] * 0x0019660D + 0x3C6EF35F else v.sr[j]

/-- The suggested scale of R210: ⌊log₂ a⌋ − emax + 127, clamped; 0x7F for zero, infinity and NaN. -/
def suggested (f : Fmt) (a : Nat) : Nat :=
  match decodeF .fp32 a with
  | .fin _ m e => if m = 0 then 0x7F else (max 0 (min 0xFE ((Nat.log2 m : Int) + e - f.emax + 127))).toNat
  | _ => 0x7F

/-- The elements of a block. -/
def blockLen (i : VIns) : Nat := if bitOf i.imm 6 then 32 else 16

/-- The running maximum of block `b` of `n` elements and the FLUSH flags of gathering it: from lane b of vc, each finite element's magnitude in FP32 enters
by MAX, in order (R85, R94, R210). -/
def gathered (v : VecEngine) (i : VIns) (n b : Nat) : Nat × Flags :=
  (List.range (blockLen i)).foldl (fun acc j =>
    let x := flushIn (srcFmt i) v.subnNow (srcElem v i (b * blockLen i + j))
    if n ≤ b * blockLen i + j then acc
    else match decodeF (srcFmt i) x.1 with
      | .fin _ _ _ =>
        let m := fMaxMin true .fp32 v.subnNow acc.1 (widen32 (srcFmt i) ((srcFmt i).mag x.1))
        (m.1, acc.2 ||| ((x.2 ||| m.2) &&& fFLUSH))
      | _ => acc) ((v.reg i.vc).part 4 b, 0)

/-- Lane b of vc or an element of block `b` is poisoned. -/
def gatherHot (v : VecEngine) (i : VIns) (n b : Nat) : Bool :=
  (v.reg i.vc).hot 4 b || (List.range (blockLen i)).any fun j =>
    decide (b * blockLen i + j < n) && (v.reg i.va).hot (srcBytes i) (fromPart i (b * blockLen i + j))

end Sys2Proof.Claims

/-- CVT completes: each active element of va is converted as R208 gives and placed by Table VEC-3; the other parts of vd stay; under SR each active element's
source is advanced once (R80, R208, R209). -/
def Sys2Proof.Claims.VectorConversionCompletes : Prop :=
  ∀ (s : State) (c : CoreId) (i : VIns), Runs s c i → i.op = 0x60 →
    let v := (s.core c).vec
    let n := v.active (elems i)
    let on := fun j => decide (toPart i ≤ j ∧ j < toPart i + n)
    let hot := (List.range n).any (convHot v i)
    ∃ t, exec (.cvt c) s = .next t ∧ VecFrame s t c hot ∧ Moved v (t.core c).vec hot ∧ srAfter v (t.core c).vec i n
      ∧ Written i.fm.size (v.reg i.vd) ((t.core c).vec.reg i.vd) on (fun j => (converted v i (j - toPart i)).1) (fun j => convHot v i (j - toPart i))
      ∧ OtherRegs v (t.core c).vec [i.vd] ∧ FlagsOf v.flags (t.core c).vec.flags n (fun e => (converted v i e).2) hot

/-- CVT.AMAX completes. With MODE = 1 it writes the suggested scale of each active FP32 lane of va into that byte of vb and leaves vd and vc. With MODE = 0 it converts as
CVT does, gathers the maximum of each block into that lane of vc, no lower than any finite element's magnitude, and writes its suggested scale into that byte
of vb; other bytes and lanes stay, marks follow the lanes consumed, and the flags gain those of the conversion and FLUSH (R210). -/
def Sys2Proof.Claims.VectorConversionGathersMaxima : Prop :=
  ∀ (s : State) (c : CoreId) (i : VIns), Runs s c i → i.op = 0x61 →
    let v := (s.core c).vec
    let n := v.active (elems i)
    let blk := blockLen i
    let blocks := (n + blk - 1) / blk
    let hot := if bitOf i.imm 9 then (List.range (v.active 256)).any (fun b => (v.reg i.va).hot 4 b)
      else (List.range n).any (convHot v i) || (List.range blocks).any fun b => (v.reg i.vc).hot 4 b
    ∃ t, exec (.cvtAmax c) s = .next t ∧ VecFrame s t c hot ∧ Moved v (t.core c).vec hot ∧ OtherRegs v (t.core c).vec [i.vd, i.vb, i.vc]
      ∧ (bitOf i.imm 9 = true →
          (t.core c).vec.reg i.vd = v.reg i.vd ∧ (t.core c).vec.reg i.vc = v.reg i.vc ∧ (t.core c).vec.sr = v.sr
          ∧ Written 1 (v.reg i.vb) ((t.core c).vec.reg i.vb) (fun b => decide (b < v.active 256))
              (fun b => suggested i.fm (flushIn .fp32 v.subnNow ((v.reg i.va).part 4 b)).1) (fun b => (v.reg i.va).hot 4 b)
          ∧ FlagsOf v.flags (t.core c).vec.flags (v.active 256) (fun b => (flushIn .fp32 v.subnNow ((v.reg i.va).part 4 b)).2) hot)
      ∧ (bitOf i.imm 9 = false →
          srAfter v (t.core c).vec i n
          ∧ Written 1 (v.reg i.vd) ((t.core c).vec.reg i.vd) (fun j => decide (toPart i ≤ j ∧ j < toPart i + n))
              (fun j => (converted v i (j - toPart i)).1) (fun j => convHot v i (j - toPart i))
          ∧ Written 4 (v.reg i.vc) ((t.core c).vec.reg i.vc) (fun b => decide (b < blocks)) (fun b => (gathered v i n b).1) (gatherHot v i n)
          ∧ Written 1 (v.reg i.vb) ((t.core c).vec.reg i.vb) (fun b => decide (b < blocks)) (fun b => suggested i.fm (gathered v i n b).1) (gatherHot v i n)
          ∧ (∀ b, b < 8 → (t.core c).vec.flags.getLsbD b
              = (v.flags.getLsbD b || ((List.range n).any fun e => (converted v i e).2.getLsbD b)
                  || ((List.range blocks).any fun k => (gathered v i n k).2.getLsbD b) || (b == 6 && hot)))
          ∧ (∀ b, b < blocks → ∀ e, b * blk ≤ e → e < (b + 1) * blk → e < n →
              let x := (flushIn (srcFmt i) v.subnNow (srcElem v i e)).1
              (∃ neg m ex, decodeF (srcFmt i) x = .fin neg m ex) →
                widen32 (srcFmt i) ((srcFmt i).mag x) ≤ ((t.core c).vec.reg i.vc).part 4 b))

/-- CVT and CVT.AMAX complete (R80, R208 to R210). -/
def Obligations.VectorConversionsComplete : Prop := VectorConversionCompletes ∧ VectorConversionGathersMaxima

namespace Sys2Proof.Claims

open Sys2Proof.Machine

/-- The Cupola offset of element `e` of a load or store: row e ÷ (64 ÷ size) at the stride of rows, or every element at the stride (R201, R202). -/
def elemAt (v : VecEngine) (i : VIns) (strided : Bool) (e : Nat) : Nat :=
  let per := 64 / i.fm.size
  ((v.a[Fin.ofNat 16 i.va] + (BitVec.ofNat 28 i.imm).signExtend 32).toNat
    + (if strided then e * v.adr i.vb else e / per * v.adr i.vb + e % per * i.fm.size)) % 2 ^ 32

/-- Every active element of a load or store is aligned and inside Cupola (Table VEC-4). -/
def Reaches (v : VecEngine) (i : VIns) (strided : Bool) : Prop :=
  ∀ e, e < v.active i.lanes → elemAt v i strided e < 0x600000 ∧ elemAt v i strided e % i.fm.size = 0

/-- The number in the `n` bytes from `a`. -/
def numberAt (s : State) (a n : Nat) : Nat := leNat ((List.range n).map fun b => s.mem.byteAt (a + b))

/-- The vector engine after an instruction that writes no register. -/
def movedOn (v : VecEngine) : VecEngine := { v with pc := v.pc + 8, lastPc := BitVec.ofNat 23 v.pc, instrCount := v.instrCount + 1 }

/-- The vector engine of core `c` refused the instruction at its program counter (R212): it is frozen, its descriptor ends failed, the offsets are recorded, the
fault is the last one logged, and nothing else of the core, the other cores and the bytes of the SRAM changed. -/
structure VecRefused (s t : State) (c : CoreId) : Prop where
  vec : (t.core c).vec = { (s.core c).vec with
    running := false, faultPc := BitVec.ofNat 23 (s.core c).vec.pc
    q := { (s.core c).vec.q with
      freeze := some { cause := .refusal, discard := true, answer := none }
      active := (s.core c).vec.q.active.map fun a => if a.progress = .busy then { a with progress := .failed } else a } }
  core : t.core c = { s.core c with
    vec := (t.core c).vec, seq := { (s.core c).seq with faultDesc := BitVec.ofNat 23 (s.core c).vec.desc } }
  others : SameCores s t c
  die : SameDie s t
  bytes : SameBytes s t
  log : (lastRecord t).code = 0x502 ∧ (lastRecord t).cls = .contained ∧ (lastRecord t).block = 2 ∧ (lastRecord t).inst = BitVec.ofNat 8 c.val
    ∧ (lastRecord t).detail = BitVec.ofNat 32 (s.core c).vec.pc ∧ (lastRecord t).number = t.blf.newest

/-- The rows of the vector engine with their opcodes (Table VEC-2). -/
def vecRows (c : CoreId) : List (Instr × Nat) :=
  [(.nop c, 0x00), (.endProg c, 0x01), (.setvl c, 0x02), (.lil c, 0x03), (.lih c, 0x04), (.adda c, 0x05), (.bnz c, 0x06), (.splat c, 0x07),
    (.ld c, 0x10), (.st c, 0x11), (.lds c, 0x12), (.sts c, 0x13), (.add c, 0x20), (.sub c, 0x21), (.mul c, 0x22), (.fma c, 0x23), (.max c, 0x24),
    (.min c, 0x25), (.abs c, 0x26), (.neg c, 0x27), (.mov c, 0x28), (.cmpeq c, 0x30), (.cmpne c, 0x31), (.cmplt c, 0x32), (.cmple c, 0x33),
    (.sel c, 0x34), (.recip c, 0x40), (.rsqrt c, 0x41), (.exp2 c, 0x42), (.log2 c, 0x43), (.rsum c, 0x50), (.rmax c, 0x51), (.rmin c, 0x52),
    (.accsq c, 0x53), (.welford c, 0x54), (.merge c, 0x55), (.rmerge c, 0x56), (.topk c, 0x58), (.cvt c, 0x60), (.cvtAmax c, 0x61)]

end Sys2Proof.Claims

/-- LD and LDS complete when every active element is aligned and inside Cupola: lane e of vd holds element e (an FP8 element widened to FP16) with its word's
mark, inactive lanes stay, no flag and no byte of memory changes (R196, R201 to R203). -/
def Sys2Proof.Claims.VectorLoadsComplete : Prop :=
  ∀ (s : State) (c : CoreId) (i : VIns), s.wf → Runs s c i → ∀ r ∈ [(Instr.ld c, 0x10, false), (Instr.lds c, 0x12, true)], i.op = r.2.1 →
    let v := (s.core c).vec
    let addr := fun e => coreBase c + elemAt v i r.2.2 e
    let value := fun e => let b := numberAt s (addr e) i.fm.size; if i.fm.size = 1 then widen16 i.fm b else b
    Reaches v i r.2.2 →
    ∃ t, exec r.1 s = .next t ∧ SameCores s t c ∧ t.core c = { s.core c with vec := (t.core c).vec } ∧ SameDie s t ∧ SameBytes s t
      ∧ (t.core c).vec = { movedOn v with v := (t.core c).vec.v } ∧ OtherRegs v (t.core c).vec [i.vd]
      ∧ (∀ e, e < i.lanes → ((t.core c).vec.reg i.vd).part i.size e = if e < v.active i.lanes then value e else (v.reg i.vd).part i.size e)
      ∧ (Undamaged s (coreBase c + v.pc) 8 → (∀ e, e < v.active i.lanes → Undamaged s (addr e) i.fm.size) →
          t.mem = s.mem ∧ t.blf = s.blf
          ∧ Written i.size (v.reg i.vd) ((t.core c).vec.reg i.vd) (fun e => decide (e < v.active i.lanes)) value (fun e => s.mem.marked (addr e / 8)))

/-- ST and STS complete when every active element is aligned and inside Cupola: the bytes of each element that no later element covers hold it, its word is
marked if its lane was, every byte outside the active elements reads as before, and no register or flag changes (R196, R201 to R203). -/
def Sys2Proof.Claims.VectorStoresComplete : Prop :=
  ∀ (s : State) (c : CoreId) (i : VIns), s.wf → Runs s c i → ∀ r ∈ [(Instr.st c, 0x11, false), (Instr.sts c, 0x13, true)], i.op = r.2.1 →
    let v := (s.core c).vec
    let n := v.active i.lanes
    let addr := fun e => coreBase c + elemAt v i r.2.2 e
    Reaches v i r.2.2 →
    ∃ t, exec r.1 s = .next t ∧ SameCores s t c ∧ t.core c = { s.core c with vec := movedOn v } ∧ SameDie s t
      ∧ (Undamaged s (coreBase c + v.pc) 8 → (∀ e, e < n → Undamaged s (addr e) i.fm.size) → t.blf = s.blf)
      ∧ (∀ a, (∀ e, e < n → a < addr e ∨ addr e + i.fm.size ≤ a) → t.mem.byteAt a = s.mem.byteAt a)
      ∧ (∀ e, e < n → (∀ e', e < e' → e' < n → addr e' + i.fm.size ≤ addr e ∨ addr e + i.fm.size ≤ addr e') →
          numberAt t (addr e) i.fm.size = (v.reg i.vd).part i.fm.size e
          ∧ ((v.reg i.vd).hot i.fm.size e = true → t.mem.marked (addr e / 8) = true))

/-- LD, LDS, ST and STS complete (R196, R201 to R203). -/
def Obligations.VectorLoadsAndStoresComplete : Prop := VectorLoadsComplete ∧ VectorStoresComplete

/-- Every row of the vector engine refuses at issue what Table VEC-4 lists: a reserved opcode, fields or operands not allowed, a program counter, a taken branch or an
active element outside Cupola, a misaligned element; the refusal is that of R212. -/
def Sys2Proof.Claims.VectorRefusalsFreezeTheEngine : Prop :=
  ∀ (s : State) (c : CoreId) (i : VIns), Issues s c i →
    let v := (s.core c).vec
    (∀ r ∈ vecRows c, (opUse i.op = none ∨ (i.op = r.2 ∧ (i.fieldsBad = true ∨ i.operandsBad = true))) → ∃ t, exec r.1 s = .next t ∧ VecRefused s t c)
    ∧ (∀ r ∈ [(Instr.ld c, 0x10, false), (Instr.st c, 0x11, false), (Instr.lds c, 0x12, true), (Instr.sts c, 0x13, true)],
        i.op = r.2.1 → ¬ Reaches v i r.2.2 → ∃ t, exec r.1 s = .next t ∧ VecRefused s t c)
    ∧ (i.op = 0x06 → v.a[Fin.ofNat 16 i.va] ≠ 0 →
        (v.pc : Int) + 8 * (BitVec.ofNat 28 i.imm).toInt < 0 ∨ 0x600000 ≤ (v.pc : Int) + 8 * (BitVec.ofNat 28 i.imm).toInt →
        ∃ t, exec (.bnz c) s = .next t ∧ VecRefused s t c)

/-- A program counter outside Cupola is refused by every row of the vector engine (Table VEC-4). -/
def Sys2Proof.Claims.VectorProgramCounterStaysInCupola : Prop :=
  ∀ (s : State) (c : CoreId), s.powered = true → (s.core c).live = true → (s.core c).vec.running = true → (s.core c).vec.q.freeze = none →
    cupolaEnd ≤ (s.core c).vec.pc → ∀ r ∈ vecRows c, ∃ t, exec r.1 s = .next t ∧ VecRefused s t c

/-- Every row of the vector engine refuses what Table VEC-4 lists (R212). -/
def Obligations.VectorRefusalsFollowTheirTable : Prop := VectorRefusalsFreezeTheEngine ∧ VectorProgramCounterStaysInCupola

/-! ## Counters, bell lines and waits (09) -/

namespace Sys2Proof.Claims

open Sys2Proof.Machine

/-- A wait on a counter of bell line `l` is woken; another wait is not (R247). -/
def wake (l : Nat → Bool) (w : Wait) : Wait :=
  if (w.kind = .waitDesc ∨ w.kind = .header) ∧ l (w.counter.toNat % 16) = true then { w with woken := true } else w

/-- Core `k` after the bell lines `l` have fired: every sleeper on them is woken, and an enabled line asks for a wake from C2 or C3 (R246 to R248). -/
def rung (l : Nat → Bool) (k : Core) : Core :=
  let w := fun x : Option Wait => x.map (wake l)
  { k with
    seq := { k.seq with wait := w k.seq.wait }
    vec := { k.vec with q := { k.vec.q with wait := w k.vec.q.wait } }
    mov := { k.mov with q := { k.mov.q with wait := w k.mov.q.wait } }
    eng := k.eng.map fun x => { x with q := { x.q with wait := w x.q.wait }, stageWait := w x.stageWait }
    bellPend := k.bellPend || (decide (k.cstate = .c2 ∨ k.cstate = .c3) && (List.range 16).any fun b => l b && k.bellWake.getLsbD b) }

/-- The value of a counter after an operation of Table SYN-1 (R243). -/
def countTo (old : Nat) : CntOp → Nat
  | .add n => min 0xFFFF (old + n)
  | .sub n => old - n
  | .set n => n % 0x10000

/-- Core `c` after the operation `op` on its counter `n`: the value saturates with its SAT or UNDER bit, a change of the value fires the counter's bell line and
nothing else of the core changes; a new bit that is enabled logs 0x602 and otherwise nothing is logged (R242, R243, R246). -/
structure Counted (s t : State) (c : CoreId) (n : Fin 64) (op : CntOp) : Prop where
  core :
    let k := s.core c
    let old := (k.cnt[n]).toNat
    let new := countTo old op
    t.core c = rung (fun b => decide (new ≠ old) && b == n.val % 16) { k with
      cnt := k.cnt.set n.val (BitVec.ofNat 16 new)
      sat := (t.core c).sat
      under := (t.core c).under }
  sat : ∀ b, b < 64 → (t.core c).sat.getLsbD b = ((s.core c).sat.getLsbD b || (b == n.val && match op with
    | .add x => decide (0xFFFF < ((s.core c).cnt[n]).toNat + x)
    | _ => false))
  under : ∀ b, b < 64 → (t.core c).under.getLsbD b = ((s.core c).under.getLsbD b || (b == n.val && match op with
    | .sub x => decide (((s.core c).cnt[n]).toNat < x)
    | _ => false))
  others : SameCores s t c
  die : t = { s with cores := t.cores, blf := t.blf }
  quiet : ((t.core c).sat = (s.core c).sat ∨ (s.core c).cntCtrl.getLsbD 0 = false) →
    ((t.core c).under = (s.core c).under ∨ (s.core c).cntCtrl.getLsbD 1 = false) → t.blf = s.blf
  fault : ((t.core c).sat ≠ (s.core c).sat ∧ (s.core c).cntCtrl.getLsbD 0 = true)
      ∨ ((t.core c).under ≠ (s.core c).under ∧ (s.core c).cntCtrl.getLsbD 1 = true) →
    (lastRecord t).code = 0x602 ∧ (lastRecord t).cls = .corrected ∧ (lastRecord t).inst = BitVec.ofNat 8 c.val
      ∧ (lastRecord t).address = BitVec.ofNat 64 n.val ∧ t.blf.newest = s.blf.newest + 1

/-- The wait that WAIT_TIMEOUT names: of a group's chain, of a performer's queue head or the LOADB to be staged, the one that expires first, or of the
sequencer. -/
def waitOf (s : State) (c : CoreId) : UnitId → Option GroupId → Option Wait
  | .eng e, some g => (s.group c e g).wait
  | .eng e, none => match (s.eng c e).q.wait, (s.eng c e).stageWait with
    | some w, some v => if v.timeout - v.elapsed < w.timeout - w.elapsed then some v else some w
    | w, v => w.orElse fun _ => v
  | .vec, none => (s.core c).vec.q.wait
  | .mover, none => (s.core c).mov.q.wait
  | .seq, none => (s.core c).seq.wait
  | _, some _ => none

/-- Master `m` can act and its access to the byte at `a` is granted (R16, R19, R24, R25). -/
def MasterMay (s : State) (m : Master) (a : Nat) (write : Bool) : Prop := s.acts m = true ∧ s.judge m a write = .ok

/-- A wait on a counter, not one on a chain. -/
def onCounter (w : Wait) : Bool := w.kind == .waitDesc || w.kind == .header

/-- The counter test of R249. -/
def met (s : State) (c : CoreId) (w : Wait) : Bool := decide (w.thresh.toNat ≤ ((s.core c).cnt[Fin.ofNat 64 w.counter.toNat]).toNat)

end Sys2Proof.Claims

/-- CORE_CNT_WRITE, CORE_CNT_ADD and CORE_CNT_SUB by a master whose access is granted complete with the counter operation of Table SYN-1 and its saturation, bell and fault. -/
def Sys2Proof.Claims.CounterRegistersFollowTheTable : Prop :=
  ∀ (s : State) (m : Master) (c : CoreId) (n : Fin 64) (v : Word), s.powered = true → MasterMay s m (coreBase c + 0xF10000 + 4 * n.val) true →
    (∃ t, exec (.coreCntWrite m c n v) s = .next t ∧ Counted s t c n (.set (v.toNat % 65536)))
    ∧ (∃ t, exec (.coreCntAdd m c n v) s = .next t ∧ Counted s t c n (.add (v.toNat % 65536)))
    ∧ (∃ t, exec (.coreCntSub m c n v) s = .next t ∧ Counted s t c n (.sub (v.toNat % 65536)))

/-- CORE_BELL_RING by a master whose access is granted fires the bell lines of the ones written, and changes nothing else (R246 to R248). -/
def Sys2Proof.Claims.BellRingWakesTheSleepers : Prop :=
  ∀ (s : State) (m : Master) (c : CoreId) (v : Word), s.powered = true → MasterMay s m (coreBase c + 0xF10318) true →
    ∃ t, exec (.coreBellRing m c v) s = .next t ∧ SameCores s t c ∧ t = { s with cores := t.cores }
      ∧ t.core c = rung (fun b => v.getLsbD b) (s.core c)

/-- The counter registers follow Table SYN-1, and the bell lines wake their sleepers (R242 to R248). -/
def Obligations.CountersAndBellLinesWakeTheirSleepers : Prop := CounterRegistersFollowTheTable ∧ BellRingWakesTheSleepers

/-- WAIT_RETEST of a woken unit: an unmet wait sleeps on, with nothing else changed; a met header wait of the sequencer ends, its predicate read; a met WAIT subtracts its DEC and
completes (R145, R181, R247). -/
def Sys2Proof.Claims.WokenUnitsTestTheirWaitAgain : Prop :=
  ∀ (s : State) (c : CoreId) (w : Wait), s.powered = true → (s.core c).live = true → w.woken = true →
    ((s.core c).seq.freeze = none → (s.core c).seq.wait = some w → met s c w = false →
      ∃ t, exec (.waitRetest c .seq) s = .next t
        ∧ t = s.modSeq c fun q => { q with wait := some { w with woken := false } })
    ∧ (∀ u, u = .vec ∨ u = .mover → ((s.core c).unitQ u).freeze = none → ((s.core c).unitQ u).wait = some w → met s c w = false →
      ∃ t, exec (.waitRetest c u) s = .next t ∧ t = s.modQ c u fun q => { q with wait := some { w with woken := false } })
    ∧ (∀ e, (s.eng c e).q.freeze = none → (s.eng c e).q.wait = some w → (s.eng c e).stageWait = none → met s c w = false →
      ∃ t, exec (.waitRetest c (.eng e)) s = .next t ∧ t = s.modQ c (.eng e) fun q => { q with wait := some { w with woken := false } })
    ∧ (∀ n, (s.core c).seq.freeze = none → (s.core c).seq.wait = some w → w.kind = .header → met s c w = true → s.nextDesc c = some n →
      ∃ t, exec (.waitRetest c .seq) s = .next t
        ∧ t = s.modSeq c fun q => { q with wait := none, waitMet := some ((s.core c).predRuns n.d) })
    ∧ (∀ n, (s.core c).seq.freeze = none → (s.core c).seq.wait = some w → w.kind = .waitDesc → met s c w = true → s.nextDesc c = some n →
      ∃ t, exec (.waitRetest c .seq) s = .next t ∧ (t.core c).seq.wait = none ∧ SameBytes s t ∧ SameCores s t c
        ∧ (dSigEn n.d = false → (s.core c).seq.loop = none → (t.core c).seq.retired = (s.core c).seq.retired + 1
          ∧ ((t.core c).cnt[Fin.ofNat 64 (dWaitCnt n.d)]).toNat = ((s.core c).cnt[Fin.ofNat 64 (dWaitCnt n.d)]).toNat - wDec n.d))

/-- WAIT_TIMEOUT of an unmet wait of a unit that is not frozen, in C0: time reaches its expiry, 0x601 is logged with the waiting descriptor and the counter or 64 + group,
SEQ_FAULT_DESC records the descriptor, and the unit is frozen, keeping its queue and its wait (R250, R251). -/
def Sys2Proof.Claims.ExpiredWaitsFreezeTheirUnit : Prop :=
  ∀ (s : State) (c : CoreId) (u : UnitId) (g : Option GroupId) (w : Wait), s.powered = true → waitOf s c u g = some w → s.frozen c u = none →
    (s.core c).cstate = .c0 → (onCounter w = true → met s c w = false) →
    ∃ t, exec (.waitTimeout c u g) s = .next t
      ∧ t.frozen c u = some { cause := .waitTimeout, discard := false, answer := none }
      ∧ (∃ w', waitOf t c u g = some w' ∧ w'.expired = true ∧ w'.desc = w.desc ∧ w'.counter = w.counter ∧ w'.thresh = w.thresh ∧ w'.kind = w.kind)
      ∧ t.now = s.now + (w.timeout - w.elapsed)
      ∧ (lastRecord t).code = 0x601 ∧ (lastRecord t).cls = .contained ∧ (lastRecord t).detail = BitVec.ofNat 32 w.desc
      ∧ (lastRecord t).address = (match g with
          | some g => BitVec.ofNat 64 (64 + g.val)
          | none => BitVec.ofNat 64 w.counter.toNat)
      ∧ (t.core c).seq.faultDesc = BitVec.ofNat 23 w.desc
      ∧ t.mem = s.mem ∧ (∀ d, (t.core d).cnt = (s.core d).cnt) ∧ ((t.core c).unitQ u).queue = ((s.core c).unitQ u).queue
      ∧ ((t.core c).unitQ u).active = ((s.core c).unitQ u).active

/-- ANSWER_WAIT_TIMEOUT of an outstanding entry of a core in C0 or C4: the entry is freed, its operation ends failed, 0x601 is logged once per operation with 128 + TAG, the unit is
frozen as for a violation, keeping the wait for WAIT_GRAPH, and the TAG rests for the default timeout (R252, R255). -/
def Sys2Proof.Claims.UnansweredRequestsFailTheirOperation : Prop :=
  ∀ (s : State) (c : CoreId) (u : UnitId) (tag : Nat) (o : Outst), s.powered = true →
    (s.core c).outst.find? (fun o => o.unit.toNat == unitNum u && o.pkt.tag.toNat == tag) = some o →
    o.spec = false → (s.core c).cstate ≠ .c2 → (s.core c).cstate ≠ .c3 →
    ∃ t, exec (.answerWaitTimeout c u tag) s = .next t
      ∧ (∀ x ∈ (t.core c).outst, ¬ (x.unit.toNat = unitNum u ∧ x.pkt.tag.toNat = tag))
      ∧ (t.core c).outst.length < (s.core c).outst.length
      ∧ (tag, t.now + s.blf.waitDefault.toNat) ∈ (t.core c).deadTags ∧ t.now = s.now + (o.timeout - o.elapsed)
      ∧ (t.frozen c u).isSome = true
      ∧ (s.frozen c u = none → (t.core c).seq.faultDesc = BitVec.ofNat 23 o.off
          ∧ (u ≠ .seq → t.frozen c u = some { cause := .answerTimeout, discard := true, answer := some (o.off, o.began) }))
      ∧ (o.failed = false → (lastRecord t).code = 0x601 ∧ (lastRecord t).cls = .contained ∧ (lastRecord t).detail = BitVec.ofNat 32 o.off
          ∧ (lastRecord t).address = BitVec.ofNat 64 (128 + tag))
      ∧ (o.pkt.opcode ≠ 0x20 → u ≠ .seq → ∀ a ∈ ((t.core c).unitQ u).active, a.entry.id = o.desc → a.progress = .done ∨ a.progress = .failed)
      ∧ t.mem = s.mem ∧ (∀ d, (t.core d).cnt = (s.core d).cnt)

/-- A woken unit tests its wait again, an unmet wait that expires freezes its unit, an unanswered request fails its operation (R145, R181, R247, R250 to R252). -/
def Obligations.WaitsAreRetestedAndExpire : Prop := WokenUnitsTestTheirWaitAgain ∧ ExpiredWaitsFreezeTheirUnit ∧ UnansweredRequestsFailTheirOperation

/-! ## Register accesses (00, 01, 06, 07) -/

/-- R15: an access to a register of the register map whose width is not four bytes, or whose address is not a multiple of four, completes with no effect whatever it would
otherwise meet; a read returns 0 and no fault is raised. The region is reachable: the core is present and the uncore is not gated. -/
def Obligations.AccessesOfAnotherWidthHaveNoEffect : Prop :=
  ∀ (s : State) (m : Master) (a : BitVec 40) (width : Nat) (v : Word), s.powered = true → (region a.toNat).isRegs = true → width ≠ 4 ∨ a.toNat % 4 ≠ 0 →
    (s.regRead (a.toNat / 4 * 4)).isSome = true → s.gated (region a.toNat) = false → (∀ c, region a.toNat = .csr c → (s.core c).present = true) →
    exec (.registerWrite m a width v) s = .next s
    ∧ (s.acts m = true → ∀ i ∈ [Instr.rcRead m a width, Instr.loReadCapture m a width],
        exec i s = .next { s with readBack := { value := 0, poisoned := false } })

/-- R162: a write of SEQ_RING_BASE or SEQ_RING_SIZE while ENABLE = 1 is ignored; otherwise it is stored, a LOG2 outside 6 to 16 as 6, and SEQ_HEAD and SEQ_TAIL become 0. -/
def Obligations.RingConfigurationRestartsTheRing : Prop :=
  ∀ (s : State) (m : Master) (c : CoreId) (v : Word), s.powered = true →
    (MasterMay s m (coreBase c + 0xF00008) true → ∃ t, exec (.seqRingConfigWrite m c .base v) s = .next t
      ∧ ((s.core c).seq.enable = true → t = s)
      ∧ ((s.core c).seq.enable = false → t = s.modSeq c fun q => { q with ringBase := v.setWidth 23, head := 0, tail := 0, loopSkip := 0 }))
    ∧ (MasterMay s m (coreBase c + 0xF0000C) true → ∃ t, exec (.seqRingConfigWrite m c .size v) s = .next t
      ∧ ((s.core c).seq.enable = true → t = s)
      ∧ ((s.core c).seq.enable = false → t = s.modSeq c fun q => { q with
          log2 := if 6 ≤ (v.setWidth 5).toNat ∧ (v.setWidth 5).toNat ≤ 16 then v.setWidth 5 else 6, head := 0, tail := 0, loopSkip := 0 }))

/-- SEQ_TAIL_WRITE is accepted when its value is below the ring size and does not move TAIL back, and otherwise only sets TAIL_REJ; RESUME leaves the halted state and keeps ENABLE; a
VEC_SR_SEED write sets the seed and all 512 random sources (R80, R160, R188). -/
def Sys2Proof.Claims.SequencerAndSeedWritesTakeEffect : Prop :=
  ∀ (s : State) (m : Master) (c : CoreId) (v : Word), s.powered = true →
    (MasterMay s m (coreBase c + 0xF00014) true → (s.core c).seq.loopSkip = 0 →
      let q := (s.core c).seq
      let size := 2 ^ q.log2.toNat
      let n := v.toNat % 65536
      ∃ t, exec (.seqTailWrite m c v) s = .next t
        ∧ ((n < size ∧ (q.tail.toNat + size - q.head.toNat) % size ≤ (n + size - q.head.toNat) % size) → q.head.toNat < size →
            t = s.modSeq c fun q => { q with tail := BitVec.ofNat 16 n, tailRej := false })
        ∧ (¬ (n < size ∧ (q.tail.toNat + size - q.head.toNat) % size ≤ (n + size - q.head.toNat) % size) →
            t = s.modSeq c fun q => { q with tailRej := true }))
    ∧ (MasterMay s m (coreBase c + 0xF00000) true →
      exec (.resume m c) s = .next (s.modSeq c fun q => { q with halted := false }))
    ∧ (MasterMay s m (coreBase c + 0xF20010) true → ∃ t, exec (.vecSrSeedWrite m c v) s = .next t
        ∧ SameCores s t c ∧ t = { s with cores := t.cores } ∧ t.core c = { s.core c with vec := { (s.core c).vec with seed := v, sr := (t.core c).vec.sr } }
        ∧ ∀ j : Fin 512, (t.core c).vec.sr[j] = v + BitVec.ofNat 32 j.val * 0x9E3779B9)

/-- Register writes and reads of granted accesses: a W1C field clears exactly the bits written 1; an RW field holds what was written; an RC counter returns its value and reads 0 afterwards; a _LO read captures
the _HI word that the next _HI read returns (R12, R13, R69). -/
def Sys2Proof.Claims.AccessCodesAreFollowed : Prop :=
  ∀ (s : State) (m : Master) (c : CoreId) (e : EngId) (v : Word), s.powered = true →
    let at_ := fun o : Nat => BitVec.ofNat 40 (coreBase c + o)
    let ok := fun (o : Nat) (w : Bool) => MasterMay s m (coreBase c + o) w
    (ok 0xF10300 true → ∃ t, exec (.registerWrite m (at_ 0xF10300) 4 v) s = .next t ∧ t = s.modCore c fun k => { k with sat := k.sat &&& ~~~(v.setWidth 64) })
    ∧ (ok (0xF4000C + e.val * 0x1000) true → ∃ t, exec (.registerWrite m (at_ (0xF4000C + e.val * 0x1000)) 4 v) s = .next t
        ∧ t = s.modEng c e fun x => { x with flags := x.flags &&& ~~~(v.setWidth 8) })
    ∧ (ok (0xF40004 + e.val * 0x1000) true → ∃ t, exec (.registerWrite m (at_ (0xF40004 + e.val * 0x1000)) 4 v) s = .next t
        ∧ t = s.modEng c e fun x => { x with subn := v.getLsbD 0, zgate := v.getLsbD 1 })
    ∧ (ok 0xF1031C true → ∃ t, exec (.registerWrite m (at_ 0xF1031C) 4 v) s = .next t ∧ t = s.modCore c fun k => { k with bellWake := v.setWidth 16 })
    ∧ (ok 0xF30100 false → exec (.rcRead m (at_ 0xF30100) 4) s
        = .next { s.modMov c fun x => { x with dropCount := 0 } with readBack := { value := (s.core c).mov.dropCount, poisoned := false } })
    ∧ (ok (0xF40010 + e.val * 0x1000) false → exec (.rcRead m (at_ (0xF40010 + e.val * 0x1000)) 4) s
        = .next { s.modEng c e fun x => { x with replayCount := 0 } with readBack := { value := (s.eng c e).replayCount, poisoned := false } })
    ∧ (ok 0xF20020 false → exec (.loReadCapture m (at_ 0xF20020) 4) s
        = .next { s.modVec c fun x => { x with instrHi := some (x.instrCount.extractLsb' 32 32) } with
            readBack := { value := (s.core c).vec.instrCount.setWidth 32, poisoned := false } })
    ∧ (ok 0xF20024 false → exec (.loReadCapture m (at_ 0xF20024) 4) s
        = .next { s.modVec c fun x => { x with instrHi := none } with
            readBack := { value := ((s.core c).vec.instrHi).getD ((s.core c).vec.instrCount.extractLsb' 32 32), poisoned := false } })

/-- A refused access changes no register: a write is discarded and a read delivers poisoned zeros; a reserved address or a core whose state refuses it logs 0x202 in class deferred and freezes nothing; a foreign key logs 0x201
and a register region closed to writes 0x701, in class contained, and both freeze the issuing unit for a violation; only the foreign key is counted (R19, R22, R24, R25). -/
def Sys2Proof.Claims.RefusedAccessesAreLogged : Prop :=
  ∀ (s : State) (c : CoreId) (u : UnitId) (a : BitVec 40) (width : Nat) (v : Word) (write : Bool), s.powered = true →
    let i := if write then Instr.registerWrite (.unit c u) a width v else Instr.rcRead (.unit c u) a width
    let x := s.judge (.unit c u) a.toNat write
    x ≠ .ok → s.acts (.unit c u) = true → s.misfit a.toNat width = false →
    ∃ t, exec i s = .next t ∧ t.mem = s.mem ∧ SameCores s t c ∧ (∀ d, (t.core d).cnt = (s.core d).cnt)
      ∧ (write = false → t.readBack = { value := 0, poisoned := true })
      ∧ (lastRecord t).address = BitVec.ofNat 64 a.toNat
      ∧ ((x = .reserved ∨ ∃ n, x = .coreState n) → (lastRecord t).code = 0x202 ∧ (lastRecord t).cls = .deferred ∧ AllCores s t)
      ∧ t.spire = (if x = .key then s.countKey else s).spire
      ∧ (x = .key → (lastRecord t).code = 0x201 ∧ (lastRecord t).cls = .contained ∧ (t.frozen c u).isSome = true)
      ∧ (x = .readOnly → (lastRecord t).code = 0x701 ∧ (lastRecord t).cls = .contained ∧ (t.frozen c u).isSome = true)

/-- Granted register accesses follow their access codes and rows; refused ones change no register and are logged (R12, R13, R22, R69, R80, R160, R188). -/
def Obligations.RegisterAccessesHaveTheirEffects : Prop := SequencerAndSeedWritesTakeEffect ∧ AccessCodesAreFollowed ∧ RefusedAccessesAreLogged

/-! ## Tile programs and the sequencer (05, 06) -/

namespace Sys2Proof.Claims

open Sys2Proof.Machine

/-- The counters after a list of operations, performed in order. -/
def counts (ops : List (Nat × CntOp)) (v : Nat → Nat) : Nat → Nat :=
  ops.foldl (fun v o n => if n = o.1 then countTo (v n) o.2 else v n) v

/-- The value of counter `n` of core `c`. -/
def cntAt (s : State) (c : CoreId) (n : Nat) : Nat := ((s.core c).cnt[Fin.ofNat 64 n]).toNat

/-- The completion signal of a descriptor (R169). -/
def sigOps (d : Desc) : List (Nat × CntOp) := if dSigEn d then [(dSigCnt d, .add 1)] else []

/-- The copy is the last one of its REPEAT. -/
def ends (l : Loop) : Bool :=
  decide (l.body.length ≤ l.b + 1 ∧ pCount l.desc 0 ≤ l.i0 + 1 ∧ pCount l.desc 1 ≤ l.i1 + 1 ∧ pCount l.desc 2 ≤ l.i2 + 1)

/-- `m` is the copy after `l` in the loop nest of R184. -/
def Follows (l m : Loop) : Prop :=
  m.desc = l.desc ∧ m.body = l.body ∧
  if l.b + 1 < l.body.length then m.b = l.b + 1 ∧ m.i0 = l.i0 ∧ m.i1 = l.i1 ∧ m.i2 = l.i2
  else m.b = 0 ∧ m.mask = none ∧
    if l.i0 + 1 < pCount l.desc 0 then m.i0 = l.i0 + 1 ∧ m.i1 = l.i1 ∧ m.i2 = l.i2
    else m.i0 = 0 ∧ if l.i1 + 1 < pCount l.desc 1 then m.i1 = l.i1 + 1 ∧ m.i2 = l.i2 else m.i1 = 0 ∧ m.i2 = l.i2 + 1

/-- The REPEAT in progress, if the next descriptor is its last copy. -/
def lastCopy (s : State) (c : CoreId) : Option Loop := (s.core c).seq.loop.filter ends

/-- The completion signal of a REPEAT that ends with the next descriptor. -/
def loopSig (s : State) (c : CoreId) : List (Nat × CntOp) :=
  match lastCopy s c with
  | some l => sigOps l.desc
  | none => []

/-- The sequencer of core `c` has moved past its next descriptor: to the next copy, the next of its segment, or the next ring slot (R158, R183, R184). -/
def Stepped (s t : State) (c : CoreId) : Prop :=
  let q := (s.core c).seq
  let r := (t.core c).seq
  match q.loop with
  | some l => (if ends l then r.loop = none else ∃ m, r.loop = some m ∧ Follows l m) ∧ r.segment = q.segment ∧ r.head = q.head
  | none => r.loop = none ∧ match q.segment with
    | some a => r.segment = some (a + 64) ∧ r.head = q.head
    | none => r.segment = none ∧ r.head = BitVec.ofNat 16 ((q.head.toNat + 1) % 2 ^ q.log2.toNat)

/-- Only the sequencer of core `c`, its counters with the waits their bells wake, data held early for descriptors not dispatched, and at a phase entry the preset and
the average of Bronze may differ; a damaged word may be found in the descriptor read (R186, R190, R235). -/
structure SeqFrame (s t : State) (c : CoreId) (d : Desc) : Prop where
  bytes : SameBytes s t
  others : SameCores s t c
  die : t = { s with cores := t.cores, mem := t.mem, bronze := t.bronze, blf := t.blf, free := t.free }
  intact : s.mem.upsets = [] → t.mem = s.mem
  work : ∀ w, w.spec = false → (w ∈ (t.core c).mov.work ↔ w ∈ (s.core c).mov.work)
  held : ∀ b, b.forId.isSome = true → (b ∈ (t.core c).mov.buffer ↔ b ∈ (s.core c).mov.buffer)
  phase : (t.core c).seq.phase = BitVec.ofNat 6 (dPhase d)
  same : (s.core c).seq.phase = BitVec.ofNat 6 (dPhase d) → t.bronze = s.bronze ∧ t.free = s.free ∧ (t.core c).k = (s.core c).k
  core : ∃ l, t.core c = rung l { s.core c with
    cnt := (t.core c).cnt, sat := (t.core c).sat, under := (t.core c).under, seq := (t.core c).seq, k := (t.core c).k
    mov := { (s.core c).mov with buffer := (t.core c).mov.buffer, work := (t.core c).mov.work }
    visitStart := (t.core c).visitStart, visitNoLearn := (t.core c).visitNoLearn }

/-- The next descriptor of core `c`, of type code `code`, is ready to act: nothing holds dispatch, it is well formed, and its header wait, mask bits and predicate let it run. -/
def Acts (s : State) (c : CoreId) (n : NextDesc) (code : Nat) : Prop :=
  s.powered = true ∧ s.seqReady c = true ∧ s.nextDesc c = some n ∧ dType n.d = code ∧ dPerformer n.d = none ∧ descBad n.seg n.d = false
    ∧ s.maskSays c n.d = .run ∧ (s.core c).predRuns n.d = true ∧ (s.core c).seq.waitMet = none
    ∧ (dWaitThresh n.d = 0 ∨ dWaitThresh n.d ≤ cntAt s c (dWaitCnt n.d))

/-- An own descriptor completes: it counts as retired, the counters go through `ops` and then the completion signals, its own and that of a REPEAT it ends. -/
def OwnDone (s t : State) (c : CoreId) (n : NextDesc) (ops : List (Nat × CntOp)) : Prop :=
  SeqFrame s t c n.d ∧ (∀ x, x < 64 → cntAt t c x = counts (ops ++ sigOps n.d ++ loopSig s c) (cntAt s c) x)
    ∧ (t.core c).seq.retired = (s.core c).seq.retired + (if (lastCopy s c).isSome then 2 else 1)

/-- The queued rows with the descriptors each dispatches and the unit that performs them (Table TIL-3). -/
def queuedRows (c : CoreId) : List (Instr × (Desc → Bool) × (Desc → UnitId)) :=
  let eng := fun d : Desc => UnitId.eng (dUnit d)
  let acc := fun (i : Instr) (op : Nat) => (i, (fun d : Desc => dType d == 3 && dBits d 8 0 4 == op), eng)
  let mov := fun (i : Instr) (code : Nat) => (i, (fun d : Desc => dType d == code), fun _ : Desc => UnitId.mover)
  [(.loadb c, fun d => dType d == 1, eng), (.stream c, fun d => dType d == 2, eng),
   acc (.openZero c .dispatch) 0, acc (.openCupola c .dispatch) 1, acc (.openGroup c .dispatch) 2, acc (.openChain c .dispatch) 3,
   acc (.close c .dispatch) 4, acc (.closeChain c .dispatch) 5, acc (.save c .dispatch) 6, acc (.status c .dispatch) 7,
   (.vec c .dispatch, fun d => dType d == 0x10, fun _ => .vec),
   mov (.move c .dispatch) 0x20, mov (.gather c .dispatch) 0x21, mov (.scatter c .dispatch) 0x22, mov (.remoteWrite c .dispatch) 0x23,
   mov (.remoteRead c .dispatch) 0x24, mov (.mcast c .dispatch) 0x25, mov (.compress c .dispatch) 0x26,
   (.signal c .dispatch, fun d => dType d == 0x31 && dBits d 9 0 1 == 1, fun _ => .mover)]

/-- A word of the next copy: the body's word plus the products of the stride slots that name it, modulo 2^32 (R184). -/
def copyWord (l : Loop) (w : Nat) : Int :=
  let i := fun level => if level = 0 then l.i0 else if level = 1 then l.i1 else l.i2
  let slots := (List.range 8).map fun n => field l.desc.toNat (192 + 40 * n) 40
  let add := (slots.filter fun x => field x 0 6 == l.b && field x 6 4 == w && field x 10 2 != 3).map fun x =>
    (i (field x 10 2) : Int) * (field x 12 24 - if 2 ^ 23 ≤ field x 12 24 then 2 ^ 24 else 0)
  ((field ((l.body[l.b]?).getD (0, 0)).1.toNat (32 * w) 32 : Int) + add.sum) % 2 ^ 32

end Sys2Proof.Claims

/-- Every queued type: when its unit's queue holds fewer than 64 entries and fewer than 1,024 descriptors are in flight, its dispatch completes, the descriptor becoming the youngest entry of that queue with the subnormal and zero-gating
modes of its engine; otherwise it stalls and nothing changes (R66, R165 to R167, R172, R173, R182). -/
def Obligations.QueuedDescriptorsEnterTheirQueue : Prop :=
  ∀ (s : State) (c : CoreId) (n : NextDesc), s.powered = true → s.seqReady c = true → s.nextDesc c = some n → ∀ r ∈ queuedRows c, r.2.1 n.d = true →
    let k := s.core c
    let u := r.2.2 n.d
    ((k.unitQ u).queue.length < 64 → k.inFlight < 1024 →
      ∃ t en, exec r.1 s = .next t ∧ ((t.core c).unitQ u).queue = (k.unitQ u).queue ++ [en] ∧ en.bits = n.d ∧ en.off = n.off ∧ en.id = k.seq.issued
        ∧ en.maskSkip = (s.maskSays c n.d == .skip) ∧ (en.taken = .malformed ↔ s.maskSays c n.d = .bad)
        ∧ (∀ e, u = .eng e → en.subn = (s.eng c e).subn ∧ en.zgate = (s.eng c e).zgate)
        ∧ (∀ v, v ≠ u → ((t.core c).unitQ v).queue = (k.unitQ v).queue) ∧ (∀ v, ((t.core c).unitQ v).active = (k.unitQ v).active)
        ∧ Stepped s t c ∧ (t.core c).seq.issued = k.seq.issued + 1 ∧ (t.core c).seq.phase = BitVec.ofNat 6 (dPhase n.d)
        ∧ (∀ x, x < 64 → cntAt t c x = counts (loopSig s c) (cntAt s c) x)
        ∧ (t.core c).seq.retired = k.seq.retired + (if (lastCopy s c).isSome then 1 else 0)
        ∧ SameBytes s t ∧ SameCores s t c ∧ t = { s with cores := t.cores, mem := t.mem, bronze := t.bronze, blf := t.blf, free := t.free }
        ∧ (s.mem.upsets = [] → t.mem = s.mem))
    ∧ (64 ≤ (k.unitQ u).queue.length ∨ 1024 ≤ k.inFlight → exec r.1 s = .next s)

/-- WAIT, local SIGNAL, PHASE, FENCE and HALT that may act complete: a met WAIT subtracts DEC, a SIGNAL does its operation, PHASE enters its phase, each retiring and moving on; an unmet WAIT puts the
sequencer to sleep with its timeout; FENCE and HALT begin to hold dispatch (R181, R182, R186 to R188). -/
def Sys2Proof.Claims.SequencerPerformsItsOwnDescriptors : Prop :=
  ∀ (s : State) (c : CoreId) (n : NextDesc),
    (Acts s c n 0x30 → ∃ t, exec (.wait c) s = .next t ∧ Stepped s t c
      ∧ OwnDone s t c n (if dWaitThresh n.d = 0 then [] else [(dWaitCnt n.d, .sub (dBytes n.d 8 2))]))
    ∧ (Acts s c n 0x31 → ∃ t, exec (.signal c .dispatch) s = .next t ∧ Stepped s t c
      ∧ OwnDone s t c n [(dBits n.d 10 0 6, let v := dBytes n.d 12 2
          if dBytes n.d 8 1 = 0 then .add v else if dBytes n.d 8 1 = 1 then .sub v else .set v)])
    ∧ (Acts s c n 0x42 → ∃ t, exec (.phase c) s = .next t ∧ Stepped s t c ∧ OwnDone s t c n [])
    ∧ (Acts s c n 0x43 → ∃ t f, exec (.fence c) s = .next t ∧ SeqFrame s t c n.d ∧ (t.core c).cnt = (s.core c).cnt
      ∧ (t.core c).seq = { (s.core c).seq with
          fencing := some f, issued := (s.core c).seq.issued + 1, phase := (t.core c).seq.phase, loop := (t.core c).seq.loop }
      ∧ f.entry.id = (s.core c).seq.issued ∧ f.entry.bits = n.d ∧ f.entry.off = n.off ∧ f.marks = none ∧ f.failed = false)
    ∧ (Acts s c n 0x44 → ∃ t en, exec (.halt c) s = .next t ∧ SeqFrame s t c n.d ∧ (t.core c).cnt = (s.core c).cnt
      ∧ (t.core c).seq = { (s.core c).seq with
          halting := some en, issued := (s.core c).seq.issued + 1, phase := (t.core c).seq.phase, loop := (t.core c).seq.loop }
      ∧ en.bits = n.d ∧ en.id = (s.core c).seq.issued)
    ∧ (s.powered = true → s.seqReady c = true → s.nextDesc c = some n → dType n.d = 0x30 → descBad n.seg n.d = false → s.maskSays c n.d = .run →
        (s.core c).predRuns n.d = true → cntAt s c (dWaitCnt n.d) < dWaitThresh n.d →
      ∃ t w, exec (.wait c) s = .next t ∧ SeqFrame s t c n.d ∧ (t.core c).cnt = (s.core c).cnt ∧ (t.core c).seq.wait = some w
        ∧ (t.core c).seq.head = (s.core c).seq.head ∧ (t.core c).seq.retired = (s.core c).seq.retired
        ∧ w.kind = .waitDesc ∧ w.counter.toNat = dWaitCnt n.d ∧ w.thresh.toNat = dWaitThresh n.d ∧ w.desc = n.off ∧ w.elapsed = 0 ∧ w.began = s.now
        ∧ w.timeout = (if dBytes n.d 12 4 = 0 then s.blf.waitDefault.toNat else dBytes n.d 12 4))

/-- JUMP and REPEAT that may act complete: MODE 0 skips COUNT ring slots, MODE 1 enters the segment at TARGET, MODE 2 moves by TARGET descriptors within it, MODE 3 returns to the ring; a REPEAT reads its BODY into the loop buffer, releases
its slots, and every copy then dispatched is the body's descriptor with the products of its stride slots added, word by word (R159, R183, R184). -/
def Obligations.JumpAndRepeatDirectTheFetch : Prop :=
  ∀ (s : State) (c : CoreId) (n : NextDesc), (s.core c).seq.loop = none →
    let q := (s.core c).seq
    let size := 2 ^ q.log2.toNat
    let held := (q.tail.toNat + size - q.head.toNat) % size
    (Acts s c n 0x40 → ∃ t, exec (.jump c) s = .next t ∧ OwnDone s t c n [] ∧ (t.core c).seq.loop = none ∧
      let r := (t.core c).seq
      let one := if n.seg then 0 else 1
      (dBytes n.d 8 1 = 0 → q.loopSkip = 0 → q.log2.toNat ≤ 16 → r.segment = q.segment.map (· + 64)
        ∧ r.head = BitVec.ofNat 16 ((q.head.toNat + one + min (dBytes n.d 12 4) (held - one)) % size)
        ∧ r.loopSkip = dBytes n.d 12 4 - (held - one))
      ∧ (dBytes n.d 8 1 = 1 → r.segment = some (dBytes n.d 12 4) ∧ r.head = if n.seg then q.head else BitVec.ofNat 16 ((q.head.toNat + 1) % size))
      ∧ (dBytes n.d 8 1 = 2 → r.head = q.head ∧ ∃ a, r.segment = some a
          ∧ (a : Int) = ((n.off : Int) + 64 * (dBytes n.d 12 4 - if 2 ^ 31 ≤ dBytes n.d 12 4 then 2 ^ 32 else 0)) % 2 ^ 32)
      ∧ (dBytes n.d 8 1 = 3 → r.head = q.head ∧ r.segment = none))
    ∧ (Acts s c n 0x41 → (n.seg = true ∨ dBytes n.d 14 1 + 1 ≤ held) → s.bodyBad c n = false →
      ∃ t l, exec (.repeatDesc c) s = .next t ∧ SeqFrame s t c n.d ∧ (t.core c).cnt = (s.core c).cnt ∧ (t.core c).seq.loop = some l
        ∧ (t.core c).seq.retired = q.retired ∧ l.desc = n.d ∧ l.body.length = dBytes n.d 14 1 ∧ l.i0 = 0 ∧ l.i1 = 0 ∧ l.i2 = 0 ∧ l.b = 0
        ∧ (∀ i, i < dBytes n.d 14 1 →
            let o := if n.seg then n.off + 64 * (i + 1) else q.ringBase.toNat + ((q.head.toNat + 1 + i) % size) * 64
            l.body[i]? = some (s.fetchDesc c o, o))
        ∧ (n.seg = false → (t.core c).seq.segment = none ∧ (t.core c).seq.head = BitVec.ofNat 16 ((q.head.toNat + dBytes n.d 14 1 + 1) % size))
        ∧ (n.seg = true → (t.core c).seq.head = q.head ∧ (t.core c).seq.segment = some (n.off + 64 * (dBytes n.d 14 1 + 1))))
    ∧ (∀ (t : State) (l : Loop), (t.core c).seq.loop = some l →
      ∃ m, t.nextDesc c = some m ∧ (∀ w, w < 16 → (field m.d.toNat (32 * w) 32 : Int) = copyWord l w) ∧ m.off = ((l.body[l.b]?).getD (0, 0)).2)

/-- A descriptor the sequencer performs, with a met wait: where its mask bits or its predicate do not let it run it is skipped, counted as skipped and retired with its completion signal, its counter operation not done, its JUMP not taken; one that is malformed, or gated outside a masked REPEAT, is refused with 0x502 and freezes
the sequencer; one whose header wait is unmet puts the sequencer to sleep for the default timeout (R141, R144, R145, R168, R192). -/
def Sys2Proof.Claims.OwnDescriptorsAreSkippedRefusedOrWait : Prop :=
  ∀ (s : State) (c : CoreId) (n : NextDesc) (i : Instr) (code : Nat), s.powered = true → s.seqReady c = true → s.nextDesc c = some n →
    (i, code) ∈ [(Instr.signal c .dispatch, 0x31), (.jump c, 0x40), (.phase c, 0x42), (.fence c, 0x43), (.halt c, 0x44), (.wait c, 0x30)] →
    dType n.d = code → dPerformer n.d = none → (s.core c).seq.waitMet = none →
    let verdict := s.maskSays c n.d
    let isMet := dWaitThresh n.d ≤ cntAt s c (dWaitCnt n.d)
    (descBad n.seg n.d = false → verdict ≠ .bad → isMet → verdict = .skip ∨ (s.core c).predRuns n.d = false →
      ∃ t, exec i s = .next t ∧ Stepped s t c ∧ OwnDone s t c n [] ∧ (t.core c).seq.skipped = satAdd (s.core c).seq.skipped 1
        ∧ (t.core c).seq.fencing = none ∧ (t.core c).seq.halting = none)
    ∧ (descBad n.seg n.d = true ∨ verdict = .bad →
      ∃ t, exec i s = .next t ∧ t.frozen c .seq = some { cause := .refusal, discard := true, answer := none } ∧ (lastRecord t).code = 0x502 ∧ (lastRecord t).cls = .contained
        ∧ (lastRecord t).detail = BitVec.ofNat 32 n.off ∧ (t.core c).seq.faultDesc = BitVec.ofNat 23 n.off ∧ (t.core c).cnt = (s.core c).cnt ∧ SameBytes s t
        ∧ (t.core c).seq.head = (s.core c).seq.head ∧ (t.core c).seq.retired = (s.core c).seq.retired ∧ SameCores s t c)
    ∧ (code ≠ 0x30 → descBad n.seg n.d = false → verdict ≠ .bad → ¬ isMet →
      ∃ t w, exec i s = .next t ∧ SeqFrame s t c n.d ∧ (t.core c).cnt = (s.core c).cnt ∧ (t.core c).seq.wait = some w ∧ (t.core c).seq.head = (s.core c).seq.head
        ∧ w.kind = .header ∧ w.counter.toNat = dWaitCnt n.d ∧ w.thresh.toNat = dWaitThresh n.d ∧ w.desc = n.off ∧ w.timeout = s.blf.waitDefault.toNat)

/-- A REPEAT outside a loop: one whose body has not been handed over is waited for, nothing changing; one whose predicate does not let it run is skipped with its body, whole, counted once as skipped and
retired with its completion signal; one that is malformed, that is gated, or whose body holds a JUMP, a REPEAT or reaches past its segment is refused with 0x502; one whose header wait is unmet puts the
sequencer to sleep for the default timeout (R141, R144, R145, R168, R184, R192). -/
def Sys2Proof.Claims.RepeatsAreSkippedRefusedOrWait : Prop :=
  ∀ (s : State) (c : CoreId) (n : NextDesc), s.powered = true → s.seqReady c = true → s.nextDesc c = some n → dType n.d = 0x41 →
    (s.core c).seq.waitMet = none → (s.core c).seq.loop = none →
    let q := (s.core c).seq
    let size := 2 ^ q.log2.toNat
    let len := dBytes n.d 14 1
    let handed := n.seg = true ∨ len + 1 ≤ (q.tail.toNat + size - q.head.toNat) % size
    let isMet := dWaitThresh n.d ≤ cntAt s c (dWaitCnt n.d)
    (descBad n.seg n.d = false → ¬ handed → exec (.repeatDesc c) s = .next s)
    ∧ (descBad n.seg n.d = false → handed → s.bodyBad c n = false → s.maskSays c n.d ≠ .bad → isMet → (s.core c).predRuns n.d = false →
      ∃ t, exec (.repeatDesc c) s = .next t ∧ SeqFrame s t c n.d ∧ (t.core c).seq.loop = none ∧ (t.core c).seq.retired = q.retired + 1
        ∧ (t.core c).seq.skipped = satAdd q.skipped 1 ∧ (∀ x, x < 64 → cntAt t c x = counts (sigOps n.d) (cntAt s c) x)
        ∧ (n.seg = false → (t.core c).seq.segment = none ∧ (t.core c).seq.head = BitVec.ofNat 16 ((q.head.toNat + len + 1) % size))
        ∧ (n.seg = true → (t.core c).seq.head = q.head ∧ (t.core c).seq.segment = some (n.off + 64 * (len + 1))))
    ∧ (descBad n.seg n.d = true ∨ (handed ∧ (s.bodyBad c n = true ∨ s.maskSays c n.d = .bad)) →
      ∃ t, exec (.repeatDesc c) s = .next t ∧ t.frozen c .seq = some { cause := .refusal, discard := true, answer := none }
        ∧ (lastRecord t).code = 0x502 ∧ (lastRecord t).cls = .contained ∧ (lastRecord t).detail = BitVec.ofNat 32 n.off
        ∧ (t.core c).seq.faultDesc = BitVec.ofNat 23 n.off ∧ (t.core c).cnt = (s.core c).cnt ∧ SameBytes s t ∧ (t.core c).seq.loop = none
        ∧ (t.core c).seq.head = q.head ∧ (t.core c).seq.retired = q.retired ∧ SameCores s t c)
    ∧ (descBad n.seg n.d = false → handed → s.bodyBad c n = false → s.maskSays c n.d ≠ .bad → ¬ isMet →
      ∃ t w, exec (.repeatDesc c) s = .next t ∧ SeqFrame s t c n.d ∧ (t.core c).cnt = (s.core c).cnt ∧ (t.core c).seq.wait = some w
        ∧ (t.core c).seq.head = q.head ∧ (t.core c).seq.loop = none
        ∧ w.kind = .header ∧ w.counter.toNat = dWaitCnt n.d ∧ w.thresh.toNat = dWaitThresh n.d ∧ w.desc = n.off ∧ w.timeout = s.blf.waitDefault.toNat)

/-- The sequencer performs, skips, refuses or waits at its own descriptors. -/
def Obligations.SequencerPerformsOrSkipsItsOwn : Prop :=
  SequencerPerformsItsOwnDescriptors ∧ OwnDescriptorsAreSkippedRefusedOrWait ∧ RepeatsAreSkippedRefusedOrWait

namespace Sys2Proof.Claims

open Sys2Proof.Machine

/-- Only core `c` may differ. -/
def OnlyCore (s t : State) (c : CoreId) : Prop := t = { s with cores := t.cores } ∧ SameCores s t c

/-- The head `en` of the queue of unit `u`, not frozen in a live core. -/
def Head (s : State) (c : CoreId) (u : UnitId) (en : QEntry) : Prop :=
  s.powered = true ∧ (s.core c).live = true ∧ s.frozen c u = none ∧ u ≠ .seq ∧ ∃ r, ((s.core c).unitQ u).queue = en :: r ∧ ∀ x ∈ r, x.id ≠ en.id

/-- Its header wait is met, or was met before (R168). -/
def Reached (s : State) (c : CoreId) (en : QEntry) : Prop := en.runs.isSome = true ∨ dWaitThresh en.bits ≤ cntAt s c (dWaitCnt en.bits)

/-- Whether its mask bits and its predicate let it run, read once its wait is met (R144, R145). -/
def mayRun (s : State) (c : CoreId) (en : QEntry) : Bool := en.runs.getD (!en.maskSkip && (s.core c).predRuns en.bits)

/-- Unit `u` took the head `en` out of its queue and appended it to its started descriptors, `null` saying that it is skipped. -/
def TookHead (s t : State) (c : CoreId) (u : UnitId) (en : QEntry) (null : Bool) (p : Progress) : Prop :=
  ((t.core c).unitQ u).queue = ((s.core c).unitQ u).queue.tail ∧ ((t.core c).unitQ u).wait = none
    ∧ ∃ a, ((t.core c).unitQ u).active = ((s.core c).unitQ u).active ++ [a] ∧ a.entry.id = en.id ∧ a.entry.bits = en.bits ∧ a.null = null ∧ a.progress = p
      ∧ a.steps = 0 ∧ a.promoted = 0

/-- Group `g` as OPEN leaves it: state 1, its promotion count, bands and counts of R121 cleared. -/
def Opened (g : Group) : Prop :=
  g.state = .opened ∧ g.promoted = 0 ∧ g.replayed = 0 ∧ g.arrived = 0 ∧ g.wait = none ∧ ∀ b, b < 32 → g.bands[b]! = 0

end Sys2Proof.Claims

/-- HEADER_WAIT_MET: an unmet head sleeps for the default timeout; a met one that its predicate or mask stops becomes a null entry; a malformed one is refused in place with 0x502; an ACC, a vector or mover descriptor of an idle unit and a STREAM that fits
the installed tile start, a staged LOADB completes and its tile is next to be installed in turn, a STREAM zeroing a closed group; the sequencer's met header wait ends (R39, R64, R115, R144, R168, R192). -/
def Sys2Proof.Claims.QueueHeadsStartInOrder : Prop :=
  ∀ (s : State) (c : CoreId) (u : UnitId) (en : QEntry), Head s c u en →
    let d := en.bits
    let q := (s.core c).unitQ u
    let i := Instr.headerWaitMet c u
    (dType d ≠ 1 → ¬ Reached s c en → q.wait = none →
      ∃ t w, exec i s = .next t ∧ OnlyCore s t c ∧ t.core c = (s.modQ c u fun q => { q with wait := some w }).core c
        ∧ w.kind = .header ∧ w.counter.toNat = dWaitCnt d ∧ w.thresh.toNat = dWaitThresh d ∧ w.desc = en.off ∧ w.timeout = s.blf.waitDefault.toNat ∧ w.elapsed = 0)
    ∧ (dType d ≠ 1 → Reached s c en → en.taken ≠ .malformed → predOk (dPred d) = true → mayRun s c en = false →
      ∃ t, exec i s = .next t ∧ OnlyCore s t c ∧ TookHead s t c u en true .done)
    ∧ (dType d ≠ 1 → Reached s c en → en.taken = .malformed ∨ predOk (dPred d) = false ∨ (mayRun s c en = true ∧ descBad en.inSegment d = true) →
      ∃ t, exec i s = .next t ∧ t.frozen c u = some { cause := .refusal, discard := true, answer := none } ∧ (lastRecord t).code = 0x502 ∧ (lastRecord t).cls = .contained
        ∧ (lastRecord t).detail = BitVec.ofNat 32 en.off ∧ (t.core c).seq.faultDesc = BitVec.ofNat 23 en.off ∧ SameBytes s t ∧ SameCores s t c
        ∧ (∃ x, ((t.core c).unitQ u).queue.head? = some x ∧ x.id = en.id ∧ x.taken = .refused) ∧ ((t.core c).unitQ u).active = q.active)
    ∧ (Reached s c en → en.taken ≠ .malformed → mayRun s c en = true → descBad en.inSegment d = false →
        ((∃ e, u = .eng e ∧ dType d = 3) ∨ ((u = .vec ∨ u = .mover) ∧ dType d ≠ 1 ∧ ∀ a ∈ q.active, a.progress = .done)) →
      ∃ t, exec i s = .next t ∧ OnlyCore s t c ∧ TookHead s t c u en false .started)
    ∧ (∀ e slot, u = .eng e → dType d = 1 → en.taken = .staged slot →
      ∃ t, exec i s = .next t ∧ OnlyCore s t c ∧ TookHead s t c u en false .done ∧ (t.eng c e).toInstall = (s.eng c e).toInstall ++ [slot]
        ∧ (t.eng c e).array = (s.eng c e).array)
    ∧ (∀ e, u = .eng e → dType d = 1 → en.taken = .skipped → ∃ t, exec i s = .next t ∧ OnlyCore s t c ∧ TookHead s t c u en true .done)
    ∧ (∀ e g, u = .eng e → dType d = 2 → g = Fin.ofNat 8 (dBits d 8 0 3) → Reached s c en → en.taken ≠ .malformed → mayRun s c en = true → descBad en.inSegment d = false →
        (s.eng c e).streamFree d = true → (s.eng c e).streamUnfit d = false →
      ∃ t, exec i s = .next t ∧ TookHead s t c u en false .started ∧ SameCores s t c ∧ t = { s with cores := t.cores, mem := t.mem }
        ∧ ((s.group c e g).state ≠ .closed → t.mem = s.mem)
        ∧ ((s.group c e g).state = .closed → Opened (t.group c e g) ∧ SameBytesBut s t (groupBase c e g) 0x2000
            ∧ ∀ a, groupBase c e g ≤ a → a < groupBase c e g + 0x2000 → t.mem.byteAt a = 0))
    ∧ (∀ w n, (s.core c).seq.wait = some w → (s.core c).seq.freeze = none → w.kind = .header → met s c w = true → s.nextDesc c = some n →
      exec (.headerWaitMet c .seq) s = .next (s.modSeq c fun q => { q with wait := none, waitMet := some ((s.core c).predRuns n.d) }))

/-- DESCRIPTOR_RETIRE: the oldest started descriptor of a unit, once complete, leaves the tracker with its completion signal and the counts of retired and skipped ones; a FENCE ends when its units hold nothing and, with REMOTE, after its marks were sent and came
back; a HALT ends when no unit holds a descriptor, leaving the sequencer halted (R167, R169, R187, R188). -/
def Sys2Proof.Claims.DescriptorsRetireInQueueOrder : Prop :=
  ∀ (s : State) (c : CoreId), s.powered = true →
    (∀ u a r, u ≠ .seq → ((s.core c).unitQ u).active = a :: r →
      (a.progress ≠ .done → exec (.descriptorRetire c u) s = .next s)
      ∧ (a.progress = .done → ∃ t, exec (.descriptorRetire c u) s = .next t ∧ ((t.core c).unitQ u).active = r
        ∧ ((t.core c).unitQ u).queue = ((s.core c).unitQ u).queue ∧ (t.core c).seq.retired = (s.core c).seq.retired + 1
        ∧ (t.core c).seq.skipped = (if a.null then satAdd (s.core c).seq.skipped 1 else (s.core c).seq.skipped)
        ∧ (∀ x, x < 64 → cntAt t c x = counts (sigOps a.entry.bits) (cntAt s c) x)
        ∧ SameBytes s t ∧ SameCores s t c ∧ t = { s with cores := t.cores, blf := t.blf }))
    ∧ ((s.core c).live = true → (s.core c).seq.freeze = none →
      let q := (s.core c).seq
      let free := fun mask => ∀ n, n < 6 → bitOf mask n = true → ∀ u, unitOf n = some u → ((s.core c).unitQ u).queue = [] ∧ ((s.core c).unitQ u).active = []
      (∀ f, q.fencing = some f →
        let units := dBits f.entry.bits 8 0 7
        (¬ free units → exec (.descriptorRetire c .seq) s = .next s)
        ∧ (free units → bitOf units 6 = true → f.marks = none → (s.core c).mov.fenceDests ≠ [] →
          ∃ t, exec (.descriptorRetire c .seq) s = .next t ∧ OnlyCore s t c ∧ (t.core c).seq.fencing = some { f with marks := some (s.core c).mov.fenceDests.length }
            ∧ (t.core c).mov.fenceDests = [] ∧ ∃ w, (t.core c).mov.work = (s.core c).mov.work ++ w ∧ w.map (fun x => (x.kind, x.dest, x.signal))
                = (s.core c).mov.fenceDests.map fun x => (NetKind.fence, x.1.setWidth 16, x.2))
        ∧ (free units → (bitOf units 6 = false ∧ f.marks = none) ∨ (f.marks = none ∧ (s.core c).mov.fenceDests = []) ∨ f.marks = some 0 →
          ∃ t, exec (.descriptorRetire c .seq) s = .next t ∧ (t.core c).seq.fencing = none ∧ Stepped s t c
            ∧ (∀ x, x < 64 → cntAt t c x = counts (sigOps f.entry.bits ++ loopSig s c) (cntAt s c) x) ∧ SameBytes s t ∧ SameCores s t c))
      ∧ (∀ en, q.fencing = none → q.halting = some en →
        (¬ free 0x3F → exec (.descriptorRetire c .seq) s = .next s)
        ∧ (free 0x3F → ∃ t, exec (.descriptorRetire c .seq) s = .next t ∧ (t.core c).seq.halting = none ∧ (t.core c).seq.halted = true ∧ Stepped s t c
            ∧ (∀ x, x < 64 → cntAt t c x = counts (sigOps en.bits ++ loopSig s c) (cntAt s c) x) ∧ SameBytes s t ∧ SameCores s t c)))

/-- Queue heads start, and descriptors retire, in the order of their queue. -/
def Obligations.QueueHeadsStartAndRetire : Prop := QueueHeadsStartInOrder ∧ DescriptorsRetireInQueueOrder

/-! ## The matrix engines (02, 04) -/

namespace Sys2Proof.Claims

open Sys2Proof.Machine

/-- The number in `n` bytes of core `c`'s Cupola from `off`; bytes past its end read 0 (R22, R446). -/
def cupNum (s : State) (c : CoreId) (off n : Nat) : Nat :=
  leNat ((List.range n).map fun b => if off + b < 0x600000 then s.mem.byteAt (coreBase c + off + b) else 0)

/-- Bytes per element of the format with a code of Table NUM-1. -/
def esize (code : Nat) : Nat := if code = 0 then 4 else if code = 2 ∨ code = 3 then 1 else 2

/-- An element as the Lantern holds it: FP32 as it is, the narrower formats widened to FP16 (R37, R45). -/
def held (code bits : Nat) : Nat := if code = 0 then bits else widen16 ((fmtOf code).getD .fp16) bits

/-- The K position that stored row `r` of column `n` serves: in a 2:4 tile the pair of 2-bit indices of R130, four K positions for each two stored rows. -/
def servedK (s : State) (c : CoreId) (d : Desc) (r n : Nat) : Nat :=
  if lGeom d = 1 then
    let b := cupNum s c (lIdx d + (r / 2) * 16 + n / 2) 1
    4 * (r / 2) + field b (4 * (n % 2) + 2 * (r % 2)) 2
  else r

/-- The element of stored row `r`, column `n` of a LOADB's tile: +0 beyond its extents (R37, R131, R172). -/
def tileNum (s : State) (c : CoreId) (d : Desc) (r n : Nat) : Nat :=
  let es := esize (lFmt d)
  let row := if lGeom d = 1 then lVal d + r * 32 * es else lVal d + r * lPitch d
  if n < lN d ∧ servedK s c d r n < lK d then held (lFmt d) (cupNum s c (row + n * es) es) else 0

/-- The oldest LOADB of engine `e` not yet taken, whose header wait is met (R37). -/
def StageHead (s : State) (c : CoreId) (e : EngId) (en : QEntry) : Prop :=
  s.powered = true ∧ (s.core c).live = true ∧ (s.eng c e).q.freeze = none ∧ (s.eng c e).q.oldestLoadb = some en ∧ Reached s c en

/-- The value of an element; infinities and NaNs travel in the side lane and count 0 here. -/
def elQ (x : El) : ℚ :=
  match x.v with
  | .fin neg m e => (if neg then -1 else 1) * (m * (2 : ℚ) ^ e)
  | _ => 0

/-- The exact sum of a cube's products for one output (R31). -/
def cubeQ (row : Array El) (tile : Array (Array El)) (terms : List (Nat × Nat × Nat)) : ℚ :=
  (terms.map fun t => elQ ((row[t.1]?).getD El.zero) * elQ (elAt tile t.2.1 t.2.2)).sum

/-- `q` is the integer nearest to `x`, of two the even one. -/
def NearestEven (x : ℚ) (q : ℤ) : Prop := |x - q| < 1 / 2 ∨ (|x - q| = 1 / 2 ∧ q % 2 = 0)

/-- An element that a B-stage or A-feed position may hold: +0 beyond the extents, or an encoding of `f` under a block scale. -/
def Staged (f : Fmt) (x : El) : Prop := x = El.zero ∨ ∃ subn scale bits, scale < 256 ∧ bits < 2 ^ width f ∧ x = elem f subn scale bits

/-- The A element k of output row m of a STREAM: its bits as the A-feed holds them and its scale code, by R50 with CONV and Table TIL-6 without; (0, 0x7F) beyond the extent and in padding. -/
def aNum (s : State) (c : CoreId) (d : Desc) (m k : Nat) : Nat × Nat :=
  let es := esize (sFmt d)
  let read := fun (a sa : Nat) => (held (sFmt d) (cupNum s c a es), if sMode d = 0 then 0x7F else cupNum s c sa 1)
  let blk := if sMode d = 1 then 16 else 32
  if sK d ≤ k then (0, 0x7F)
  else if sConv d then
    let mo := sM0 d + m
    let kk := sK0 d + k
    let iy : Int := (mo / sOutW d) * sSy d + (kk / (sC d * sFw d)) * sDy d - sPy d
    let ix : Int := (mo % sOutW d) * sSx d + (kk / sC d % sFw d) * sDx d - sPx d
    if sFh d * sFw d * sC d ≤ kk ∨ iy < 0 ∨ (sInH d : Int) ≤ iy ∨ ix < 0 ∨ (sInW d : Int) ≤ ix then (0, 0x7F)
    else
      let p := (iy * sInW d + ix).toNat
      read (sAddr d + (p * sC d + kk % sC d) * es) (sScale d + p * sScalePitch d + kk % sC d / blk)
  else read (sAddr d + m * sPitch d + k * es) (sScale d + m * sScalePitch d + k / blk)

/-- The STREAM in the feeder of engine `e`, the tile in its array and the step's number of rows, when nothing holds the step at entry: no step in flight and no
Cupola write ahead of it in the queue (R46, R107, R109, R171). -/
def Feeds (s : State) (c : CoreId) (e : EngId) (a : Active) (ar : ArrayTile) (n : Nat) : Prop :=
  let x := s.eng c e
  let h := if sGeom a.entry.bits = 2 then 2 else 4
  s.powered = true ∧ (s.core c).live = true ∧ x.q.goesOn = true ∧ x.q.feeding = some a ∧ x.array = some ar
    ∧ n = min h (sM a.entry.bits - a.steps * h)
    ∧ x.holdsEntry (sGroup a.entry.bits) (stepRow0 a.entry.bits a.steps) n = false
    ∧ x.q.writesAhead a ((List.range n).map fun i => a.steps * h + i) = false

/-- Value (r, j) of group `g` (Table ENG-3). -/
def groupNum (s : State) (c : CoreId) (e : EngId) (g : GroupId) (r j : Nat) : Nat := numberAt s (groupBase c e g + r * 128 + 4 * j) 4

end Sys2Proof.Claims

/-- R104, R31 and R103: an output's chunk is the sum of its cubes' exact four-product sums, each rounded once to the nearest grid unit with ties to even; the step overflows exactly when a cube's sum or a partial sum leaves the S20 or S40 range, and otherwise over eight cubes the chunk differs from the exact
sum by at most four units. -/
def Obligations.ChunksAreSumsOfRoundedCubeSums : Prop :=
  ∀ (geom hr : Nat) (a b : Int) (row : Array El) (tile : Array (Array El)) (cubes : List (List (Nat × Nat × Nat))),
    let bits : Int := if geom = 2 then 38 else 18
    let lim : Int := 2 ^ (bits.toNat + 1)
    let u : Int := a + b + hr - bits
    let r := outputChunk geom hr (some a) (some b) row tile cubes
    r.1.unit = u ∧ ∃ q : List ℤ, q.length = cubes.length ∧ r.1.q = q.sum
      ∧ (∀ (i : Nat) (hi : i < cubes.length) (hq : i < q.length), NearestEven (cubeQ row tile cubes[i] / (2 : ℚ) ^ u) q[i])
      ∧ (r.2 = true ↔ ∃ i, i < q.length ∧ (q.getD i 0 < -lim ∨ lim ≤ q.getD i 0 ∨ (q.take (i + 1)).sum < -lim ∨ lim ≤ (q.take (i + 1)).sum))
      ∧ (r.1.inexact = true ↔ ∃ i, ∃ (hi : i < cubes.length), cubeQ row tile cubes[i] / (2 : ℚ) ^ u ≠ q.getD i 0)
      ∧ (cubes.length = 8 → |(r.1.q : ℚ) * (2 : ℚ) ^ u - (cubes.map (cubeQ row tile)).sum| ≤ 4 * (2 : ℚ) ^ u)

/-- R105: at HR = 6 no chunk overflows, in any geometry and orientation. -/
def Obligations.FullHeadroomNeverOverflows : Prop :=
  ∀ (t : Tile) (tile : Array (Array El)) (area : List Byte) (orient subn zgate : Bool) (a : List (List (Nat × Nat))),
    t.geom.toNat < 3 → (orient = true → t.geom ≠ 1) → (∀ r j, Staged (geomFmt t.geom.toNat) (elAt tile r j)) →
    (∀ j, j < geomN t.geom.toNat → (t.colMax[j]?).join = maxExps ((List.range 32).map fun r => elAt tile r j)) →
    (∀ r, r < 32 → (t.rowMax[r]?).join = maxExps ((List.range (geomN t.geom.toNat)).map fun j => elAt tile r j)) →
    (∀ row ∈ a, ∀ x ∈ row, x.1 < 2 ^ width (geomFmt t.geom.toNat) ∧ x.2 < 256) →
    (stepResult t tile area orient subn zgate 6 a).overflow = false

/-- LOADB_STAGING takes the oldest LOADB whose wait is met: with a free slot its elements, widened, stand in the B-stage in K order with their scales, indices and maxima, and nothing outside the B-stage and its metadata changes; a skipped one is passed over and a malformed one refused; TILE_INSTALL copies the next tile to be installed into the
array and frees the slots no longer needed, but not while a STREAM of the old tile has steps to enter or a replay needs the old tile (R37 to R42, R130 to R132, R172). -/
def Sys2Proof.Claims.TilesAreStagedAndInstalled : Prop :=
  ∀ (s : State) (c : CoreId) (e : EngId) (en : QEntry), s.wf →
    let d := en.bits
    let x := s.eng c e
    let i := Instr.loadbStaging c e
    (StageHead s c e en → en.taken ≠ .malformed → predOk (dPred d) = true → mayRun s c en = true → loadbBad d = false →
      ∀ slot area, x.freeSlot (lGeom d) = some slot → (if lGeom d = 1 then x.freeArea = some area else area = 0) →
      ∃ t tile, exec i s = .next t ∧ (t.eng c e).slots[slot] = some tile ∧ tile.geom.toNat = lGeom d ∧ tile.k = lK d ∧ tile.n = lN d ∧ tile.installed = false
        ∧ tile.area = (if lGeom d = 1 then some area else none) ∧ (t.eng c e).q.queue = (x.q.mark en.id (.staged slot)).queue
        ∧ (∀ r j, r < 32 → j < geomN (lGeom d) → numberAt t (slotBase c e slot + 64 * r + esize (if lGeom d = 2 then 0 else 1) * j) (esize (if lGeom d = 2 then 0 else 1))
            = tileNum s c d r j)
        ∧ (lMode d ≠ 0 → ∀ b j, b < (lK d + Sys2Proof.Machine.blockLen (lMode d) - 1) / Sys2Proof.Machine.blockLen (lMode d) → j < lN d →
            (t.mem.byteAt (scaleBase c e slot + 32 * b + j)).toNat = cupNum s c (lScale d + 32 * b + j) 1)
        ∧ (lGeom d = 1 → ∀ b, b < 256 → (t.mem.byteAt (areaBase c e area + b)).toNat = cupNum s c (lIdx d + b) 1)
        ∧ (∀ j, j < geomN (lGeom d) → (tile.colMax[j]?).join = maxExps ((List.range 32).map fun r => elAt (t.tileEls c e slot tile) r j))
        ∧ (∀ r, r < 32 → (tile.rowMax[r]?).join = maxExps ((List.range (geomN (lGeom d))).map fun j => elAt (t.tileEls c e slot tile) r j))
        ∧ (∀ b, b < lanternBase c e + 0x10000 ∨ lanternBase c e + 0x19000 ≤ b → t.mem.byteAt b = s.mem.byteAt b)
        ∧ SameCores s t c ∧ SameDie s t ∧ (t.core c).cnt = (s.core c).cnt ∧ (t.eng c e).groups = x.groups ∧ (t.eng c e).flags = x.flags)
    ∧ (StageHead s c e en → en.taken ≠ .malformed → predOk (dPred d) = true → mayRun s c en = false →
      exec i s = .next (s.modEng c e fun x => { x with q := x.q.mark en.id .skipped, stageWait := none }))
    ∧ (StageHead s c e en → en.taken = .malformed ∨ predOk (dPred d) = false ∨ (mayRun s c en = true ∧ loadbBad d = true) →
      ∃ t, exec i s = .next t ∧ t.frozen c (.eng e) = some { cause := .refusal, discard := true, answer := none } ∧ (lastRecord t).code = 0x502 ∧ (lastRecord t).cls = .contained
        ∧ (lastRecord t).detail = BitVec.ofNat 32 en.off ∧ SameBytes s t)
    ∧ (∀ slot rest tile, s.powered = true → (s.core c).live = true → x.q.freeze = none → x.toInstall = slot :: rest → x.slots[slot] = some tile →
        x.q.feeding = none → (∀ f ∈ x.flight, f.overflow = false) →
      ∃ t a, exec (.tileInstall c e) s = .next t ∧ SameCores s t c ∧ SameDie s t ∧ SameBytes s t ∧ (s.mem.upsets = [] → t.mem = s.mem ∧ t.blf = s.blf)
        ∧ (t.eng c e).array = some a ∧ a.slot = slot ∧ a.els = s.tileEls c e slot tile
        ∧ a.tile = { tile with installed := true, poisoned := a.tile.poisoned } ∧ (tile.poisoned = true → a.tile.poisoned = true)
        ∧ (t.eng c e).toInstall = rest ∧ (t.eng c e).restore = .none ∧ (t.eng c e).installCk = x.installCk + 32 ∧ (t.eng c e).flight = x.flight
        ∧ (t.eng c e).groups = x.groups ∧ (t.eng c e).flags = x.flags ∧ (t.eng c e).q = x.q ∧ (t.core c).cnt = (s.core c).cnt
        ∧ (t.eng c e).slots[slot] = some { tile with installed := true }
        ∧ ∀ k : Fin 16, k ≠ slot → (t.eng c e).slots[k]
            = if (x.slots[k]).any (·.installed) && !rest.contains k && !x.flight.any (fun f => f.slot == k) then none else x.slots[k])
    ∧ (x.q.feeding.isSome = true ∨ (∃ f ∈ x.flight, f.overflow = true ∧ (x.restore ≠ .none ∨ ∀ a, x.array = some a → a.slot ≠ f.slot)) →
      exec (.tileInstall c e) s = .next s)

/-- STEP_ENTRY reads a step's A elements, widened, with their scales, forms its chunks with the installed tile under the STREAM's headroom, and puts it behind the steps in flight; a step that overflows in any output holds no chunk, sets ACCR and counts as replayed. STEP_REPLAY forms the oldest such
step's chunks again at HR = 6, in its place, when its tile is in the array, and otherwise first restores that tile from its slot, the later tile's install stopped (R42, R46, R50, R106 to R110,
R173). That a replay's gated cubes count again is the model's choice (log entry 122). -/
def Sys2Proof.Claims.StepsEnterAndReplay : Prop :=
  ∀ (s : State) (c : CoreId) (e : EngId), s.wf →
    let x := s.eng c e
    (∀ a ar n, Feeds s c e a ar n →
      let d := a.entry.bits
      let h := if sGeom d = 2 then 2 else 4
      let len := if sOrient d then geomN (sGeom d) else geomK (sGeom d)
      ∃ s' st, exec (.stepEntry c e) s = .next s' ∧ (s'.eng c e).flight = x.flight ++ [st] ∧ st.id = x.nextStep ∧ (s'.eng c e).nextStep = x.nextStep + 1
        ∧ st.slot = ar.slot ∧ st.group = sGroup d ∧ st.row0 = dBytes d 16 1 + a.steps * h ∧ st.desc = a.entry.id
        ∧ st.a = ((List.range n).map fun i => (List.range len).map fun k => aNum s c d (a.steps * h + i) k)
        ∧ (let res := stepResult ar.tile ar.els ar.area (sOrient d) a.entry.subn a.entry.zgate (sHr d) st.a
          st.overflow = res.overflow ∧ st.chunks = (if res.overflow then [] else res.chunks)
            ∧ (s'.eng c e).flags = (if res.overflow then x.flags ||| fACCR else x.flags)
            ∧ (s'.eng c e).replayCount = (if res.overflow then satAdd x.replayCount 1 else x.replayCount)
            ∧ (s'.eng c e).stepCount = x.stepCount + 1 ∧ (s'.eng c e).zgateCount = x.zgateCount + BitVec.ofNat 64 res.gated
            ∧ (s'.group c e (sGroup d)).replayed = (if res.overflow then satAdd (x.groups[sGroup d]).replayed 1 else (x.groups[sGroup d]).replayed))
        ∧ (s'.eng c e).q.queue = x.q.queue ∧ (∀ b ∈ (s'.eng c e).q.active, b.entry.id ≠ a.entry.id → b ∈ x.q.active)
        ∧ (∀ b, b < lanternBase c e ∨ (lanternBase c e + 0x10000 ≤ b ∧ b < lanternBase c e + 0x18400) ∨ lanternBase c e + 0x18C00 ≤ b →
            s'.mem.byteAt b = s.mem.byteAt b)
        ∧ SameCores s s' c ∧ SameDie s s' ∧ (s'.core c).cnt = (s.core c).cnt)
    ∧ (∀ st ar, s.powered = true → (s.core c).live = true → x.flight.find? (·.overflow) = some st → x.array = some ar → ar.slot = st.slot →
      let res := stepResult ar.tile ar.els ar.area st.orient st.subn st.zgate 6 st.a
      ∃ s', exec (.stepReplay c e) s = .next s' ∧ (s'.eng c e).flight = x.flight.map (fun f => if f.id = st.id
            then { f with overflow := false, chunks := res.chunks, flushed := res.flushed } else f)
        ∧ s' = s.modEng c e (fun y => ({ y with flight := (s'.eng c e).flight, zgateCount := (s'.eng c e).zgateCount, restore := (s'.eng c e).restore } : Engine))
        ∧ (s'.eng c e).zgateCount = x.zgateCount + BitVec.ofNat 64 res.gated
        ∧ (s'.eng c e).restore = if x.restore = .none then .none else .restored)
    ∧ (∀ st ar tile, s.powered = true → (s.core c).live = true → x.flight.find? (·.overflow) = some st → x.array = some ar → ar.slot ≠ st.slot →
        x.slots[st.slot] = some tile →
      ∃ s' a, exec (.stepReplay c e) s = .next s' ∧ SameCores s s' c ∧ SameBytes s s' ∧ s' = { s with cores := s'.cores, mem := s'.mem, blf := s'.blf, free := s'.free }
        ∧ (s'.eng c e).array = some a ∧ a.slot = st.slot ∧ a.els = s.tileEls c e st.slot tile
        ∧ (s'.eng c e).toInstall = ar.slot :: x.toInstall ∧ (s'.eng c e).restore = .restoring ∧ (s'.eng c e).flight = x.flight
        ∧ (s'.eng c e).slots[ar.slot] = (x.slots[ar.slot]).map (fun t => { t with installed := false })
        ∧ (∀ k : Fin 16, k ≠ ar.slot → (s'.eng c e).slots[k] = x.slots[k])
        ∧ (s'.eng c e).q = x.q ∧ (s'.eng c e).groups = x.groups ∧ (s'.eng c e).flags = x.flags ∧ (s'.core c).cnt = (s.core c).cnt)

/-- Tiles are staged and installed; steps enter and are replayed after an overflow. -/
def Obligations.TilesAndStepsRunInTheirEngine : Prop := TilesAreStagedAndInstalled ∧ StepsEnterAndReplay

/-- PROMOTION takes the first step in flight that awaits no replay: every chunk, as FP32 by Table NUM-7, is added into its group value under the rules of R90, and nothing else of the SRAM changes; the band counts a term up to 65,536, the group a promotion, and the STREAM is complete with its last step; past the
limit LEN is set (R111, R113). -/
def Obligations.PromotionAddsChunksToTheGroup : Prop :=
  ∀ (s : State) (c : CoreId) (e : EngId) (st : FlightStep) (tile : Tile), s.wf → s.powered = true → (s.core c).live = true →
    let x := s.eng c e
    let g := x.groups[st.group]
    let band : Fin 32 := Fin.ofNat 32 (st.row0 / (if tile.geom = 2 then 2 else 4))
    x.flight.find? (fun f => !f.overflow) = some st → x.slots[st.slot] = some tile → (∀ r ∈ st.chunks, r.length ≤ 32) →
    ∃ t, exec (.promotion c e) s = .next t
      ∧ (∀ i j (hi : i < st.chunks.length) (hj : j < (st.chunks[i]).length),
          let ch := (st.chunks[i])[j]
          let v := if ch.side &&& 8 ≠ 0 ∨ ch.side &&& 3 = 3 ∨ ch.side &&& 4 ≠ 0 then 0x7FC00000
            else if ch.side &&& 1 ≠ 0 then 0x7F800000 else if ch.side &&& 2 ≠ 0 then 0xFF800000
            else if ch.q = 0 then 0 else (roundTo .fp32 .rne 0 false st.subn (exactly (ch.q < 0) ch.q.natAbs ch.unit)).1
          groupNum t c e st.group (st.row0 + i) j = (fAdd .fp32 st.subn (groupNum s c e st.group (st.row0 + i) j) v).1)
      ∧ (∀ b, (∀ i j (hi : i < st.chunks.length), j < (st.chunks[i]).length →
            b < groupBase c e st.group + (st.row0 + i) * 128 + 4 * j ∨ groupBase c e st.group + (st.row0 + i) * 128 + 4 * j + 4 ≤ b) →
          t.mem.byteAt b = s.mem.byteAt b)
      ∧ (t.eng c e).flight = x.flight.filter (fun f => f.id != st.id)
      ∧ ((t.group c e st.group).bands[band]) = min 65536 (g.bands[band] + 1) ∧ (t.group c e st.group).promoted = satAdd g.promoted 1
      ∧ (t.group c e st.group).state = g.state
      ∧ (65536 ≤ g.bands[band] → (t.group c e st.group).len = true ∧ (t.eng c e).flags.getLsbD 7 = true
          ∧ (g.len = false → (lastRecord t).code = 0x501 ∧ (lastRecord t).cls = .corrected))
      ∧ (g.bands[band] < 65536 → (t.group c e st.group).len = g.len)
      ∧ (∀ a ∈ x.q.active, a.entry.id = st.desc → ∃ b ∈ (t.eng c e).q.active, b.entry = a.entry ∧ b.promoted = a.promoted + 1
          ∧ (a.promoted + 1 = sSteps a.entry.bits → b.progress = .done) ∧ (a.promoted + 1 ≠ sSteps a.entry.bits → b.progress = a.progress))
      ∧ SameCores s t c ∧ SameDie s t ∧ (t.core c).cnt = (s.core c).cnt ∧ (t.core c).seq = (s.core c).seq

namespace Sys2Proof.Claims

open Sys2Proof.Machine

/-- Bytes `p`, `n` of a descriptor's body as a number. -/
def body (d : Desc) (p n : Nat) : Nat := dBytes d p n

/-- The descriptor works on group `g`: a STREAM or an ACC that names it. -/
def names (d : Desc) (g : GroupId) : Bool := (dType d == 2 && sGroup d == g) || (dType d == 3 && aGroup d == g)

/-- The started ACC `a` of operation `op` may start in engine `e` (R118, R171): what was started before it on its group is complete, a STATUS waiting for steps alone, nothing whose writes it
has to observe is open, and no earlier one of its operation waits. -/
def AccReady (s : State) (c : CoreId) (e : EngId) (op : Nat) (a : Active) : Prop :=
  s.powered = true ∧ (s.core c).live = true ∧ (s.eng c e).q.freeze = none ∧ dType a.entry.bits = 3 ∧ dBits a.entry.bits 8 0 4 = op ∧ a.progress = .started
    ∧ ∃ before after, (s.eng c e).q.active = before ++ a :: after ∧ ∀ b ∈ before,
        ¬ (dType b.entry.bits = 3 ∧ dBits b.entry.bits 8 0 4 = op ∧ b.progress = .started)
        ∧ (b.progress = .done ∨ b.null = true ∨ ((names b.entry.bits (aGroup a.entry.bits) = false ∨ (op = 7 ∧ dType b.entry.bits = 3))
            ∧ accObserves e a.entry.bits b.entry.bits = false))

/-- No CLOSE is under way in engine `e`. -/
def NoClose (s : State) (c : CoreId) (e : EngId) : Prop := ∀ b ∈ (s.eng c e).q.active, b.progress ≠ .epilogue

/-- The CLOSE `a` is under way in engine `e`, whose freeze, if any, lets begun work finish (R399). -/
def Closing (s : State) (c : CoreId) (e : EngId) (a : Active) : Prop :=
  s.powered = true ∧ (s.core c).live = true ∧ (s.eng c e).q.goesOn = true ∧ dType a.entry.bits = 3 ∧ dBits a.entry.bits 8 0 4 = 4
    ∧ (s.eng c e).q.active.find? (fun b => b.progress == .epilogue) = some a

/-- The ACC `a` has gone to progress `p`; besides its engine's groups and flags, the SRAM and the fault log nothing changed. -/
structure AccDone (s t : State) (c : CoreId) (e : EngId) (a : Active) (p : Progress) : Prop where
  active : (t.eng c e).q.active = (s.eng c e).q.active.map fun b => if b.entry.id = a.entry.id then { b with progress := p } else b
  engine : t.eng c e = { s.eng c e with q := { (s.eng c e).q with active := (t.eng c e).q.active }, groups := (t.eng c e).groups, flags := (t.eng c e).flags }
  core : t.core c = { s.core c with eng := (t.core c).eng }
  engines : ∀ f, f ≠ e → t.eng c f = s.eng c f
  groups : ∀ g, g ≠ aGroup a.entry.bits → t.group c e g = s.group c e g
  others : SameCores s t c
  die : SameDie s t

/-- A group that has just opened: its counters start at 0 and every band at `m` (R113, R121). -/
def OpenAt (g : Group) (m : Nat) : Prop :=
  g.state = .opened ∧ g.seeded = decide (m = 1) ∧ g.len = false ∧ g.promoted = 0 ∧ g.replayed = 0 ∧ g.wait = none ∧ ∀ b : Fin 32, g.bands[b] = m

/-- The `n` bytes from die-local address `x` lie in core `c`'s Cupola. -/
def Inside (c : CoreId) (x n : Nat) : Prop := x + n ≤ coreBase c + 0x600000

/-- One value of CLOSE (R119): v2, the output and the flags, of which a NaN v2 suppresses OF, UF and NX (R93). -/
def closed (d : Desc) (subn : Bool) (v scale : Nat) (bias : Option Nat) : Nat × Nat × Flags :=
  let m := if scale = 0x3F800000 then (v, 0) else fMul .fp32 subn v scale
  let p := match bias with
    | some b => fAdd .fp32 subn m.1 b
    | none => (m.1, 0)
  let o := match dBits d 9 0 4, rmodeOf (dBits d 9 4 4) with
    | 1, some r => convert .fp32 .fp16 r 0 (dBits d 10 0 1 == 1) subn 127 p.1
    | 2, some r => convert .fp32 .e4m3 r 0 (dBits d 10 0 1 == 1) subn 127 p.1
    | 3, some r => convert .fp32 .e5m2 r 0 (dBits d 10 0 1 == 1) subn 127 p.1
    | _, _ => (p.1, 0)
  (p.1, o.1, (if (decodeF .fp32 p.1).isNan then (m.2 ||| p.2) &&& ~~~(fOF ||| fUF ||| fNX) else m.2 ||| p.2) ||| o.2)

end Sys2Proof.Claims

/-- The OPEN operations of a CLOSED group complete: OPEN_ZERO writes +0 to every value, OPEN_CUPOLA the tile at ADDR widened to FP32, OPEN_GROUP the values of group h of engine f with every other byte unchanged, the seeded ones starting every band at m = 1; OPEN_CHAIN enters WAIT_CHAIN with its receive wait (R113, R116, R121,
R123, R250). -/
def Sys2Proof.Claims.OpenOperationsSeedTheGroup : Prop :=
  ∀ (s : State) (c : CoreId) (e : EngId) (a : Active), s.wf →
    let d := a.entry.bits
    let g := aGroup d
    let size := esize (dBits d 9 0 4)
    let base := groupBase c e g
    (s.group c e g).state = .closed →
    (AccReady s c e 0 a → ∃ t, exec (.openZero c (.perform e)) s = .next t ∧ AccDone s t c e a .done ∧ OpenAt (t.group c e g) 0
      ∧ SameBytesBut s t base 0x2000 ∧ (∀ b, base ≤ b → b < base + 0x2000 → t.mem.byteAt b = 0) ∧ t.blf = s.blf ∧ (t.eng c e).flags = (s.eng c e).flags)
    ∧ (AccReady s c e 1 a → accBad d e = false → ∃ t, exec (.openCupola c (.perform e)) s = .next t ∧ AccDone s t c e a .done ∧ OpenAt (t.group c e g) 1
      ∧ SameBytesBut s t base 0x2000 ∧ (t.eng c e).flags = (s.eng c e).flags
      ∧ ∀ r j, r < 64 → j < 32 → groupNum t c e g r j = widen32 ((fmtOf (dBits d 9 0 4)).getD .fp32) (cupNum s c (body d 16 4 + r * body d 20 4 + j * size) size))
    ∧ (AccReady s c e 2 a → accBad d e = false → ∃ t, exec (.openGroup c (.perform e)) s = .next t ∧ AccDone s t c e a .done ∧ OpenAt (t.group c e g) 1
      ∧ SameBytesBut s t base 0x2000 ∧ (t.eng c e).flags = (s.eng c e).flags
      ∧ ∀ b, b < 0x2000 → t.mem.byteAt (base + b) = s.mem.byteAt (groupBase c (Fin.ofNat 4 (dBits d 11 0 2)) (Fin.ofNat 8 (dBits d 11 2 3)) + b))
    ∧ (AccReady s c e 3 a → ∃ t w, exec (.openChain c (.perform e)) s = .next t ∧ AccDone s t c e a .busy ∧ t.mem = s.mem ∧ t.blf = s.blf
      ∧ t.group c e g = { s.group c e g with state := .waitChain, arrived := 0, wait := some w }
      ∧ w.kind = .chainRecv ∧ w.desc = a.entry.off ∧ w.timeout = s.blf.waitDefault.toNat ∧ w.elapsed = 0)

/-- CLOSE, SAVE, STATUS and CLOSE_CHAIN complete: CLOSE first enters CLOSING, then writes v × scale + bias, converted, for its rows and columns with the row maxima and leaves the group CLOSED; SAVE copies the values; STATUS writes the 16-byte record; CLOSE_CHAIN enters CLOSING with its send wait; only the bytes stored change (R117, R119 to R122, R124). -/
def Sys2Proof.Claims.CloseSaveAndStatusWriteCupola : Prop :=
  ∀ (s : State) (c : CoreId) (e : EngId) (a : Active), s.wf →
    let d := a.entry.bits
    let g := aGroup d
    let at_ := fun r => coreBase c + body d 16 4 + r * body d 20 4
    let rows := body d 12 2
    let cols := body d 14 2
    let size := ((fmtOf (dBits d 9 0 4)).getD .fp32).size
    (AccReady s c e 4 a → NoClose s c e → (s.group c e g).state = .opened →
      ∃ t, exec (.close c (.perform e)) s = .next t ∧ AccDone s t c e a .epilogue ∧ t.mem = s.mem ∧ t.blf = s.blf
        ∧ (t.eng c e).flags = (s.eng c e).flags ∧ t.group c e g = { s.group c e g with state := .closing })
    ∧ (Closing s c e a → accBad d e = false →
      ∃ t, exec (.close c (.perform e)) s = .next t ∧ AccDone s t c e a .done ∧ t.group c e g = { s.group c e g with state := .closed }
        ∧ (let scale := fun j => match dBits d 10 2 2 with
              | 1 => body d 24 4
              | 2 => cupNum s c (body d 24 4 + 4 * j) 4
              | _ => 0x3F800000
            let out := fun r j => closed d a.entry.subn (groupNum s c e g r j) (scale j) (if dBits d 10 4 1 = 1 then some (cupNum s c (body d 28 4 + 4 * j) 4) else none)
            let amax := fun r => coreBase c + body d 32 4 + 4 * r
            (cols * size ≤ body d 20 4 → (dBits d 10 1 1 = 1 → ∀ r q, r < rows → q < rows → amax q + 4 ≤ at_ r ∨ at_ r + cols * size ≤ amax q) →
              (∀ r j, r < rows → j < cols → Inside c (at_ r + j * size) size → numberAt t (at_ r + j * size) size = (out r j).2.1)
              ∧ (dBits d 10 1 1 = 1 → ∀ r, r < rows → Inside c (amax r) 4 →
                  let m := numberAt t (amax r) 4
                  (m = 0x7FC00000 ∧ ∀ j, j < cols → 0x7F800000 < (out r j).1 % 2 ^ 31)
                  ∨ (m ≤ 0x7F800000 ∧ (∃ j, j < cols ∧ (out r j).1 % 2 ^ 31 = m) ∧ ∀ j, j < cols → (out r j).1 % 2 ^ 31 ≤ m ∨ 0x7F800000 < (out r j).1 % 2 ^ 31)))
            ∧ (∀ b, coreBase c + 0x600000 ≤ b ∨ (∀ r, r < rows → (b < at_ r ∨ at_ r + cols * size ≤ b) ∧ (dBits d 10 1 1 = 1 → b < amax r ∨ amax r + 4 ≤ b)) → t.mem.byteAt b = s.mem.byteAt b)
            ∧ ∀ b, b ≠ 6 → (t.eng c e).flags.getLsbD b = ((s.eng c e).flags.getLsbD b
                || (List.range rows).any fun r => (List.range cols).any fun j => (out r j).2.2.getLsbD b)))
    ∧ (AccReady s c e 6 a → (s.group c e g).state = .opened →
      ∃ t, exec (.save c (.perform e)) s = .next t ∧ AccDone s t c e a .done ∧ t.eng c e = { s.eng c e with q := (t.eng c e).q }
        ∧ (128 ≤ body d 20 4 → ∀ r j, r < 64 → j < 128 → Inside c (at_ r + j) 1 → t.mem.byteAt (at_ r + j) = s.mem.byteAt (groupBase c e g + 128 * r + j))
        ∧ ∀ b, coreBase c + 0x600000 ≤ b ∨ (∀ r, r < 64 → b < at_ r ∨ at_ r + 128 ≤ b) → t.mem.byteAt b = s.mem.byteAt b)
    ∧ (AccReady s c e 7 a →
      ∃ t, exec (.status c (.perform e)) s = .next t ∧ AccDone s t c e a .done ∧ t.eng c e = { s.eng c e with q := (t.eng c e).q } ∧ SameBytesBut s t (at_ 0) 16
        ∧ (∀ b, coreBase c + 0x600000 ≤ b → t.mem.byteAt b = s.mem.byteAt b)
        ∧ (let w := numberAt t (at_ 0) 4
            let x := s.group c e g
            Inside c (at_ 0) 16 → (∀ b : Fin 32, x.bands[b] ≤ 65536) →
            field w 16 1 = (if ∀ b : Fin 32, x.bands[b] = 0 then 1 else 0) ∧ (∃ b : Fin 32, field w 0 16 = x.bands[b] - 1 ∧ ∀ k : Fin 32, x.bands[k] ≤ x.bands[b])
            ∧ field w 17 1 = (if x.len then 1 else 0) ∧ field w 18 2 = (match x.state with | .closed => 0 | .opened => 1 | .waitChain => 2 | .closing => 3)
            ∧ field w 20 1 = (if x.seeded then 1 else 0) ∧ field w 21 1 = (if s.mem.poisoned (groupBase c e g) 0x2000 then 1 else 0) ∧ field w 22 10 = 0
            ∧ numberAt t (at_ 0 + 4) 4 = x.promoted.toNat ∧ numberAt t (at_ 0 + 8) 4 = x.replayed.toNat ∧ numberAt t (at_ 0 + 12) 4 = 0))
    ∧ (AccReady s c e 5 a → (s.group c e g).state = .opened →
      ∃ t w, exec (.closeChain c (.perform e)) s = .next t ∧ AccDone s t c e a .busy ∧ t.mem = s.mem ∧ t.blf = s.blf
        ∧ t.group c e g = { s.group c e g with state := .closing, sent := 0, accepted := 0, resend := 0, chainDesc := a.entry.id, failed := false, wait := some w }
        ∧ w.kind = .chainSend ∧ w.desc = a.entry.off ∧ w.timeout = s.blf.waitDefault.toNat)
    ∧ (∀ r ∈ [(Instr.openZero c (.perform e), 0, GState.closed), (.openCupola c (.perform e), 1, .closed), (.openGroup c (.perform e), 2, .closed),
        (.openChain c (.perform e), 3, .closed), (.close c (.perform e), 4, .opened), (.closeChain c (.perform e), 5, .opened), (.save c (.perform e), 6, .opened)],
      AccReady s c e r.2.1 a → (r.2.1 = 4 → NoClose s c e) → (s.group c e g).state ≠ r.2.2 →
      ∃ t, exec r.1 s = .next t ∧ t.frozen c (.eng e) = some { cause := .refusal, discard := true, answer := none } ∧ (lastRecord t).code = 0x502 ∧ (lastRecord t).cls = .contained
        ∧ (lastRecord t).detail = BitVec.ofNat 32 a.entry.off ∧ t.mem = s.mem ∧ (t.eng c e).groups = (s.eng c e).groups)

/-- The eight ACC operations complete or, with the group in another state, are refused. -/
def Obligations.AccumulationGroupsFollowTheirOperations : Prop := OpenOperationsSeedTheGroup ∧ CloseSaveAndStatusWriteCupola

/-! ## The mover (05, 06, 08) -/

namespace Sys2Proof.Claims

open Sys2Proof.Machine

/-- The first started descriptor of type `code` of unit `u`, the vector engine or the mover, is `a`, and the unit may perform it. -/
def UnitReady (s : State) (c : CoreId) (u : UnitId) (code : Nat) (a : Active) : Prop :=
  s.powered = true ∧ (s.core c).live = true ∧ s.frozen c u = none ∧ dType a.entry.bits = code ∧ a.progress = .started
    ∧ ∃ before after, ((s.core c).unitQ u).active = before ++ a :: after ∧ (∀ b ∈ before, ¬ (dType b.entry.bits = code ∧ b.progress = .started))
      ∧ ∀ b ∈ before ++ after, b.entry.id ≠ a.entry.id

/-- No data was fetched early for the descriptor of `a`. -/
def NoneEarly (s : State) (c : CoreId) (a : Active) : Prop := ∀ b ∈ (s.core c).mov.buffer, b.forId ≠ some a.entry.id

/-- The started descriptors of unit `u` with `a` gone to progress `p`; it may have noted that it has logged an access past Cupola's end (R446). -/
def WentTo (s t : State) (c : CoreId) (u : UnitId) (a : Active) (p : Progress) : Prop :=
  ∃ noted : Bool, ((t.core c).unitQ u).active = ((s.core c).unitQ u).active.map fun b =>
    if b.entry.id = a.entry.id then { b with progress := p, boundsLogged := b.boundsLogged || noted } else b

/-- Core `c` may access byte `x` of a Cupola or Dome slice. -/
def Granted (s : State) (c : CoreId) (x : Nat) (w : Bool) : Prop :=
  s.verdict (s.core c).owner x w = .ok ∧ ((∃ d, region x = .dome d) ∨ ∃ d, region x = .cupola d)

/-- The mover of core `c` has performed `a` with nothing changed outside its queue and counts, the SRAM and the fault log. -/
structure MovFrame (s t : State) (c : CoreId) (a : Active) (p : Progress) : Prop where
  went : WentTo s t c .mover a p
  core : t.core c = { s.core c with mov := (t.core c).mov, countReg := (t.core c).countReg }
  others : SameCores s t c
  die : t = { s with cores := t.cores, mem := t.mem, blf := t.blf, free := t.free }

/-- The place of an element among the magnitudes of R135: NaN above infinity above finite values, the zeros lowest. -/
def magnitudeRank (f : Fmt) (b : Nat) : Nat := if (decodeF f b).isNan then 2 ^ width f else b % 2 ^ (width f - 1)

/-- Position `i` of a group ranks before position `j` (R135). -/
def before (f : Fmt) (g : Nat → Nat) (i j : Nat) : Prop :=
  magnitudeRank f (g j) < magnitudeRank f (g i) ∨ (magnitudeRank f (g j) = magnitudeRank f (g i) ∧ i < j)

/-- Areas given as (base, size) of which no two share a byte. -/
def Apart (l : List (Nat × Nat)) : Prop := l.Pairwise fun x y => x.2 = 0 ∨ y.2 = 0 ∨ x.1 + x.2 ≤ y.1 ∨ y.1 + y.2 ≤ x.1

/-- The areas lie in Cupola. -/
def Fits (l : List (Nat × Nat)) : Prop := ∀ x ∈ l, x.2 = 0 ∨ x.1 + x.2 ≤ 0x600000

/-- A byte of core `c`'s SRAM image outside areas of its Cupola is as before. -/
def SameOutside (s t : State) (c : CoreId) (l : List (Nat × Nat)) : Prop :=
  ∀ b, (∀ x ∈ l, b < coreBase c + x.1 ∨ coreBase c + x.1 + x.2 ≤ b) → t.mem.byteAt b = s.mem.byteAt b

/-- What the packets of a work item carry. -/
def itemOf (w : NetItem) : NetKind × Nat × Nat × Nat × Nat × Nat × Nat × Bool × Nat × Nat :=
  (w.kind, w.dest.toNat, w.window.toNat, w.offset, w.loc, w.rowBytes, w.rows, w.signal, w.sigCnt.toNat, w.sigInc.toNat)

/-- The work items that a descriptor added at the end of the mover's work, none yet begun and each naming the descriptor. -/
def Sends (s t : State) (c : CoreId) (a : Active) (l : List (NetKind × Nat × Nat × Nat × Nat × Nat × Nat × Bool × Nat × Nat)) : Prop :=
  ∃ w, (t.core c).mov.work = (s.core c).mov.work ++ w ∧ w.map itemOf = l
    ∧ ∀ x ∈ w, x.desc = a.entry.id ∧ x.off = a.entry.off ∧ x.spec = false ∧ x.row = 0 ∧ x.pos = 0 ∧ x.seq = 0

/-- A field of expert table entry `e` (Table SPA-5). -/
def expertNum (s : State) (c : CoreId) (d : Desc) (e p n : Nat) : Nat := cupNum s c (gTable d + 16 * e + p) n

/-- Entry `p` of the index list (R149). -/
def choice (s : State) (c : CoreId) (d : Desc) (p : Nat) : Nat := cupNum s c (gIndex d + 2 * p) 2

/-- How many entries before `p` name the expert `e`. -/
def earlier (s : State) (c : CoreId) (d : Desc) (p e : Nat) : Nat := ((List.range p).filter fun q => choice s c d q == e).length

/-- Entry `p` of the index list gets a slot: it names an expert of the table that fewer earlier entries name than it has slots (R151). -/
def seated (s : State) (c : CoreId) (d : Desc) (p : Nat) : Bool :=
  let e := choice s c d p
  e != 0xFFFF && decide (e < gE d ∧ earlier s c d p e < expertNum s c d e 8 2)

/-- Entry `p` names a choice that is dropped (R151). -/
def lost (s : State) (c : CoreId) (d : Desc) (p : Nat) : Bool := choice s c d p != 0xFFFF && !seated s c d p

end Sys2Proof.Claims

/-- VEC and MOVE are performed: VEC starts its program at PROG_ADDR with VL 512, the sampled SUBN and the preloaded address registers; a MOVE copies each byte of its rows with its word's mark, or fills them with PATTERN, and changes no other byte; refused source bytes read as poisoned zeros and log 0x202; overlapping ranges leave
the destination alone undefined (R22, R176, R177, R195, R223). -/
def Sys2Proof.Claims.VecAndMoveArePerformed : Prop :=
  ∀ (s : State) (c : CoreId) (a : Active), s.wf →
    let d := a.entry.bits
    (UnitReady s c .vec 0x10 a → ∃ t, exec (.vec c .perform) s = .next t ∧ WentTo s t c .vec a .busy
      ∧ t = s.modVec c (fun v => { v with q := (t.core c).vec.q, running := true, pc := body d 8 4, vl := 512, subnNow := v.subn, a := (t.core c).vec.a })
      ∧ ∀ n : Fin 16, (t.core c).vec.a[n] = if n.val < 10 ∧ dBits d 12 n.val 1 = 1 then BitVec.ofNat 32 (body d (16 + 4 * n.val) 4) else (s.core c).vec.a[n])
    ∧ (UnitReady s c .mover 0x20 a → NoneEarly s c a →
      let rows := body d 36 4
      let n := body d 32 4
      let src := fun r => (body d 16 5 + r * body d 40 4) % 2 ^ 40
      let dst := fun r => (body d 24 5 + r * body d 44 4) % 2 ^ 40
      let last := fun r b => ∀ q, r < q → q < rows → dst r + b < dst q ∨ dst q + n ≤ dst r + b
      (∀ r b, r < rows → b < n → Granted s c (dst r + b) true) →
      ∃ t, exec (.move c .perform) s = .next t ∧ MovFrame s t c a .done
        ∧ (∀ x, (∀ r, r < rows → x < dst r ∨ dst r + n ≤ x) → t.mem.byteAt x = s.mem.byteAt x)
        ∧ (body d 8 1 = 1 → ∀ r b, r < rows → b < n → last r b → (t.mem.byteAt (dst r + b)).toNat = dBytes d (48 + b % 4) 1)
        ∧ (body d 8 1 = 0 → (∀ r q, r < rows → q < rows → src r + n ≤ dst q ∨ dst q + n ≤ src r) →
            ((∀ r b, r < rows → b < n → Granted s c (src r + b) false) → ∀ r b, r < rows → b < n → last r b →
              t.mem.byteAt (dst r + b) = s.mem.byteAt (src r + b) ∧ (s.mem.marked ((src r + b) / 8) = true → t.mem.marked ((dst r + b) / 8) = true))
            ∧ (0 < n → 0 < rows → (∀ r b, r < rows → b < n → s.verdict (s.core c).owner (src r + b) false = .reserved) →
              (∀ r b, r < rows → b < n → t.mem.byteAt (dst r + b) = 0 ∧ t.mem.marked ((dst r + b) / 8) = true)
              ∧ (lastRecord t).code = 0x202 ∧ (lastRecord t).cls = .deferred ∧ (lastRecord t).address = BitVec.ofNat 64 (src 0)))
        ∧ (∀ m, m ≠ .mover → (t.core c).unitQ m = (s.core c).unitQ m) ∧ (t.core c).countReg = (s.core c).countReg)

/-- COMPRESS is performed: with DIR 0 it keeps of each four positions the two of highest rank, the lower first, with their indices, copies the bits unchanged and counts the nonzero elements it does not keep; with DIR 1 it writes kept values to their positions and +0 to every other position of the 64 × 32 tile, those beyond the extents being the model's choice, as is a count of 0 (log entry 131); the block scales are copied
(R130 to R132, R135 to R137, R180). -/
def Sys2Proof.Claims.CompressKeepsTheTwoLargest : Prop :=
  ∀ (s : State) (c : CoreId) (a : Active), s.wf → UnitReady s c .mover 0x26 a → compressBad a.entry.bits = false →
    let d := a.entry.bits
    let f := (fmtOf (dBits d 9 0 4)).getD .fp16
    let z := f.size
    let k := body d 12 2
    let n := body d 14 2
    let dense := fun i j => body d 16 4 + i * body d 20 4 + j * z
    let val := fun p j => body d 24 4 + (p * 32 + j) * z
    let nib := fun (s : State) g j => field (cupNum s c (body d 28 4 + g * 16 + j / 2) 1) (4 * (j % 2)) 4
    let sb := if dBits d 10 0 2 = 1 then 128 else if dBits d 10 0 2 = 0 then 0 else 64
    let scales := (body d 36 4, sb)
    let result := (body d 40 4, 4 * dBits d 44 0 1)
    (dBits d 8 0 1 = 0 →
      let outs := [(body d 24 4, 1024 * z), (body d 28 4, 256), scales, result]
      let el := fun i j => if i < k ∧ j < n then cupNum s c (dense i j) z else 0
      Apart outs → Apart [(body d 24 4, 1024 * z), (body d 32 4, sb)] → Apart [(body d 28 4, 256), (body d 32 4, sb)] → Fits outs →
      ∃ t, exec (.compress c .perform) s = .next t ∧ MovFrame s t c a .done ∧ SameOutside s t c outs
        ∧ ∃ keep : Nat → Nat → Nat × Nat,
          (∀ g j, g < 16 → j < 32 → let p := keep g j
            p.1 < p.2 ∧ p.2 < 4 ∧ (∀ i, i < 4 → i ≠ p.1 → i ≠ p.2 → before f (fun i => el (4 * g + i) j) p.1 i ∧ before f (fun i => el (4 * g + i) j) p.2 i)
            ∧ nib t g j = p.1 + 4 * p.2 ∧ cupNum t c (val (2 * g) j) z = el (4 * g + p.1) j ∧ cupNum t c (val (2 * g + 1) j) z = el (4 * g + p.2) j)
          ∧ (let pruned := ((List.range 64).map fun i => ((List.range 32).filter fun j =>
                i % 4 != (keep (i / 4) j).1 && i % 4 != (keep (i / 4) j).2 && el i j % 2 ^ (8 * z - 1) != 0).length).sum
            (t.core c).mov.pruneCount = satAdd (s.core c).mov.pruneCount pruned ∧ (dBits d 44 0 1 = 1 → cupNum t c (body d 40 4) 4 = pruned))
          ∧ ∀ b, b < sb → cupNum t c (body d 36 4 + b) 1 = cupNum s c (body d 32 4 + b) 1)
    ∧ (dBits d 8 0 1 = 1 → 32 * z ≤ body d 20 4 → (∀ x ∈ [scales, result], Apart [(body d 16 4, 64 * body d 20 4), x]) → Apart [scales, result] →
      Apart [(body d 16 4, 64 * body d 20 4), (body d 32 4, sb)] → Fits [(body d 16 4, 64 * body d 20 4), scales, result] →
      ∃ t, exec (.compress c .perform) s = .next t ∧ MovFrame s t c a .done ∧ SameOutside s t c [(body d 16 4, 64 * body d 20 4), scales, result]
        ∧ (∀ i j, i < 64 → j < 32 → cupNum t c (dense i j) z =
            if k ≤ i ∨ n ≤ j then 0
            else if nib s (i / 4) j / 4 = i % 4 then cupNum s c (val (2 * (i / 4) + 1) j) z
            else if nib s (i / 4) j % 4 = i % 4 then cupNum s c (val (2 * (i / 4)) j) z else 0)
        ∧ (dBits d 44 0 1 = 1 → cupNum t c (body d 40 4) 4 = 0)
        ∧ (∀ b, b < sb → cupNum t c (body d 36 4 + b) 1 = cupNum s c (body d 32 4 + b) 1) ∧ (t.core c).mov.pruneCount = (s.core c).mov.pruneCount)

/-- SCATTER and GATHER are performed: an entry gets the next slot of its expert while fewer earlier entries name it than it has slots, its row being sent there with a signal on TOKEN_CNT, and is dropped otherwise; the slot map, the drop bitmap, the per-expert record and the counts say so, and every expert is sent its ARRIVE signal; GATHER
reads each row back from its slot and writes +0 for the others (R149 to R152, R155). -/
def Sys2Proof.Claims.ScatterAndGatherRouteTheRows : Prop :=
  ∀ (s : State) (c : CoreId) (a : Active), s.wf →
    let d := a.entry.bits
    let total := gT d * gK d
    (UnitReady s c .mover 0x22 a → routeBad true d = false →
      let outs := [(gDrop d, gT d), (gSlot d, 2 * total), (gRecord d, 4 * gE d)]
      let moved := ((List.range total).filter fun p => seated s c d p).length
      Apart outs → Fits outs →
      ∃ t, exec (.scatter c .perform) s = .next t ∧ MovFrame s t c a .busy ∧ SameOutside s t c outs
        ∧ (∀ p, p < total → cupNum t c (gSlot d + 2 * p) 2 = if seated s c d p then
              (expertNum s c d (choice s c d p) 10 2 + earlier s c d p (choice s c d p)) % 65536 else 0xFFFF)
        ∧ (∀ i j, i < gT d → j < 8 → (field (cupNum t c (gDrop d + i) 1) j 1 = 1 ↔ j < gK d ∧ lost s c d (i * gK d + j) = true))
        ∧ (∀ e, e < gE d → cupNum t c (gRecord d + 4 * e) 4 = ((List.range total).filter fun p => seated s c d p && choice s c d p == e).length % 65536
              + 65536 * (((List.range total).filter fun p => lost s c d p && choice s c d p == e).length % 65536))
        ∧ (t.core c).mov.dropCount = satAdd (s.core c).mov.dropCount ((List.range total).filter fun p => lost s c d p).length
        ∧ (t.core c).mov.movedCount = satAdd (s.core c).mov.movedCount moved
        ∧ (∀ n : Fin 16, (t.core c).countReg[n] = if gCountReg d = 0x80 + n.val then BitVec.ofNat 32 moved else (s.core c).countReg[n])
        ∧ Sends s t c a ((((List.range total).filter fun p => seated s c d p).map fun p =>
              let e := choice s c d p
              (NetKind.write, expertNum s c d e 0 2, expertNum s c d e 2 1, (expertNum s c d e 4 4 + earlier s c d p e * gRowBytes d) % 2 ^ 32,
                gRowAddr d + p / gK d * gRowPitch d, gRowBytes d, 1, true, expertNum s c d e 12 1 % 64, 1))
            ++ (List.range (gE d)).map fun e => (NetKind.signal, expertNum s c d e 0 2, expertNum s c d e 2 1, 0, 0, 0, 1, true, expertNum s c d e 13 1 % 64, 1)))
    ∧ (UnitReady s c .mover 0x21 a → routeBad false d = false →
      let slot := fun p => cupNum s c (gSlot d + 2 * p) 2
      let far := fun p => slot p != 0xFFFF && decide (choice s c d p < gE d)
      let row := fun p => gRowAddr d + p * gRowPitch d
      let outs := ((List.range total).filter fun p => !far p).map fun p => (row p, gRowBytes d)
      ∃ t, exec (.gather c .perform) s = .next t ∧ MovFrame s t c a (if (List.range total).all (fun p => !far p) then .done else .busy) ∧ SameOutside s t c outs
        ∧ (∀ p b, p < total → far p = false → b < gRowBytes d → row p + b < 0x600000 → t.mem.byteAt (coreBase c + row p + b) = 0)
        ∧ (∀ n : Fin 16, gCountReg d ≠ 0x80 + n.val → (t.core c).countReg[n] = (s.core c).countReg[n])
        ∧ Sends s t c a (((List.range total).filter far).map fun p =>
              let e := choice s c d p
              (NetKind.read, expertNum s c d e 0 2, expertNum s c d e 2 1,
                (((expertNum s c d e 4 4 : Int) + ((slot p : Int) - expertNum s c d e 10 2) * gRowBytes d) % 4294967296).toNat,
                row p, gRowBytes d, 1, false, 0, 0)))

/-- COMPRESS, SCATTER and GATHER are performed. -/
def Obligations.CompressedAndRoutedRowsArePlaced : Prop := CompressKeepsTheTwoLargest ∧ ScatterAndGatherRouteTheRows

/-- REMOTE_WRITE, REMOTE_READ, MCAST and remote SIGNAL hand their packets to the mover's work with the fields of their body; data fetched early for a REMOTE_READ is written instead and the descriptor completes; PREFETCH brings a marked MOVE's data, or a marked REMOTE_READ's requests with the speculation mark, into the 64 KiB buffer, changing
nothing else (R179, R182, R189 to R191). -/
def Sys2Proof.Claims.RemoteOperationsAreHandedOver : Prop :=
  ∀ (s : State) (c : CoreId) (a : Active), s.wf →
    let d := a.entry.bits
    let item := fun (k : NetKind) (sig : Bool) =>
      [(k, body d 12 2, body d 14 1, body d 16 4, body d 20 5, body d 28 4, body d 32 4, sig, dBits d 9 0 6, body d 10 2)]
    let rsig := dBits d 8 0 1 == 1
    (∀ r ∈ [(Instr.remoteWrite c .perform, 0x23, NetKind.write, rsig), (.mcast c .perform, 0x25, .mcast, rsig)],
      UnitReady s c .mover r.2.1 a → ∃ t, exec r.1 s = .next t ∧ MovFrame s t c a .busy ∧ Sends s t c a (item r.2.2.1 r.2.2.2) ∧ t.mem = s.mem ∧ t.blf = s.blf)
    ∧ (UnitReady s c .mover 0x24 a → NoneEarly s c a →
      ∃ t, exec (.remoteRead c .perform) s = .next t ∧ MovFrame s t c a .busy ∧ Sends s t c a (item .read false) ∧ t.mem = s.mem ∧ t.blf = s.blf)
    ∧ (UnitReady s c .mover 0x31 a → dBits d 9 0 1 = 1 →
      ∃ t, exec (.signal c .perform) s = .next t ∧ MovFrame s t c a .busy ∧ t.mem = s.mem ∧ t.blf = s.blf
        ∧ Sends s t c a [(.signal, body d 16 2, body d 18 1, 0, 0, 0, 1, true, dBits d 10 0 6, body d 12 2)])
    ∧ (∀ b, UnitReady s c .mover 0x24 a → (s.core c).mov.buffer.find? (fun b => b.forId == some a.entry.id) = some b →
        b.remaining = 0 → b.refused = false → b.bytes.length = body d 28 4 * body d 32 4 → b.poison.length = b.bytes.length →
        let n := body d 28 4
        let dst := fun r => (body d 20 5 + r * body d 36 4) % 2 ^ 40
        (∀ r x, r < body d 32 4 → x < n → Granted s c (dst r + x) true) →
      ∃ t, exec (.remoteRead c .perform) s = .next t ∧ MovFrame s t c a .done
        ∧ (∀ r x, r < body d 32 4 → x < n → (∀ q, r < q → q < body d 32 4 → dst r + x < dst q ∨ dst q + n ≤ dst r + x) →
            t.mem.byteAt (dst r + x) = b.bytes.getD (r * n + x) 0)
        ∧ (∀ x, (∀ r, r < body d 32 4 → x < dst r ∨ dst r + n ≤ x) → t.mem.byteAt x = s.mem.byteAt x) ∧ NoneEarly t c a)
    ∧ (∀ src e off own after, s.powered = true → (s.core c).live = true → (s.core c).mov.q.freeze = none → s.prefetchTarget c src = some (e, off, own, after) →
        dBits e 1 4 1 = 1 → descBad false e = false → (∀ b ∈ (s.core c).mov.buffer, ¬ (b.forId = own ∧ b.after = after ∧ b.off = off ∧ b.bits = e)) →
        let room := fun n => ((s.core c).mov.buffer.map fun b => b.bytes.length).sum + n ≤ 65536
        ((dType e = 0x24 → room (body e 28 4 * body e 32 4) → ∃ t b w, exec (.prefetch c src) s = .next t
            ∧ t = s.modMov c (fun m => { m with buffer := m.buffer ++ [b], work := m.work ++ [w], bufferNext := m.bufferNext + 1 })
            ∧ b.off = off ∧ b.bits = e ∧ b.forId = own ∧ b.after = after ∧ b.id = (s.core c).mov.bufferNext ∧ b.refused = false ∧ b.remaining = body e 32 4 * ((body e 28 4 + 511) / 512)
            ∧ w.spec = true ∧ w.kind = .read ∧ w.desc = b.id ∧ w.dest.toNat = body e 12 2 ∧ w.window.toNat = body e 14 1 ∧ w.offset = body e 16 4)
        ∧ (dType e = 0x20 → body e 8 1 = 0 → (∃ x, region (body e 16 5) = .dome x) ∨ region (body e 16 5) = .cupola c → region (body e 24 5) = .cupola c →
            room (body e 32 4 * body e 36 4) → (∀ r x, r < body e 36 4 → x < body e 32 4 → Granted s c ((body e 16 5 + r * body e 40 4) % 2 ^ 40 + x) false) →
            ∃ t b, exec (.prefetch c src) s = .next t
              ∧ t = s.modMov c (fun m => { m with buffer := m.buffer ++ [b], bufferNext := m.bufferNext + 1 })
              ∧ b.id = (s.core c).mov.bufferNext ∧ b.remaining = 0 ∧ b.refused = false ∧ b.off = off ∧ b.bits = e ∧ b.forId = own ∧ b.after = after
              ∧ ∀ r x, r < body e 36 4 → x < body e 32 4 → b.bytes.getD (r * body e 32 4 + x) 0 = s.mem.byteAt ((body e 16 5 + r * body e 40 4) % 2 ^ 40 + x))))

/-- VEC, MOVE and the remote operations of the mover are performed. -/
def Obligations.CopiesAndRemoteOperationsArePerformed : Prop := VecAndMoveArePerformed ∧ RemoteOperationsAreHandedOver

/-! ## The Spire fabric and windows (08, 10) -/

namespace Sys2Proof.Claims

open Sys2Proof.Machine

/-- The buffer of LOCAL for a VC class. -/
def localBuf (s : State) (v : VcClass) : List Packet := s.spire.buf .loc v

/-- A packet that core `c`'s unit with code `unit` has injected: stamped with the partition's key, its source and the current epoch, held, and kept under a TAG that no other entry of the core uses or that rests (R252, R260, R278, R287, R288). -/
structure Injected (s t : State) (c : CoreId) (unit : Nat) (q : Packet) : Prop where
  buffer : localBuf t .req = localBuf s .req ++ [q]
  stamp : q.vc = 0 ∧ q.pkey = (s.core c).owner.getD 0 ∧ q.srcDie = s.dieId ∧ q.srcCore.toNat = c.val ∧ q.srcUnit.toNat = unit ∧ q.epoch = s.spire.cur ∧ q.hops = 0
  held : t.spire.enter[ver q.epoch] = s.spire.enter[ver q.epoch] + 1 ∧ t.spire.held[ver q.epoch] = s.spire.held[ver q.epoch] + 1
  entry : ∃ o, (t.core c).outst = (s.core c).outst ++ [o] ∧ o.unit = q.srcUnit ∧ o.pkt = { q with payload := [] } ∧ o.elapsed = 0 ∧ o.timeout = s.blf.waitDefault.toNat
    ∧ o.due = s.entriesFor q ∧ o.failed = false
  tag : (∀ o ∈ (s.core c).outst, o.pkt.tag ≠ q.tag) ∧ ∀ x ∈ (s.core c).deadTags, x.1 = q.tag.toNat → x.2 ≤ s.now
  others : SameCores s t c
  die : t = { s with cores := t.cores, spire := t.spire, mem := t.mem, blf := t.blf }
  bytes : SameBytes s t

/-- Where a DEST field sends a request: by die and core, or through the partition's rank table (R273). -/
def aimed (s : State) (c : CoreId) (dest : Nat) (q : Packet) : Prop :=
  if s.rankMode c then
    let r := s.rankEntry s.spire.cur (dest % 4096)
    bitOf r 15 = true ∧ q.amode = true ∧ q.destRank.toNat = dest % 4096 ∧ q.destDie.toNat = field r 4 6 ∧ q.destCore.toNat = field r 0 4
  else q.amode = false ∧ q.destDie.toNat = field dest 4 6 ∧ q.destCore.toNat = field dest 0 4

/-- The mover of core `c` can send the next packet of its first work item (R254, R278). -/
def MoverSends (s : State) (c : CoreId) (w : NetItem) : Prop :=
  s.powered = true ∧ (s.core c).live = true ∧ (s.core c).mov.q.freeze = none ∧ s.dstate = .up ∧ (∃ rest, (s.core c).mov.work = w :: rest)
    ∧ (∃ p, s.aim c w (s.itemPacket c w) = some p ∧ s.mayInject c p = true) ∧ (s.core c).nextTag < 4096 ∧ (∃ tag, (s.core c).freeTag s.now 4096 (s.core c).nextTag = some tag)

/-- The next packet in the buffer `port`, `v` is `p`, and the router takes from this port. -/
def AtHead (s : State) (port : SpirePort) (v : VcClass) (p : Packet) : Prop :=
  s.powered = true ∧ s.dstate = .up ∧ (s.fatal = true → port ≠ .loc) ∧ (∃ r, s.spire.buf port v = p :: r)

/-- … its source is not fenced, and no other class is granted an output it needs (R291). -/
def OnTurn (s : State) (port : SpirePort) (v : VcClass) (p : Packet) : Prop :=
  AtHead s port v p ∧ bitOf s.blf.fenced.toNat p.srcDie.toNat = false ∧ s.outranked v (s.fate port p) = false

/-- The port admits the packet's key (R275). -/
def Admits (s : State) (port : SpirePort) (p : Packet) : Prop :=
  if p.op = 0x10 ∨ p.op = 0x11 ∨ p.op = 0x21 then p.pkey = 0
  else p.vc ≠ 2 ∧ p.pkey ≠ 0 ∧ ∃ i : Fin 8, ((s.spire.keys[portNum port])[i]).getLsbD 16 = true ∧ ((s.spire.keys[portNum port])[i]).setWidth 16 = p.pkey

/-- The packet has left its buffer, which every other buffer but those of `out` keeps as it was. -/
def TookPacket (s t : State) (port : SpirePort) (v : VcClass) : Prop := t.spire.buf port v = (s.spire.buf port v).tail

/-- Packet `p` goes out over edge `e` as `q`: to the edge its DEST_UNIT names on its own die, by the PORT of its route entry, or by ESC_PORT where the entry, a
turn to the west or the escape network it is on sends it there and up*/down* allows it (R266, R269, R270). -/
def Goes (s : State) (p : Packet) (e : EdgeId) (q : Packet) : Prop :=
  let r := s.routeEntry p.epoch p.destDie
  (p.destDie = s.dieId ∧ p.destUnit.toNat = 12 + e.val ∧ q = p)
  ∨ (p.destDie ≠ s.dieId ∧ bitOf s.blf.fenced.toNat p.destDie.toNat = false ∧ bitOf r 8 = true ∧ field r 0 3 ≠ 7
      ∧ ((p.vc ≠ 3 ∧ bitOf r 3 = false ∧ field r 0 3 = e.val ∧ ¬ (e = 3 ∧ p.turned = true) ∧ q = p)
        ∨ ((p.vc = 3 ∨ bitOf r 3 = true ∨ (field r 0 3 = 3 ∧ p.turned = true)) ∧ field r 4 3 = e.val ∧ (p.down = true → bitOf r 7 = false)
            ∧ q = { p with vc := 3, escP := if p.vc = 3 then p.escP else p.vc != 0, down := p.down || !bitOf r 7 })))

/-- Packet `p` has no way on: its die is fenced, its entry is not valid or has PORT = 7, also on the escape network, or the escape network it is to take has no port
or would turn up again (R270, R271, R406). -/
def Stranded (s : State) (p : Packet) : Prop :=
  let r := s.routeEntry p.epoch p.destDie
  p.destDie ≠ s.dieId ∧ (bitOf s.blf.fenced.toNat p.destDie.toNat = true ∨ bitOf r 8 = false ∨ field r 0 3 = 7
    ∨ ((p.vc = 3 ∨ bitOf r 3 = true ∨ (field r 0 3 = 3 ∧ p.turned = true)) ∧ (field r 4 3 = 7 ∨ (p.down = true ∧ bitOf r 7 = true))))

/-- The packet was dropped for want of a route, or for its hops: counted, logged with 0x203, and, where it is a request of a unit of this die, answered with
the NACK UNREACHABLE (R271). -/
structure RouteDropped (s t : State) (port : SpirePort) (v : VcClass) (p : Packet) (hops : Bool) : Prop where
  took : t.spire.buf port v = (s.spire.buf port v).tail
  record : (nextRecord s t).code = 0x203 ∧ (nextRecord s t).cls = .corrected ∧ (nextRecord s t).pkey = p.pkey ∧ (nextRecord s t).inst.toNat = (portNum port).val
  quiet : p.isReq = false → t.spire.exits[ver p.epoch] = s.spire.exits[ver p.epoch] + 1 ∧ t.spire.localRsp = s.spire.localRsp
    ∧ t.spire.dropHops = (if hops then satAdd s.spire.dropHops 1 else s.spire.dropHops)
    ∧ t.spire.dropRoute = (if hops then s.spire.dropRoute else satAdd s.spire.dropRoute 1)
  nack : p.isReq = true → p.srcDie = s.dieId → p.srcUnit ≠ 8 → p.srcUnit.toNat < 12 →
    ∃ n, n ∈ t.spire.localRsp ∧ n.op = 0x3F ∧ n.aux = 5 ∧ n.tag = p.tag ∧ n.destUnit = p.srcUnit
  cores : t.cores = s.cores
  mem : t.mem = s.mem

/-- The packet was dropped for its key or its form: counted, logged with 0x201, and a notice sent towards its source (R264, R275, R277). -/
structure KeyDropped (s t : State) (port : SpirePort) (p : Packet) : Prop where
  left : t.spire.exits[ver p.epoch] = s.spire.exits[ver p.epoch] + 1
  count : t.spire.dropKey = satAdd s.spire.dropKey 1
  record : (lastRecord t).code = 0x201 ∧ (lastRecord t).cls = .contained ∧ (lastRecord t).pkey = p.pkey ∧ (lastRecord t).inst.toNat = (portNum port).val
  notice : ∃ n, n ∈ t.spire.buf .mgmt .mgt ∧ n.isNotice = true ∧ n.destDie = p.srcDie ∧ n.aux = 0x201 ∧ n.pkey = 0 ∧ n.payload = leBytes p.header 32
  unanswered : t.spire.localReq = s.spire.localReq ∧ t.spire.localRsp = s.spire.localRsp
  cores : t.cores = s.cores
  mem : t.mem = s.mem

/-- The packet stopped being held here (R288). -/
def Left (s t : State) (p : Packet) : Prop := t.spire.exits[ver p.epoch] = s.spire.exits[ver p.epoch] + 1

/-- A request stands at the head of LOCAL's queue, its answer has room and its rank check passes (R273, R278, R279). -/
def Arrives (s : State) (op : Nat) (p : Packet) : Prop :=
  s.powered = true ∧ s.dstate = .up ∧ (∃ r, s.spire.localReq = p :: r) ∧ p.op = op ∧ s.localRoom .rsp = true
    ∧ (p.amode = true → p.mc = false → let r := s.rankEntry p.epoch p.destRank.toNat
        bitOf r 15 = true ∧ field r 4 6 = s.dieId.toNat ∧ field r 0 4 = p.destCore.toNat)

/-- The range of window `w` holds die-local byte `a`. -/
def Window.holds (w : Window) (a : Nat) : Prop := w.valid = true ∧ w.base.toNat ≤ a ∧ a < w.base.toNat + (w.len64.toNat + 1) * 64

/-- The request passes the checks of Table MEM-4 at die-local address `a` under the governing window `g`, and its target may be reached (R19, R25, R226, R227). -/
def Passes (s : State) (p : Packet) (a : Nat) (g : Fin 256) : Prop :=
  let w := s.spire.windows[Fin.ofNat 256 p.window.toNat]
  let n := if p.op = 5 then 1 else 16 * p.len.toNat
  let x := s.spire.windows[g]
  w.valid = true ∧ p.offset.toNat + n ≤ (w.len64.toNat + 1) * 64 ∧ a = w.base.toNat + p.offset.toNat
    ∧ Window.holds x a ∧ (∀ j : Fin 256, j < g → ¬ Window.holds s.spire.windows[j] a) ∧ x.pkey = p.pkey
    ∧ (match p.op with
      | 1 | 6 => x.wr = true
      | 2 => x.wr = true ∧ x.sig = true
      | 3 => x.rd = true ∧ (p.spec = true → x.specOk = true)
      | 5 => x.sig = true
      | _ => False)
    ∧ a + n ≤ x.base.toNat + (x.len64.toNat + 1) * 64 ∧ inGap a (max n 1) = false
    ∧ s.keyAt a = some p.pkey ∧ s.keyAt (a + max n 1 - 1) = some p.pkey ∧ s.stateRefuses p a x.owner = none

/-- An answer to `p` with this opcode and reason has entered at LOCAL (R262): on RSP, to the source and TAG of the request. -/
def Answered (s t : State) (p : Packet) (op aux : Nat) : Prop :=
  ∃ q, localBuf t .rsp = localBuf s .rsp ++ [q] ∧ q.op = op ∧ q.aux.toNat = aux ∧ q.vc = 1 ∧ q.destDie = p.srcDie ∧ q.destCore = p.srcCore ∧ q.destUnit = p.srcUnit
    ∧ q.tag = p.tag ∧ q.pkey = p.pkey ∧ q.srcUnit = 7 ∧ q.epoch = s.spire.cur ∧ (op ≠ 4 → q.payload = [])

/-- The request has been taken off LOCAL's queue. -/
def Popped (s t : State) : Prop := t.spire.localReq = s.spire.localReq.tail

/-- Byte `a` lies in the Dome or in a Cupola. -/
def Plain (a : Nat) : Prop := (∃ d, region a = .dome d) ∨ ∃ c, region a = .cupola c

end Sys2Proof.Claims

/-- PACKET_INJECTION: the mover's next packet takes an entry, carries the opcode, window, offset, length, index and data of its place in the item (a SCATTER's from its Cupola offset), and the item moves on; without entries or room it waits; an engine's CLOSE_CHAIN sends each row block once, over the die NoC with LOCAL = 1, ACC_CHAIN_RESEND a refused block again; Campanile sends its READs (R122 to R124, R179,
R273, R278, R410). -/
def Obligations.PacketsAreInjectedInOrder : Prop :=
  ∀ (s : State) (c : CoreId), s.wf →
    (∀ w, MoverSends s c w → let n := min 512 (w.rowBytes - w.pos)
      let last := w.rows ≤ w.row + 1 ∧ w.rowBytes ≤ w.pos + n
      let at_ := (w.loc + w.row * w.localPitch + w.pos) % 2 ^ 40
      let src := if s.moverKind c w.desc .scatter then coreBase c + at_ else at_
      ((w.kind = .write ∨ w.kind = .mcast) → if s.moverKind c w.desc .scatter then at_ + n ≤ 0x600000 else ∀ b, b < n → Granted s c (src + b) false) →
      ∃ t q, exec (.packetInjection (.unit c .mover)) s = .next t ∧ Injected s t c 5 q ∧ q.seq.toNat = w.seq % 65536 ∧ q.spec = w.spec
        ∧ ((w.kind = .write ∨ w.kind = .mcast) → q.op = (if last ∧ w.signal = true then 2 else 1) ∧ q.len.toNat = n / 16 % 64 ∧ q.payload.length = n
            ∧ ∀ b, b < n → q.payload.getD b 0 = s.mem.byteAt (src + b))
        ∧ (w.kind = .read → q.op = 3 ∧ q.len.toNat = n / 16 % 64 ∧ q.payload = [])
        ∧ (w.kind = .signal → q.op = 5 ∧ q.payload = [] ∧ q.sigCnt = w.sigCnt ∧ q.sigInc = w.sigInc)
        ∧ (w.kind = .fence → q.op = 0x20 ∧ q.payload = [])
        ∧ (w.kind = .write ∨ w.kind = .read ∨ w.kind = .mcast → q.window = w.window ∧ q.offset.toNat = (w.offset + w.row * w.remotePitch + w.pos) % 2 ^ 32)
        ∧ (w.kind = .write ∨ w.kind = .read ∨ w.kind = .signal → aimed s c w.dest.toNat q) ∧ (w.kind = .mcast → q.mc = true ∧ q.aux.toNat = w.group.toNat)
        ∧ ((w.kind = .write ∨ w.kind = .read ∨ w.kind = .mcast) → ¬ last → ∃ r v, (s.core c).mov.work = w :: r ∧ (t.core c).mov.work = v :: r ∧ v.seq = w.seq + 1
            ∧ (v.row, v.pos) = (if w.pos + n < w.rowBytes then (w.row, w.pos + n) else (w.row + 1, 0)) ∧ v.desc = w.desc)
        ∧ ((w.kind = .signal ∨ w.kind = .fence ∨ last) → (t.core c).mov.work = (s.core c).mov.work.tail)
        ∧ ((q.op = 1 ∨ q.op = 2 ∨ q.op = 5) → q.mc = false → (q.destDie, false) ∈ (t.core c).mov.fenceDests))
    ∧ (∀ w r p, (s.core c).mov.work = w :: r → s.powered = true → (s.core c).live = true → (s.core c).mov.q.freeze = none →
        s.aim c w (s.itemPacket c w) = some p → s.mayInject c p = false → exec (.packetInjection (.unit c .mover)) s = .next s)
    ∧ (∀ e g b a, s.powered = true → (s.core c).live = true → (s.eng c e).q.freeze = none → s.dstate = .up → (s.eng c e).chainDesc g = some a →
        let d := a.entry.bits
        let sent := fun (t : State) (q : Packet) => q.op = 6 ∧ q.len = 32 ∧ q.seq.toNat = b ∧ q.payload.length = 512
          ∧ (∀ i, i < 512 → q.payload.getD i 0 = s.mem.byteAt (groupBase c e g + 512 * b + i)) ∧ (t.group c e g).sent.getLsbD b = true
          ∧ (t.group c e g).resend.getLsbD b = false ∧ (t.group c e g).state = (s.group c e g).state ∧ SameBytes s t
        let far := fun (t : State) => ∃ q, Injected s t c e.val q ∧ sent t q ∧ q.window.toNat = dBytes d 38 1 ∧ q.offset.toNat = (dBytes d 40 4 + 512 * b) % 2 ^ 32
          ∧ aimed s c (dBytes d 36 2) q
        let near := fun (t : State) => ∃ q, t.spire.nocQ = s.spire.nocQ ++ [q] ∧ sent t q ∧ q.pkey = (s.core c).owner.getD 0 ∧ (t.core c).outst = (s.core c).outst
          ∧ 0x0100000000 + q.offset.toNat = groupBase (Fin.ofNat 16 (dBits d 36 0 4)) (Fin.ofNat 4 (dBits d 39 0 2)) (Fin.ofNat 8 (dBits d 39 2 3)) + 512 * b
        let may := (s.core c).nextTag < 4096 ∧ (∃ tag, (s.core c).freeTag s.now 4096 (s.core c).nextTag = some tag) ∧ dBits d 10 5 1 = 0
          ∧ ∃ p, s.address c (BitVec.ofNat 16 (dBytes d 36 2)) { s.request c e.val 6 with
              len := 32, seq := BitVec.ofNat 16 b, window := BitVec.ofNat 8 (dBytes d 38 1), offset := BitVec.ofNat 32 (dBytes d 40 4 + 512 * b) } = some p
            ∧ s.mayInject c p = true
        (b < 16 → (s.eng c e).nextChain = some (g, b) → (dBits d 10 5 1 = 1 → ∃ t, exec (.packetInjection (.unit c (.eng e))) s = .next t ∧ near t)
          ∧ (may → ∃ t, exec (.packetInjection (.unit c (.eng e))) s = .next t ∧ far t))
        ∧ (∀ (hb : b < 16), (s.group c e g).state = .closing → (s.group c e g).failed = false → (s.group c e g).resend.getLsbD b = true →
          (dBits d 10 5 1 = 1 → ∃ t, exec (.accChainResend c e g ⟨b, hb⟩) s = .next t ∧ near t) ∧ (may → ∃ t, exec (.accChainResend c e g ⟨b, hb⟩) s = .next t ∧ far t)))
    ∧ (∀ w r, s.powered = true → s.dstate = .up → s.fatal = false → s.localRoom .req = true → s.outstanding < 4096 → s.blf.campWork = w :: r →
        ∃ t q, exec (.packetInjection .campanile) s = .next t ∧ localBuf t .req = localBuf s .req ++ [q] ∧ q.op = 3 ∧ q.srcUnit = 8 ∧ q.window = w.window
          ∧ q.offset.toNat = (w.offset + w.pos) % 2 ^ 32 ∧ t.blf.campOut.length = s.blf.campOut.length + 1 ∧ t.mem = s.mem ∧ t.cores = s.cores)

/-- ROUTER_HOP of a packet for this die delivers it to MGMT, LOCAL or its edge; one for another die leaves by its port, or by the escape network, with HOPS and TURNED; where its output is down or its HOPS is 63, or it
has no way on, it is dropped and counted, a request with a NACK (R266, R269 to R271, R280). -/
def Sys2Proof.Claims.RoutersDeliverForwardOrDrop : Prop :=
  ∀ (s : State) (port : SpirePort) (v : VcClass) (p : Packet), OnTurn s port v p → p.malformed = false → Admits s port p → p.op ≠ 0x21 → p.mc = false →
    let i := Instr.routerHop port v none
    let here := p.destDie = s.dieId
    (here → p.destUnit = 8 → ∃ t, exec i s = .next t ∧ TookPacket s t port v ∧ Left s t p ∧ t.spire.mgmtQ = s.spire.mgmtQ ++ [p] ∧ t.cores = s.cores ∧ t.mem = s.mem)
    ∧ (here → p.destUnit ≠ 8 → p.destUnit.toNat < 12 → p.isMgmt = false → p.isReq = true → s.spire.localReq = [] →
        ∃ t, exec i s = .next t ∧ TookPacket s t port v ∧ Left s t p ∧ t.spire.localReq = [p] ∧ t.cores = s.cores ∧ t.mem = s.mem)
    ∧ (here → p.destUnit ≠ 8 → p.destUnit.toNat < 12 → p.isMgmt = false → p.isReq = false → s.spire.localRsp = [] →
        ∃ t, exec i s = .next t ∧ TookPacket s t port v ∧ Left s t p ∧ t.spire.localRsp = [p] ∧ t.cores = s.cores ∧ t.mem = s.mem)
    ∧ (∀ e q, Goes s p e q → s.carries e = true → (s.edges[e]).outq[clsIdx q.cls] = [] →
        (p.hops ≠ 63 → ∃ t, exec i s = .next t ∧ TookPacket s t port v ∧ t.cores = s.cores ∧ t.mem = s.mem
          ∧ (t.edges[e]).outq[clsIdx q.cls] = [{ q with hops := q.hops + 1, turned := q.turned || decide (e ≠ 3) }])
        ∧ (p.hops = 63 → ∃ t, exec i s = .next t ∧ RouteDropped s t port v p true))
    ∧ (∀ e q, Goes s p e q → s.carries e = false → ∃ t, exec i s = .next t ∧ RouteDropped s t port v p false)
    ∧ (Stranded s p → ∃ t, exec i s = .next t ∧ RouteDropped s t port v p false)

/-- ROUTER_HOP of a packet whose key the port's set does not admit, or that is malformed, drops it with 0x201 and a notice once MGMT has room for it; one from a fenced die is dropped and counted unanswered; an EPOCH_MARK is handed to Campanile; a multicast packet is copied to each output of its entry, and one whose
entry does not admit it is dropped; a packet whose output is busy or granted to another class waits; a packet that arrives from an edge enters its buffer before the hop (R264, R275, R277, R282, R283, R286, R291, R406). -/
def Sys2Proof.Claims.RoutersCheckCopyOrWait : Prop :=
  ∀ (s : State) (port : SpirePort) (v : VcClass) (p : Packet), AtHead s port v p →
    let i := Instr.routerHop port v none
    let m := s.mcastEntry p
    let inPort := field m 1 3 = (portNum port).val ∧ field m 16 16 = p.pkey.toNat
    let turnsBack := (port = .edge 0 ∨ port = .edge 2) ∧ (bitOf m 5 = true ∨ bitOf m 7 = true)
    let open_ := bitOf s.blf.fenced.toNat p.srcDie.toNat = false
    (open_ → s.mgmtRoom .mgt = true → p.malformed = true ∨ ¬ Admits s port p ∨ (p.op ≠ 0x21 ∧ p.mc = true ∧ bitOf m 0 = true ∧ ¬ inPort) →
      ∃ t, exec i s = .next t ∧ KeyDropped s t port p)
    ∧ (bitOf s.blf.fenced.toNat p.srcDie.toNat = true →
      ∃ t, exec i s = .next t ∧ TookPacket s t port v ∧ Left s t p ∧ t.spire.dropKey = satAdd s.spire.dropKey 1 ∧ t.spire.localReq = s.spire.localReq
        ∧ t.spire.localRsp = s.spire.localRsp ∧ (nextRecord s t).code = 0x801 ∧ (nextRecord s t).detail = 3 ∧ t.cores = s.cores ∧ t.mem = s.mem)
    ∧ (∀ e, open_ → port = .edge e → p.malformed = false → Admits s port p → p.op = 0x21 →
      ∃ t, exec i s = .next t ∧ TookPacket s t port v ∧ Left s t p ∧ t.spire.markQ = s.spire.markQ ++ [(e, p)] ∧ t.cores = s.cores ∧ t.mem = s.mem ∧ t.blf = s.blf)
    ∧ (OnTurn s port v p → p.malformed = false → Admits s port p → p.op ≠ 0x21 → p.mc = true →
      (bitOf m 0 = true → inPort → ¬ turnsBack →
        (∀ e : EdgeId, bitOf m (4 + e.val) = true → s.carries e = true ∧ p.hops ≠ 63 ∧ (s.edges[e]).outq[clsIdx p.cls] = []) →
        (bitOf m 8 = true → s.spire.localReq = [] ∧ p.isReq = true) →
        ∃ t, exec i s = .next t ∧ TookPacket s t port v ∧ (bitOf m 8 = true → t.spire.localReq = [{ p with destUnit := 7 }]) ∧ t.cores = s.cores ∧ t.mem = s.mem
          ∧ ∀ e : EdgeId, bitOf m (4 + e.val) = true →
              (t.edges[e]).outq[clsIdx p.cls] = [{ p with hops := p.hops + 1, turned := p.turned || decide (e ≠ 3) }])
      ∧ (bitOf m 0 = false ∨ (inPort ∧ turnsBack) → ∃ t, exec i s = .next t ∧ RouteDropped s t port v p false))
    ∧ (s.mustWait (s.fate port p) = true ∨ s.outranked v (s.fate port p) = true → exec i s = .next s)
    ∧ (∀ e q w, s.carries e = true → s.foreign e = false →
        exec (.routerHop (.edge e) w (some q)) s = exec (.routerHop (.edge e) q.cls none) (s.arrive e q))

/-- ROUTER_HOP checks, routes, copies or drops the packet at the head of a port's buffer (R264, R266, R269 to R271, R275, R277, R282, R283). -/
def Obligations.RoutersCheckRouteAndDrop : Prop := RoutersDeliverForwardOrDrop ∧ RoutersCheckCopyOrWait

/-- Requests at LOCAL: one that passes the checks is performed and completed (a WRITE's bytes land, a signal is held behind them and then added to its counter, a READ returns the bytes with their marks, an ACC_CHAIN block lands in its waiting group, which opens with the sixteenth), others are refused with their NACK and fault; a FENCE_MARK returns behind the signals of
its source (R123, R226 to R229, R253, R262, R279). -/
def Obligations.WindowAccessesArePerformedOrRefused : Prop :=
  ∀ (s : State) (p : Packet) (a : Nat) (g : Fin 256), s.wf →
    let n := 16 * p.len.toNat
    let counted := fun (t : State) (f : Window → Window) => ∀ j : Fin 256, t.spire.windows[j] = if j = g then f s.spire.windows[j] else s.spire.windows[j]
    let signal := fun (t : State) => ∃ h, t.spire.heldSigs = s.spire.heldSigs ++ [h] ∧ h.core = (s.spire.windows[g]).owner ∧ h.counter = p.sigCnt ∧ h.inc = p.sigInc
      ∧ h.srcDie = p.srcDie ∧ h.srcUnit = p.srcUnit ∧ h.srcCore = p.srcCore
    (∀ r ∈ [(Instr.write, 1), (.writeSignal, 2)], Arrives s r.2 p → Passes s p a g → p.payload.length = n → 0 < n → Plain a →
      ∃ t, exec r.1 s = .next t ∧ Popped s t ∧ Answered s t p 4 0 ∧ counted t (fun w => { w with writes := satAdd w.writes 1 })
        ∧ (∀ i, i < n → t.mem.byteAt (a + i) = p.payload.getD i 0 ∧ (p.poison.getLsbD (i / 8) = true → t.mem.marked ((a + i) / 8) = true))
        ∧ SameBytesBut s t a n ∧ t.cores = s.cores ∧ (a % 8 = 0 ∨ s.mem.upsets = [] → t.blf = s.blf) ∧ (r.2 = 1 → t.spire.heldSigs = s.spire.heldSigs) ∧ (r.2 = 2 → signal t))
    ∧ (Arrives s 5 p → Passes s p a g → ∃ t, exec .signalPacket s = .next t ∧ Popped s t ∧ Answered s t p 4 0 ∧ signal t ∧ t.mem = s.mem ∧ t.cores = s.cores)
    ∧ (∀ h r, s.powered = true → s.spire.heldSigs = h :: r → ∃ t, exec .heldSignalPerform s = .next t
        ∧ Counted (s.modSpire fun x => { x with heldSigs := r }) t (Fin.ofNat 16 h.core.toNat) (Fin.ofNat 64 h.counter.toNat) (.add h.inc.toNat))
    ∧ (Arrives s 3 p → Passes s p a g → p.spec = false → 0 < n → Plain a →
      ∃ t q, exec .read s = .next t ∧ Popped s t ∧ Answered s t p 4 0 ∧ counted t (fun w => { w with reads := satAdd w.reads 1 })
        ∧ localBuf t .rsp = localBuf s .rsp ++ [q] ∧ q.len = p.len ∧ q.payload.length = n ∧ (∀ i, i < n → q.payload.getD i 0 = s.mem.byteAt (a + i))
        ∧ (a % 8 = 0 → Undamaged s a n → ∀ i, i < n / 8 → q.poison.getLsbD i = s.mem.marked (a / 8 + i)) ∧ SameBytes s t ∧ t.cores = s.cores)
    ∧ (∀ c e h b, Arrives s 6 p → Passes s p a g → p.len = 32 → p.payload.length = 512 → a = groupBase c e h + 512 * b → b < 16 →
        ((s.core c).present = true ∧ (s.core c).short = false ∧ (s.core c).cstate = .c0 → (s.group c e h).state = .waitChain →
          ∃ t, exec .accChain s = .next t ∧ Popped s t ∧ Answered s t p 4 0 ∧ SameBytesBut s t a 512 ∧ (∀ i, i < 512 → t.mem.byteAt (a + i) = p.payload.getD i 0)
            ∧ counted t (fun w => { w with writes := satAdd w.writes 1 }) ∧ SameCores s t c
            ∧ ((s.group c e h).arrived ||| BitVec.ofNat 16 (2 ^ b) = 0xFFFF → s.frozen c (.eng e) = none → OpenAt (t.group c e h) 1)
            ∧ ((s.group c e h).arrived ||| BitVec.ofNat 16 (2 ^ b) ≠ 0xFFFF → t.group c e h = { s.group c e h with arrived := (s.group c e h).arrived ||| BitVec.ofNat 16 (2 ^ b) }))
        ∧ ((s.group c e h).state ≠ .waitChain → ∃ t, exec .accChain s = .next t ∧ Popped s t ∧ Answered s t p 0x3F 4 ∧ t.mem = s.mem ∧ t.cores = s.cores ∧ t.blf = s.blf))
    ∧ (∀ r ∈ [(Instr.write, 1), (.writeSignal, 2), (.signalPacket, 5), (.read, 3), (.accChain, 6)], Arrives s r.2 p → p.spec = false →
        let w := s.spire.windows[Fin.ofNat 256 p.window.toNat]
        let k := p.offset.toNat + if p.op = 5 then 1 else n
        (w.valid = false ∨ (w.len64.toNat + 1) * 64 < k →
          ∃ t, exec r.1 s = .next t ∧ Popped s t ∧ Answered s t p 0x3F 1 ∧ (lastRecord t).code = 0x202 ∧ (lastRecord t).cls = .contained
            ∧ (lastRecord t).address = p.offset.setWidth 64 ∧ (lastRecord t).pkey = p.pkey ∧ t.mem = s.mem ∧ t.cores = s.cores)
        ∧ (w.valid = true → k ≤ (w.len64.toNat + 1) * 64 → Window.holds s.spire.windows[g] (w.base.toNat + p.offset.toNat) →
            (∀ j : Fin 256, j < g → ¬ Window.holds s.spire.windows[j] (w.base.toNat + p.offset.toNat)) → (s.spire.windows[g]).pkey ≠ p.pkey →
          ∃ t, exec r.1 s = .next t ∧ Popped s t ∧ Answered s t p 0x3F 2 ∧ (lastRecord t).code = 0x201 ∧ (lastRecord t).cls = .contained ∧ t.mem = s.mem ∧ t.cores = s.cores
            ∧ (g ≠ Fin.ofNat 256 p.window.toNat → t.spire.multi = true)))
    ∧ (Arrives s 0x20 p → (∀ h ∈ s.spire.heldSigs, ¬ (h.srcDie = p.srcDie ∧ h.srcUnit = p.srcUnit ∧ h.srcCore = p.srcCore)) →
        ∃ t, exec .fenceMark s = .next t ∧ Popped s t ∧ Answered s t p 0x20 0 ∧ t.mem = s.mem ∧ t.cores = s.cores ∧ t.blf = s.blf)

/-- Answers at their source: a READ_RSP lands its data and frees its entry, a completion frees it, the sixteenth acceptance of a CLOSE_CHAIN closes its group; a NACK frees the entry and freezes the unit with the fault of its reason, but NOT_WAITING only asks for the block again and a refused early read logs nothing; a returned FENCE_MARK counts for its FENCE; an
EPOCH_MARK of a later generation flips a ready die; a violation notice freezes the master it names, and a poisoned one is a fatal fault of Campanile (R123, R190, R252, R263, R277, R286, R396). -/
def Obligations.AnswersAndMarksReachTheirSource : Prop :=
  ∀ (s : State) (c : CoreId) (p : Packet) (o : Outst), s.wf → s.powered = true → s.dstate = .up →
    let entry := (s.core c).outst.find? fun o => o.unit == p.destUnit && o.pkt.tag == p.tag
    let mine := fun op => (∃ r, s.spire.localRsp = p :: r) ∧ p.op = op ∧ p.destCore.toNat = c.val ∧ p.destUnit ≠ 8 ∧ entry = some o
      ∧ ∀ x ∈ (s.core c).outst, x.unit = p.destUnit → x.pkt.tag = p.tag → x.due = 1
    let freed := fun (t : State) => t.spire.localRsp = s.spire.localRsp.tail ∧ ∀ x ∈ (t.core c).outst, ¬ (x.unit = p.destUnit ∧ x.pkt.tag = p.tag)
    let dst := if s.moverKind c o.desc .gather then coreBase c + o.loc else o.loc
    (mine 4 → p.destUnit = 5 → o.pkt.op = 3 → o.spec = false →
      (if s.moverKind c o.desc .gather then o.loc + p.payload.length ≤ 0x600000 else ∀ b, b < p.payload.length → Granted s c (dst + b) true) →
      ∃ t, exec .readRsp s = .next t ∧ freed t ∧ SameCores s t c ∧ SameBytesBut s t dst p.payload.length
        ∧ ∀ b, b < p.payload.length → t.mem.byteAt (dst + b) = p.payload.getD b 0)
    ∧ (mine 4 → p.destUnit = 5 → o.pkt.op ≠ 3 → ∃ t, exec .readRsp s = .next t ∧ freed t ∧ SameCores s t c ∧ t.mem = s.mem ∧ t.blf = s.blf)
    ∧ (∀ e a, mine 4 → p.destUnit.toNat = e.val → (s.eng c e).q.active.find? (fun a => a.entry.id == o.desc) = some a →
        let g := aGroup a.entry.bits
        let all := (s.group c e g).accepted ||| BitVec.ofNat 16 (2 ^ o.pkt.seq.toNat)
        o.pkt.seq.toNat < 16 → (s.group c e g).state = .closing → (s.group c e g).failed = false →
        ∃ t, exec .readRsp s = .next t ∧ freed t ∧ t.mem = s.mem ∧ (t.group c e g).accepted = all ∧ (t.group c e g).state = if all = 0xFFFF then .closed else .closing)
    ∧ (∀ u, mine 0x3F → unitOf p.destUnit.toNat = some u → o.spec = false → p.aux.toNat ≠ 4 → o.pkt.opcode ≠ 0x20 →
        ∃ t, exec .nack s = .next t ∧ freed t ∧ (t.frozen c u).isSome = true ∧ t.mem = s.mem
          ∧ (s.frozen c u = none → (t.core c).seq.faultDesc = BitVec.ofNat 23 o.off)
          ∧ (lastRecord t).code = (if p.aux.toNat = 1 then 0x202 else if p.aux.toNat = 2 then 0x201 else 0x203) ∧ (lastRecord t).cls = .contained
          ∧ (∀ a ∈ ((t.core c).unitQ u).active, a.entry.id = o.desc → a.progress = .done ∨ a.progress = .failed))
    ∧ (∀ e a, mine 0x3F → p.destUnit.toNat = e.val → o.spec = false → p.aux = 4 → (s.eng c e).q.active.find? (fun a => a.entry.id == o.desc) = some a →
        (s.group c e (aGroup a.entry.bits)).state = .closing → (s.group c e (aGroup a.entry.bits)).failed = false → o.pkt.seq.toNat < 16 →
        ∃ t, exec .nack s = .next t ∧ freed t ∧ t.blf = s.blf ∧ t.mem = s.mem ∧ (t.group c e (aGroup a.entry.bits)).resend.getLsbD o.pkt.seq.toNat = true)
    ∧ (mine 0x3F → p.destUnit = 5 → o.spec = true → ∃ t, exec .nack s = .next t ∧ freed t ∧ t.blf = s.blf ∧ t.mem = s.mem ∧ (t.core c).mov.q = (s.core c).mov.q
        ∧ ∀ b ∈ (t.core c).mov.buffer, b.id = o.desc → b.refused = true)
    ∧ (∀ f k, mine 0x20 → s.headReq 0x20 = none → (s.core c).seq.fencing = some f → f.entry.id = o.desc → f.marks = some k →
        ∃ t, exec .fenceMark s = .next t ∧ freed t ∧ (t.core c).seq.fencing = some { f with marks := some (k - 1) } ∧ t.mem = s.mem ∧ t.blf = s.blf)
    ∧ (∀ (e : EdgeId) r, s.spire.markQ = (e, p) :: r →
        let ahead := (p.aux - s.spire.gen).toNat
        ((ahead = 0 ∨ 32767 < ahead) → exec .epochMark s = .next (s.modSpire fun x => { x with markQ := r }))
        ∧ (1 ≤ ahead → ahead ≤ 32767 → s.spire.lock = false → s.spire.loaded = 3 → p.epoch ≠ s.spire.cur →
          ∃ t, exec .epochMark s = .next t ∧ t.spire.cur = !s.spire.cur ∧ t.spire.gen = s.spire.gen + 1 ∧ t.spire.lock = true ∧ t.spire.loaded = 0 ∧ t.mem = s.mem ∧ t.cores = s.cores)
        ∧ (1 ≤ ahead → ahead ≤ 32767 → (s.spire.lock = true ∨ s.spire.loaded ≠ 3 ∨ p.epoch = s.spire.cur) →
          ∃ t, exec .epochMark s = .next t ∧ t.spire = { s.spire with markQ := r } ∧ (lastRecord t).code = 0x203))
    ∧ (∀ n r, s.spire.mgmtQ = n :: r → n.isNotice = true → n.poisoned = true →
        ∃ t, exec .violationNotice s = .next t ∧ t.spire.mgmtQ = r ∧ t.fatal = true ∧ (lastRecord t).code = 0x103 ∧ (lastRecord t).cls = .fatal
          ∧ (lastRecord t).detail = 0xFFFFFFFF ∧ t.mem = s.mem)
    ∧ (∀ n r u, s.spire.mgmtQ = n :: r → n.isNotice = true → n.poisoned = false →
        let q := packetOf (leNat n.payload) []
        q.srcDie = s.dieId → q.srcUnit.toNat < 7 → unitOf q.srcUnit.toNat = some u → q.srcCore.toNat = c.val →
        ∃ t, exec .violationNotice s = .next t ∧ t.spire.mgmtQ = r ∧ (t.frozen c u).isSome = true ∧ t.mem = s.mem ∧ SameCores s t c
          ∧ (s.frozen c u = none → (t.frozen c u).map (·.cause) = some .violation))

/-! ## The Parapet edges (11) -/

namespace Sys2Proof.Claims

open Sys2Proof.Machine

/-- The native peer of a module reports what R301 asks of it. -/
def meets (s : State) (e : EdgeId) (p : ModulePeer) : Prop :=
  p.module.toNat = 19 - p.m.val
    ∧ if s.attach e = 1 then
        p.att = 1 ∧ p.edge.toNat = (e.val + 2) % 4 ∧ (match e with
          | 0 => p.x.toNat = s.siteX ∧ p.y.toNat = s.siteY + 1
          | 1 => p.x.toNat = s.siteX + 1 ∧ p.y.toNat = s.siteY
          | 2 => p.x.toNat = s.siteX ∧ p.y.toNat + 1 = s.siteY
          | 3 => p.x.toNat + 1 = s.siteX ∧ p.y.toNat = s.siteY)
      else p.att.toNat = s.attach e

/-- A repair word names lane `l` as failed (Table PAR-5). -/
def listsLane (w : Word) (l : Nat) : Bool := decide (l < 68) && (List.range 4).any fun i => field w.toNat (7 * i) 7 == l

/-- How many lanes fail in one direction. -/
def failing (f : Nat → Bool) : Nat := ((List.range 68).filter f).length

/-- Two repair words keep a direction of a module usable (R305). -/
def sound (a b : Word) : Prop := failing (fun l => listsLane a l || listsLane b l) ≤ 4 ∧ a.getLsbD 30 = false ∧ b.getLsbD 30 = false

/-- The MB_INIT test of a direction that had the map `w` keeps it usable (R305). -/
def stands (w : Word) (t : DirTest) : Prop :=
  failing (fun l => listsLane w l || t.lanes.any fun x => x.val == l) ≤ 4 ∧ t.clk = false ∧ ¬ ((w.getLsbD 29 = true ∨ t.vld = true) ∧ t.vldSpare = true)
    ∧ ¬ ((w.getLsbD 28 = true ∨ t.trk = true) ∧ t.trkSpare = true)

/-- The physical lanes `l` carry logical lanes 0 to 63 in turn: good lanes of D0 to D67 in order, none skipped that is good (R306). -/
def LanesSkipFailed (w : Word) (l : List Nat) : Prop :=
  l.length = 64 ∧ l.Pairwise (· < ·) ∧ (∀ p ∈ l, p < 68 ∧ listsLane w p = false) ∧ ∀ p q, q ∈ l → p < q → listsLane w p = false → p ∈ l

/-- Only edge `e` and the Belfry may differ. -/
def EdgeOnly (s t : State) (e : EdgeId) : Prop :=
  t = { s with edges := t.edges, blf := t.blf } ∧ ∀ f : EdgeId, f ≠ e → t.edges[f] = s.edges[f]

/-- The edge is DOWN for a reason, with its PLL stopped, nothing active and nothing held for it. -/
def DownFor (t : State) (e : EdgeId) (reason : Nat) : Prop :=
  (t.edges[e]).state = 8 ∧ (t.edges[e]).reason.toNat = reason ∧ (t.edges[e]).on = 0 ∧ (∀ v : Fin 5, (t.edges[e]).outq[v] = []) ∧ (t.edges[e]).replayBuf = []
    ∧ (t.edges[e]).txEnds = [] ∧ (t.edges[e]).pll = false ∧ (t.edges[e]).retraining = false

/-- Onaune knows of every edge whether it is live. -/
def EdgesAgree (s : State) : Prop := ∀ f : EdgeId, liveCode s.blf.known[f] = liveCode (s.seenState f)

/-- A record of class corrected from an edge's module, or from the whole edge with 31 (Table FLT-3). -/
def EdgeRecord (r : FaultRec) (e : EdgeId) (m code : Nat) : Prop := r.code.toNat = code ∧ r.cls = .corrected ∧ r.inst.toNat = (e.val * 32 + m) % 256

/-- The modules that pass the eye check at a rate (R302), in UCIe mode among those that negotiated it (R316); one under test does not pass (R443). -/
def passesAt (s : State) (e : EdgeId) (eyes : List RateEye) (r : Fin 4) (m : Fin 20) : Bool :=
  let x := s.edges[e]
  x.usable.getLsbD m && !x.offRetry.getLsbD m && !x.offCmd.getLsbD m && !x.offTrain.getLsbD m && !x.held.getLsbD m && !x.heldM.getLsbD m
    && (((eyes.find? fun z : RateEye => z.rate == r).map (fun z : RateEye => z.pass)).getD 0).getLsbD m && (!s.ucie e || decide (r.val ≤ (x.negotiated[m]).toNat))

/-- n(r) × r, in units of 4 GT/s (R302). -/
def product (s : State) (e : EdgeId) (eyes : List RateEye) (r : Fin 4) : Nat := ((List.finRange 20).filter (passesAt s e eyes r)).length * (r.val + 1)

/-- Every VC of an edge starts with the credits of its neighbour's empty buffers (R280, Table FAB-8). -/
def FreshCredits (x : Edge) : Prop :=
  x.credits = #v[128, 128, 32, 32, 32] ∧ x.owed = #v[0, 0, 0, 0, 0] ∧ ∀ m : Fin 20, ∀ v : Fin 5, (x.credSeen[m])[v] = 0 ∧ (x.credBack[m])[v] = 0

/-- What a die sends on its modules' sidebands in SB_EXCHANGE: for each module that may be used its identity, and its two repair words (R301, R305); in UCIe
mode the rate it offers (R316). -/
def SentIdentity (s t : State) (e : EdgeId) : Prop :=
  ((t.edges[e]).sbOut.map fun q => q.m) = (List.finRange 20).filter (fun m : Fin 20 => (s.edges[e]).mayUse.getLsbD m.val)
    ∧ ∀ q ∈ (t.edges[e]).sbOut,
        (s.ucie e = false → q.dieId = s.dieId ∧ q.x.toNat = s.siteX % 8 ∧ q.y.toNat = s.siteY % 8 ∧ q.edge.toNat = e.val ∧ q.module.toNat = q.m.val ∧ q.att.toNat = s.attach e
          ∧ q.repairTx = s.fusedWord e q.m false ∧ q.repairRx = s.fusedWord e q.m true)
        ∧ (s.ucie e = true → q.ucieRate.map (fun r => r.val) = some (s.edges[e]).targetRate.toNat)

end Sys2Proof.Claims

/-- A die that is up trains an edge: SB_DETECT on a peer's answer starts its PLL, NO_PEER takes it down, SB_EXCHANGE sends this die's identity and repair words
and keeps the modules whose peer and words allow it (R300, R301, R303 to R305, R316, R327). -/
def Sys2Proof.Claims.EdgesDetectAndExchange : Prop :=
  ∀ (s : State) (e : EdgeId), s.powered = true → s.dstate = .up → s.fatal = false →
    let x := s.edges[e]
    let y := fun t : State => t.edges[e]
    ((x.state = 1 ∨ x.state = 8) → exec (.sbDetect e) s = .next (s.modEdge e fun x => { x with state := 2, pll := true }))
    ∧ (x.state = 1 → ∃ t, exec (.noPeer e) s = .next t ∧ DownFor t e 1 ∧ t.now = max s.now (x.began + 100000) ∧ t.mem = s.mem
        ∧ (x.holding = [] → x.retraining = false → EdgesAgree s → t.blf.newest = s.blf.newest))
    ∧ (2 ≤ x.state.toNat → x.state.toNat ≤ 7 → ∃ t, exec (.noPeer e) s = .next t ∧ DownFor t e 1 ∧ t.now = s.now ∧ t.mem = s.mem ∧ t.cores = s.cores
        ∧ (x.holding = [] → (6 ≤ x.state.toNat ∨ x.retraining = true) → EdgeRecord (nextRecord s t) e 31 0x304)
        ∧ (x.holding = [] → x.state.toNat < 6 → x.retraining = false → EdgesAgree s → t.blf.newest = s.blf.newest))
    ∧ (∀ peers : List ModulePeer, x.state = 2 → s.ucie e = false → peers.Pairwise (fun a b => a.m ≠ b.m) → ∃ t, exec (.sbExchange e peers) s = .next t ∧ SentIdentity s t e
        ∧ (∀ m : Fin 20, (y t).usable.getLsbD m = true ↔ ∃ p ∈ peers, p.m = m ∧ x.mayUse.getLsbD m = true ∧ meets s e p ∧ sound (s.fusedWord e m false) p.repairRx
            ∧ sound (s.fusedWord e m true) p.repairTx)
        ∧ (∀ p ∈ peers, (y t).usable.getLsbD p.m = true → (∀ l, listsLane (y t).mapTx[p.m] l = (listsLane (s.fusedWord e p.m false) l || listsLane p.repairRx l))
            ∧ ∀ l, listsLane (y t).mapRx[p.m] l = (listsLane (s.fusedWord e p.m true) l || listsLane p.repairTx l))
        ∧ ((peers = [] ∨ ∃ p ∈ peers, meets s e p) → (y t).state = 3 ∧ EdgeOnly s t e) ∧ (peers ≠ [] → (∀ p ∈ peers, ¬ meets s e p) → DownFor t e 2)
        ∧ (∀ p, peers = [p] → x.mayUse.getLsbD p.m = true → ¬ meets s e p → x.holding = [] → EdgeRecord (nextRecord s t) e p.m.val 0x303))
    ∧ (∀ peers : List ModulePeer, x.state = 2 → s.ucie e = true → peers.Pairwise (fun a b => a.m ≠ b.m) → ∃ t, exec (.sbExchange e peers) s = .next t ∧ SentIdentity s t e ∧ (y t).state = 3
        ∧ EdgeOnly s t e ∧ t.blf = s.blf
        ∧ ∀ m : Fin 20, (y t).usable.getLsbD m = true ↔ ∃ p ∈ peers, p.m = m ∧ x.mayUse.getLsbD m = true ∧ ∃ r, p.ucieRate = some r ∧ r.val ≤ x.targetRate.toNat)

/-- MB_INIT repairs lanes and fixes which physical lane carries each logical one, in UCIe mode by the standard's own repair; MB_TRAIN takes the rate with the
largest product; LINK_INIT makes the edge ACTIVE; a retrain passes RETRAIN, MB_TRAIN and LINK_INIT with its modules and rate kept, and ends ACTIVE or DOWN
(R302, R305, R306, R313 to R316, R443). -/
def Sys2Proof.Claims.EdgesInitialiseAndRetrain : Prop :=
  ∀ (s : State) (e : EdgeId), s.powered = true → s.dstate = .up → s.fatal = false →
    let x := s.edges[e]
    let y := fun t : State => t.edges[e]
    (∀ tests : List LaneTest, x.state = 3 → s.ucie e = false → tests.Pairwise (fun a b => a.m ≠ b.m) → ∃ t, exec (.mbInit e tests) s = .next t ∧ (y t).state = 4 ∧ EdgeOnly s t e
        ∧ (∀ m : Fin 20, (y t).usable.getLsbD m = true ↔ x.usable.getLsbD m = true ∧ ∀ u ∈ tests, u.m = m → stands x.mapTx[m] u.tx ∧ stands x.mapRx[m] u.rx)
        ∧ (∀ m : Fin 20, x.usable.getLsbD m = true → (y t).usable.getLsbD m = false → (y t).offTrain.getLsbD m = true)
        ∧ (∀ u ∈ tests, (y t).usable.getLsbD u.m = true → (∀ l, listsLane (y t).mapTx[u.m] l = (listsLane x.mapTx[u.m] l || u.tx.lanes.any fun k => k.val == l))
            ∧ (∀ l, listsLane (y t).mapRx[u.m] l = (listsLane x.mapRx[u.m] l || u.rx.lanes.any fun k => k.val == l))
            ∧ LanesSkipFailed (y t).mapTx[u.m] (y t).lanesTx[u.m] ∧ LanesSkipFailed (y t).mapRx[u.m] (y t).lanesRx[u.m])
        ∧ (∀ u k, tests = [u] → x.usable.getLsbD u.m = true → u.tx.lanes = [k] → u.rx.lanes = [] → listsLane x.mapTx[u.m] k.val = false →
            EdgeRecord (lastRecord t) e u.m.val 0x302 ∧ (lastRecord t).detail.toNat = k.val))
    ∧ (∀ tests : List LaneTest, x.state = 3 → s.ucie e = true → tests.Pairwise (fun a b => a.m ≠ b.m) → ∃ t, exec (.mbInit e tests) s = .next t ∧ (y t).state = 4 ∧ EdgeOnly s t e ∧ t.blf = s.blf
        ∧ (∀ m : Fin 20, (y t).usable.getLsbD m = true ↔ x.usable.getLsbD m = true ∧ ∀ u ∈ tests, u.m = m → u.ucie ≠ none)
        ∧ ∀ u ∈ tests, ∀ r, u.ucie = some r → x.usable.getLsbD u.m = true → (y t).mapTx[u.m] = r.1 &&& 0x7FFFFFFF ∧ (y t).mapRx[u.m] = r.2 &&& 0x7FFFFFFF)
    ∧ (∀ eyes, x.state = 4 → x.retraining = false →
        ((∃ r : Fin 4, r.val ≤ x.targetRate.toNat ∧ 0 < product s e eyes r) → ∃ t r, exec (.mbTrain e eyes) s = .next t ∧ (y t).state = 5 ∧ (y t).rate.toNat = r.val ∧ t.blf = s.blf ∧ EdgeOnly s t e
          ∧ r.val ≤ x.targetRate.toNat ∧ (∀ q : Fin 4, q.val ≤ x.targetRate.toNat → product s e eyes q ≤ product s e eyes r ∧ (r < q → product s e eyes q < product s e eyes r))
          ∧ (∀ m : Fin 20, (y t).usable.getLsbD m = passesAt s e eyes r m)
          ∧ ∀ m : Fin 20, (x.usable.getLsbD m = true ∨ x.held.getLsbD m = true ∨ x.heldM.getLsbD m = true) → passesAt s e eyes r m = false → (y t).offTrain.getLsbD m = true)
        ∧ ((∀ r : Fin 4, r.val ≤ x.targetRate.toNat → product s e eyes r = 0) → ∃ t, exec (.mbTrain e eyes) s = .next t ∧ DownFor t e 3
          ∧ (x.holding = [] → EdgeRecord (nextRecord s t) e 31 0x304)))
    ∧ (x.state = 5 → x.retraining = false → ∃ t, exec (.linkInit e) s = .next t ∧ (y t).state = 6 ∧ (y t).on = x.usable ∧ (y t).rate = x.rate ∧ FreshCredits (y t) ∧ (y t).txSeq = 0
        ∧ (y t).rxLast = 1023 ∧ (y t).replayBuf = [] ∧ t.spire.down.getLsbD e = false ∧ t.mem = s.mem ∧ t.cores = s.cores ∧ ∀ f : EdgeId, f ≠ e → t.edges[f] = s.edges[f])
    ∧ (∀ eyes, x.retraining = true → x.state = 7 → exec (.mbTrain e eyes) s = .next (s.modEdge e fun x => { x with state := 4 }))
    ∧ (x.retraining = true → x.state = 4 → exec (.linkInit e) s = .next (s.modEdge e fun x => { x with state := 5 }))
    ∧ (∀ off, x.retraining = true → off &&& x.on = 0 → ∃ t, exec (.retrain e { ok := true, off := off }) s = .next t ∧ (y t).state = 6 ∧ (y t).retraining = false ∧ (y t).on = x.on
        ∧ (y t).rate = x.rate ∧ FreshCredits (y t) ∧ (y t).replayBuf = x.replayBuf ∧ (y t).outq = x.outq ∧ (y t).resendAt = (if x.replayBuf = [] then none else some 0)
        ∧ t.spire.down.getLsbD e = false ∧ t.mem = s.mem ∧ t.cores = s.cores)
    ∧ (∀ off, x.retraining = true → x.on &&& ~~~off ≠ 0 → ∃ t, exec (.retrain e { ok := true, off := off }) s = .next t ∧ (y t).state = 6 ∧ (y t).on = x.on &&& ~~~off
        ∧ (y t).offRetry = x.offRetry ||| (x.on &&& off) ∧ (y t).outq = x.outq ∧ t.mem = s.mem ∧ t.cores = s.cores)
    ∧ (∀ off, x.retraining = true → off &&& x.on = 0 → ∃ t, exec (.retrain e { ok := false, off := off }) s = .next t ∧ DownFor t e 4 ∧ t.mem = s.mem ∧ t.cores = s.cores
        ∧ (x.holding = [] → EdgeRecord (nextRecord s t) e 31 0x304))

/-- The training rows take an edge from state to state. -/
def Obligations.EdgesTrainThroughTheirStates : Prop := EdgesDetectAndExchange ∧ EdgesInitialiseAndRetrain

namespace Sys2Proof.Claims

open Sys2Proof.Machine

/-- An ACTIVE edge of a die that is up, with a module on, receives a slot. -/
def Receives (s : State) (e : EdgeId) : Prop := s.powered = true ∧ s.dstate = .up ∧ (s.edges[e]).state = 6 ∧ (s.edges[e]).on ≠ 0

/-- No module is at its threshold of bad flits (R312). -/
def Calm (x : Edge) : Prop := ∀ m : Fin 20, x.bad[m] < x.thresh.toNat

/-- No module's sideband asks for its switch-off (R312). -/
def NoneAsked (flits : List FlitIn) : Prop := ∀ f ∈ flits, f.off = false

/-- Module `m`'s flit of a slot, when it came with both CRCs holding (R308). -/
def goodFlit (flits : List FlitIn) (m : Fin 20) : Option FlitIn := (flits.find? fun f => f.m == m).filter fun f => flitGood (flitBytes f)

/-- The link control word of a flit (Table PAR-6). -/
def control (f : FlitIn) : Nat := f.bits.toNat % 2 ^ 32

/-- Every active module's flit is good, DATA is `data`, and the word of the lowest one is `w` (R308, R310). -/
structure WholeSlot (x : Edge) (flits : List FlitIn) (data : Bool) (w : Nat) : Prop where
  good : ∀ m ∈ x.active, ∃ f, goodFlit flits m = some f ∧ (control f).testBit 0 = data
  low : ∃ m f, x.active.head? = some m ∧ goodFlit flits m = some f ∧ control f = w

/-- The payload bytes of a slot in module order (R309). -/
def slotPayload (x : Edge) (flits : List FlitIn) : List Byte :=
  x.active.flatMap fun m => match goodFlit flits m with
    | some f => flitPayload (flitBytes f)
    | none => []

/-- A slot that says nothing but that the link lives: idle, no NAK, no credits, no acknowledgement of a held slot, no switch-off. -/
def Silent (x : Edge) (flits : List FlitIn) : Prop :=
  (∃ w, WholeSlot x flits false w ∧ w.testBit 21 = false ∧ x.acked (BitVec.ofNat 10 (field w 11 10)) = 0
    ∧ ∀ m ∈ x.active, ∀ f, goodFlit flits m = some f → 5 ≤ field (control f) 22 3) ∧ NoneAsked flits

/-- The class whose credits a slot reports (R310). -/
def reports (x : Edge) : Fin 5 := Fin.ofNat 5 (x.slotCount % 5)

/-- The credits of the class in turn that were owed are returned over the active modules, and those that do not fit a report stay owed; nothing is lost
(R310). -/
def ReturnsCredits (x y : Edge) : Prop :=
  (∀ v : Fin 5, y.owed[v] + (x.active.map fun m => (y.credBack[m])[v]).sum = x.owed[v] + (x.active.map fun m => (x.credBack[m])[v]).sum)
    ∧ (∀ m : Fin 20, (y.credBack[m])[reports x] < (x.credBack[m])[reports x] + 32) ∧ (x.owed[reports x] ≤ 31 → y.owed[reports x] = 0)

/-- The flits last sent: one for each active module in turn, each with good CRCs, the slot's DATA and SEQ, the ACK and NAK of what was received, the credit report of the slot, and its part of the slot's bytes, zeros after them (R308 to R310). -/
def SentSlot (s : State) (x y : Edge) (slot : Option TxSlot) : Prop :=
  y.lastTx.map (·.m) = y.active
    ∧ (s.d2Pending = false → y.active = x.active → ReturnsCredits x y)
    ∧ ∀ (i : Nat) (f : FlitIn), y.lastTx[i]? = some f → flitGood (flitBytes f) = true
      ∧ field (control f) 11 10 = y.rxLast.toNat ∧ (control f).testBit 21 = y.rxNak
      ∧ (s.d2Pending = false → field (control f) 22 3 = x.slotCount % 5 ∧ field (control f) 25 6 = (y.credBack[f.m])[reports x] % 64)
      ∧ (match slot with
        | some t => (control f).testBit 0 = true ∧ field (control f) 1 10 = t.seq.toNat ∧ ∀ k, k < 244 → (flitPayload (flitBytes f)).getD k 0 = t.bytes.getD (244 * i + k) 0
        | none => (control f).testBit 0 = false ∧ ∀ k, k < 244 → (flitPayload (flitBytes f)).getD k 0 = 0)

/-- The classes before `i` in the order of R291. -/
def ahead (i : Fin 5) : List (Fin 5) := [1, 2, 0, 4, 3].takeWhile fun j => decide (j ≠ i)

/-- The same slots are held, in sequence, bytes and packet ends. -/
def SameHeld (a b : List TxSlot) : Prop := (a.map fun t => (t.seq, t.bytes, t.ends)) = b.map fun t => (t.seq, t.bytes, t.ends)

/-- The bytes that an edge has still to see acknowledged or to send, in order. -/
def unsent (x : Edge) : List Byte := x.replayBuf.flatMap (·.bytes) ++ x.txStream

/-- A new slot whose first packet is the next of class `v` went out, for that packet's credits (R291, R309 to R311). -/
def NewSlotOf (s t : State) (e : EdgeId) (v : Fin 5) (p : Packet) : Prop :=
  let x := s.edges[e]
  let y := t.edges[e]
  ∃ slot rest, y.replayBuf = x.replayBuf ++ [slot] ∧ slot.seq = x.txSeq ∧ y.txSeq = x.txSeq + 1
    ∧ slot.bytes = (p.bytes ++ rest).take (244 * x.active.length) ∧ SentSlot s x y (some slot) ∧ y.credits[v] + (p.size + 63) / 64 ≤ x.credits[v]
    ∧ (∃ k, x.outq[v] = p :: k ++ y.outq[v]) ∧ t.mem = s.mem ∧ t.cores = s.cores

end Sys2Proof.Claims

/-- FLIT receives: a whole data slot next in sequence is accepted and its packets arrive in order; a bad flit in it is counted, and the slot is discarded with a
NAK; a slot out of sequence is discarded and asked for again, unless it repeats one already taken; an ACK releases the slots up to it, and the packets that end in
them stop being held here; a NAK starts a replay, and once a slot has been resent sixteen times a retrain (R309 to R312). -/
def Sys2Proof.Claims.EdgesReceiveInSequence : Prop :=
  ∀ (s : State) (e : EdgeId) (flits : List FlitIn), Receives s e → Calm (s.edges[e]) → NoneAsked flits →
    let x := s.edges[e]
    let y := fun t : State => t.edges[e]
    let seqIs := fun w : Nat => BitVec.ofNat 10 (field w 1 10)
    let first := fun w : Nat => BitVec.ofNat 10 (field w 11 10)
    (∀ w (ps : List Packet) fill, WholeSlot x flits true w → seqIs w = x.rxLast + 1 → x.rxStream ++ slotPayload x flits = ps.flatMap Packet.bytes ++ fill → ps.length < 4096 →
        (fill = [] ∨ ∃ r, fill = 0 :: 0 :: 0 :: 0 :: r) → (∀ p ∈ ps, p.op ≠ 0 ∧ p.payload.length = if p.op = 3 then 0 else 16 * p.len.toNat) →
        ∃ t, exec (.flit e flits) s = .next t ∧ (y t).rxLast = x.rxLast + 1 ∧ (y t).rxNak = false ∧ (y t).rxStream = [] ∧ t.mem = s.mem ∧ t.cores = s.cores
          ∧ ∀ v, t.spire.buf (.edge e) v = s.spire.buf (.edge e) v ++ (ps.map fun p => if s.foreign e then s.stampForeign e p else p).filter fun p => p.cls == v)
    ∧ (∀ m₀ ∈ x.active, goodFlit flits m₀ = none → ((∃ m ∈ x.active, ∃ f, goodFlit flits m = some f ∧ (control f).testBit 0 = true) ∨ ∀ m ∈ x.active, goodFlit flits m = none) →
        ∃ t, exec (.flit e flits) s = .next t ∧ (y t).rxLast = x.rxLast ∧ (y t).rxNak = true ∧ (y t).rxStream = x.rxStream ∧ t.spire.inq = s.spire.inq ∧ t.mem = s.mem ∧ t.cores = s.cores
          ∧ (y t).badFlits.toNat = min (2 ^ 32 - 1) (x.badFlits.toNat + (x.active.filter fun m => (goodFlit flits m).isNone).length)
          ∧ ∀ m : Fin 20, (y t).bad[m] = x.bad[m] + if x.on.getLsbD m && (goodFlit flits m).isNone then 1 else 0)
    ∧ (∀ w, WholeSlot x flits true w → seqIs w ≠ x.rxLast + 1 → ∃ t, exec (.flit e flits) s = .next t ∧ (y t).rxLast = x.rxLast ∧ (y t).rxStream = x.rxStream
          ∧ (y t).rxNak = (x.rxNak || decide (512 ≤ (x.rxLast - seqIs w).toNat)) ∧ (y t).badFlits = x.badFlits ∧ (y t).bad = x.bad ∧ t.spire.inq = s.spire.inq ∧ t.mem = s.mem ∧ t.cores = s.cores)
    ∧ (∀ w data old kept (t₀ : TxSlot), WholeSlot x flits data w → x.replayBuf = t₀ :: old ++ kept → first w = t₀.seq + BitVec.ofNat 10 old.length → x.replayBuf.length ≤ 64 →
        w.testBit 21 = false → x.resendAt = none → s.foreign e = false → ∃ t, exec (.flit e flits) s = .next t ∧ (y t).resendCount = 0
          ∧ (∃ new, (y t).replayBuf = kept ++ new ∧ new.length ≤ 1)
          ∧ ∀ b, t.spire.exits[ver b] = s.spire.exits[ver b] + BitVec.ofNat 32 (((t₀ :: old).flatMap fun u => u.ends.map (·.2)).filter fun p => p.epoch == b).length)
    ∧ (∀ w (t₀ : TxSlot) kept, WholeSlot x flits false w → x.replayBuf = t₀ :: kept → first w = t₀.seq - 1 → x.replayBuf.length ≤ 64 → w.testBit 21 = true → x.resendAt = none →
        (x.resendCount < 16 → ∃ t, exec (.flit e flits) s = .next t ∧ (y t).replays = satAdd x.replays 1 ∧ (y t).resendCount = x.resendCount + 1 ∧ SameHeld (y t).replayBuf x.replayBuf
          ∧ (y t).resendAt = (if kept = [] then none else some 1) ∧ SentSlot s x (y t) (some t₀))
        ∧ (16 ≤ x.resendCount → ∃ t, exec (.flit e flits) s = .next t ∧ (y t).state = 7 ∧ (y t).retraining = true ∧ (y t).replays = x.replays ∧ (y t).replayBuf = x.replayBuf))

/-- A module whose bad flits pass THRESH, or whose switch-off its peer asks for, leaves the stripe until cold reset, whatever else the slot brings (R312). -/
def Sys2Proof.Claims.ModulesLeaveTheStripe : Prop :=
  ∀ (s : State) (e : EdgeId) (flits : List FlitIn) (m : Fin 20), Receives s e → m ∈ (s.edges[e]).active →
    ((s.edges[e]).thresh.toNat < (s.edges[e]).bad[m] + (if goodFlit flits m = none then 1 else 0) ∨ ∃ f ∈ flits, f.m = m ∧ f.off = true) →
      ∃ t, exec (.flit e flits) s = .next t ∧ (t.edges[e]).on.getLsbD m = false ∧ (t.edges[e]).offRetry.getLsbD m = true

/-- R312: a module whose bad flits pass THRESH within the window is asked off and switched off with 0x301 and 0x303, the stripe narrows to the rest and the held slots go back to be sent; the last module's switch-off makes the edge DOWN with NO_MODULE and 0x304. -/
def Obligations.BadModulesAreSwitchedOff : Prop :=
  ∀ (s : State) (e : EdgeId) (flits : List FlitIn) (m : Fin 20), Receives s e → NoneAsked flits →
    let x := s.edges[e]
    let y := fun t : State => t.edges[e]
    m ∈ x.active → x.bad[m] = x.thresh.toNat → goodFlit flits m = none → (∀ k : Fin 20, k ≠ m → x.bad[k] ≤ x.thresh.toNat) →
    (∀ k ∈ x.active, k ≠ m → ∃ f, goodFlit flits k = some f ∧ (control f).testBit 21 = false) →
    ((∃ k ∈ x.active, k ≠ m) → ∃ t, exec (.flit e flits) s = .next t ∧ (y t).state = 6 ∧ (∀ k : Fin 20, (y t).on.getLsbD k = (x.on.getLsbD k && decide (k ≠ m)))
        ∧ (y t).offRetry.getLsbD m = true ∧ (y t).offReq.getLsbD m = true ∧ EdgeRecord (nextRecord s t) e m.val 0x301 ∧ EdgeRecord (recordAt s t 2) e m.val 0x303
        ∧ t.mem = s.mem ∧ t.cores = s.cores
        ∧ ((∀ k f, goodFlit flits k = some f → x.acked (BitVec.ofNat 10 (field (control f) 11 10)) = 0) →
            unsent x <+: unsent (y t) ∧ (∀ slot ∈ (y t).replayBuf, slot.seq = x.txSeq - BitVec.ofNat 10 x.replayBuf.length ∧ (y t).txSeq = slot.seq + 1
              ∧ slot.bytes.length ≤ 244 * (y t).active.length) ∧ (unsent x ≠ [] → (y t).replayBuf.length = 1 ∧ SentSlot s { x with on := (y t).on } (y t) (y t).replayBuf.head?)))
    ∧ ((∀ k ∈ x.active, k = m) → x.holding = [] → ∃ t, exec (.flit e flits) s = .next t ∧ DownFor t e 3 ∧ (y t).offRetry.getLsbD m = true ∧ EdgeRecord (nextRecord s t) e m.val 0x301
        ∧ EdgeRecord (recordAt s t 2) e m.val 0x303 ∧ EdgeRecord (recordAt s t 3) e 31 0x304 ∧ t.mem = s.mem ∧ t.cores = s.cores)

/-- FLIT sends one slot: the next held slot of a replay, else a new data slot while fewer than 64 are held, whose first packet is of the class that R291 grants and costs its credits, else an idle slot (R308 to R311). -/
def Sys2Proof.Claims.EdgesSendHeldNewOrIdleSlots : Prop :=
  ∀ (s : State) (e : EdgeId) (flits : List FlitIn), Receives s e → Calm (s.edges[e]) → Silent (s.edges[e]) flits →
    let x := s.edges[e]
    let y := fun t : State => t.edges[e]
    (∀ i, x.resendAt = some i → i < x.replayBuf.length → ∃ t, exec (.flit e flits) s = .next t ∧ EdgeOnly s t e ∧ t.blf = s.blf ∧ SentSlot s x (y t) x.replayBuf[i]?
        ∧ SameHeld (y t).replayBuf x.replayBuf ∧ (y t).outq = x.outq ∧ (y t).resendAt = if i + 1 < x.replayBuf.length then some (i + 1) else none)
    ∧ (x.resendAt = none → 64 ≤ x.replayBuf.length ∨ (x.txStream = [] ∧ ∀ v : Fin 5, x.canSend v = false) → ∃ t, exec (.flit e flits) s = .next t ∧ EdgeOnly s t e ∧ t.blf = s.blf
        ∧ SentSlot s x (y t) none ∧ (y t).replayBuf = x.replayBuf ∧ (y t).outq = x.outq ∧ (y t).txSeq = x.txSeq)
    ∧ (∀ (v : Fin 5) p r, x.resendAt = none → x.replayBuf.length < 64 → x.txStream = [] → x.outq[v] = p :: r → (p.size + 63) / 64 ≤ x.credits[v] → (∀ j : Fin 5, x.arb[j] < 12) →
        (∀ j ∈ ahead v, x.outq[j] = [] ∨ ∃ q k, x.outq[j] = q :: k ∧ x.credits[j] < (q.size + 63) / 64) →
        ∃ t, exec (.flit e flits) s = .next t ∧ NewSlotOf s t e v p)
    ∧ (∀ (v : Fin 5) p r, x.resendAt = none → x.replayBuf.length < 64 → x.txStream = [] → x.outq[v] = p :: r → (p.size + 63) / 64 ≤ x.credits[v] → 12 ≤ x.arb[v] →
        (∀ j : Fin 5, j ≠ v → x.arb[j] < x.arb[v]) → ∃ t, exec (.flit e flits) s = .next t ∧ NewSlotOf s t e v p)

/-- REPLAY_TIMEOUT resends from the oldest held slot once it has waited 256 slot times, and retrains once that has been done sixteen times; RETRY_WINDOW_END, at the end of the module's window,
restarts its count; CREDIT_TIMEOUT marks the port down, drops what waits for it and logs 0x204 with the lowest VC that is late (R280, R311, R312). -/
def Sys2Proof.Claims.EdgeTimersReplayAndMarkDown : Prop :=
  ∀ (s : State) (e : EdgeId), s.powered = true →
    let x := s.edges[e]
    let y := fun t : State => t.edges[e]
    (∀ (t₀ : TxSlot) kept, x.state = 6 → x.replayBuf = t₀ :: kept → x.resendAt = none →
        (t₀.sentAt + 256 ≤ x.slotCount → x.resendCount < 16 →
          exec (.replayTimeout e) s = .next (s.modEdge e fun x => { x with replays := satAdd x.replays 1, resendCount := x.resendCount + 1, resendAt := some 0 }))
        ∧ (t₀.sentAt + 256 ≤ x.slotCount → 16 ≤ x.resendCount →
          exec (.replayTimeout e) s = .next (s.modEdge e fun x => { x with state := 7, retraining := true, resendAt := none, resendCount := 0 }))
        ∧ (x.slotCount < t₀.sentAt + 256 → exec (.replayTimeout e) s = .next s))
    ∧ (∀ m : Fin 20, ∃ t, exec (.retryWindowEnd e m) s = .next t ∧ t.now = max s.now (x.winAt[m] + 100 * x.window.toNat) ∧ t.mem = s.mem ∧ (∀ f : EdgeId, f ≠ e → t.edges[f] = s.edges[f])
        ∧ y t = { x with bad := (y t).bad, winAt := (y t).winAt } ∧ (∀ k : Fin 20, (y t).bad[k] = if k = m then 0 else x.bad[k]) ∧ (∀ k : Fin 20, k ≠ m → (y t).winAt[k] = x.winAt[k])
        ∧ (y t).winAt[m] ≤ t.now ∧ (x.window ≠ 0 → t.now < (y t).winAt[m] + 100 * x.window.toNat))
    ∧ (∀ v, x.state = 6 → s.dstate = .up → x.credits[clsIdx v] = 0 → s.spire.down.getLsbD e = false →
        ∃ t, exec (.creditTimeout e v) s = .next t ∧ t.spire.down.getLsbD e = true ∧ t.spire.cto.getLsbD e = true ∧ t.now = max s.now (x.creditSince[clsIdx v] + s.spire.creditTo.toNat) ∧ t.mem = s.mem
          ∧ (∀ j : Fin 5, (y t).outq[j] = [])
          ∧ ((∀ j : Fin 5, ∀ p ∈ x.outq[j], p.isReq = false) →
              t.spire.dropRoute.toNat = min (2 ^ 32 - 1) (s.spire.dropRoute.toNat + (x.outq.toList.flatten).length) ∧ t.spire.localRsp = s.spire.localRsp
              ∧ ∀ b, t.spire.exits[ver b] = s.spire.exits[ver b] + BitVec.ofNat 32 ((x.outq.toList.flatten).filter fun p => p.epoch == b).length)
          ∧ (∀ j : Fin 5, ∀ p ∈ x.outq[j], p.isReq = true → p.srcDie = s.dieId → p.srcUnit ≠ 8 → p.srcUnit.toNat < 12 →
              ∃ n, n ∈ t.spire.localRsp ∧ n.op = 0x3F ∧ n.aux = 5 ∧ n.tag = p.tag ∧ n.destUnit = p.srcUnit)
          ∧ (2 * (x.outq.toList.flatten).length < 1000 → let r := nextRecord s t
             r.code = 0x204 ∧ r.cls = .contained ∧ r.inst.toNat = e.val ∧ field r.detail.toNat 0 2 = e.val
              ∧ ((∀ j : Fin 5, j < clsIdx v → x.credits[j] ≠ 0) → field r.detail.toNat 2 3 = (clsIdx v).val)))

/-- An edge receives in sequence, switches modules off, sends held, new or idle slots, and its timers replay and mark down. -/
def Obligations.EdgesReceiveSendAndReplay : Prop :=
  EdgesReceiveInSequence ∧ ModulesLeaveTheStripe ∧ EdgesSendHeldNewOrIdleSlots ∧ EdgeTimersReplayAndMarkDown

/-! ## Bronze (12) -/

namespace Sys2Proof.Claims

open Sys2Proof.Machine

/-- Only Bronze, the cores and the Belfry may differ. -/
def BronzeOnly (s t : State) : Prop := t = { s with bronze := t.bronze, cores := t.cores, blf := t.blf }

/-- Time has passed up to `n`, and what waits has aged with it. -/
def At (s t : State) (n : Nat) : Prop := t.now = max s.now n

/-- Bronze runs on safe values: the record is bad, or there is none yet (R358). -/
def safeValues (s : State) : Bool := s.bronze.calInvalid || s.blf.cal.isEmpty

/-- The Vmin of a core's frequency step in the working calibration record, or the safe voltage without one (Table PWR-9, R358). -/
def vminAt (s : State) (c : CoreId) (i : Nat) : Nat :=
  if safeValues s then 850 else leNat ((s.blf.cal.drop (0x140 + c.val * 80 + 2 * i)).take 2)

/-- A core is present (R16). -/
def present (s : State) (c : CoreId) : Prop := (s.core c).present = true ∧ (s.core c).short = false

/-- `mv` is the highest Vmin that the cores in C0 or C1 need at the frequency steps `f`; 0 with none (R323). -/
def Needs (s : State) (f : CoreId → Nat) (mv : Nat) : Prop :=
  (∀ c, present s c → (s.core c).cstate = .c0 → vminAt s c (f c) ≤ mv) ∧ (mv = 0 ∨ ∃ c, present s c ∧ (s.core c).cstate = .c0 ∧ vminAt s c (f c) = mv)

/-- The VDD_ENG target is what the cores need, or as before with no core running (R323). -/
def VoltDecided (s t : State) : Prop :=
  ∃ mv, Needs t (fun c => (t.core c).freq.toNat) mv ∧ t.bronze.voltTarget = if mv = 0 then s.bronze.voltTarget else mv

/-- Frequency step `j` is the highest up to `i` that the present voltage supports on core `c`, or the lowest there is (R323). -/
def Supported (s : State) (c : CoreId) (i j : Nat) : Prop :=
  j ≤ i ∧ (j = 0 ∨ vminAt s c j ≤ s.bronze.vddMv) ∧ ∀ n, j < n → n ≤ i → s.bronze.vddMv < vminAt s c n

/-- A fixed state of rank 1 is in force (Table PWR-5). -/
def fixed (s : State) : Bool := s.bronze.alertHold || s.bronze.thermtrip || s.fatal

/-- Heat holds core `c` from rising: its own sensors or those of Dome and Spire (R346). -/
def heated (s : State) (c : CoreId) : Bool := s.bronze.hot.getLsbD c || s.bronze.hot.getLsbD 16

/-- The lowest ceiling on power of ranks 2 to 4: the 1 ms limit of 250 W, the cap, P(i − 1) + RAMP (Table PWR-5). -/
def powerTop (b : Bronze) : Nat := min 4000 (min (16 * b.effective.toNat) (b.p1ms.toNat + 16 * b.rampNow.toNat))

/-- A sensor's reading in 1/8 °C. -/
def heat (s : State) (i : Nat) : Int := sext 12 (s.bronze.sensors[Fin.ofNat 40 i]).toNat

/-- The sensors that throttle core `c`, and with 16 those that throttle every core (Table PWR-7). -/
def sensorsOf (c : Nat) : List Nat := if c < 16 then [2 * c, 2 * c + 1] else [32, 33, 34, 35, 36, 37, 38, 39]

/-- The levels of a core's issue over the last 10 ms, summed, and how many there are (R336). -/
def levelSum (k : Core) : Nat := (k.kHist.map fun x => x.1.toNat * x.2).sum
/-- How many evaluations of the last 10 ms there are. -/
def levelCount (k : Core) : Nat := (k.kHist.map fun x => x.2).sum

/-- Core `d` waits for its gate ramp to begin (R326). -/
def awaits (s : State) (d : CoreId) : Bool :=
  (s.core d).waking && (s.core d).present && !(s.core d).short && (s.core d).rampAt.isNone && ((s.core d).cstate == .c3 || (s.core d).cstate == .c4)

/-- The first moment at which a ramp may begin: 500 ns after the one before (R326). -/
def rampFrom (s : State) : Nat := (s.bronze.lastRamp.map (· + 50)).getD 0

/-- When the gate ramp of core `c` begins: where it has not, after those of the waiting cores with lower numbers, 500 ns apart (R326). -/
def rampStart (s : State) (c : CoreId) : Nat :=
  (s.core c).rampAt.getD (rampFrom s + 50 * ((List.finRange 16).filter fun d => awaits s d && decide (d.val < c.val)).length)

/-- Every other core is as it was, but for the time that has passed and the beginning of its own ramp. -/
def OthersRamp (s t : State) (c : CoreId) : Prop :=
  ∀ d, d ≠ c → ∃ k, (k = s.core d ∨ ∃ n, k = Core.age n (s.core d)) ∧ t.core d = { k with rampAt := (t.core d).rampAt, pll := (t.core d).pll }

/-- A command that waits for cores waits for core `c` no more; with none left it is answered. -/
def WaitsNoMore (s t : State) (c : CoreId) : Prop :=
  ∀ p m, (s.port p).phase = .awaitWake m → (s.port p).executing ≠ none →
    if m &&& ~~~(1#16 <<< c.val) = 0 then (t.port p).executing = none else (t.port p).phase = .awaitWake (m &&& ~~~(1#16 <<< c.val))

end Sys2Proof.Claims

/-- A bell wakes a core from C2 or C3, whose gate ramp takes its turn; a wake completes in C0 with its PLL on, out of C4 with its Cupola and Lantern zero, and decides the voltage; a short of its rail latches the core off with 0x402; a core that has stayed in C1 for C2_AFTER goes to C2; a drained die
enters D2 with its answer sent, and keeps nothing of its cores and links (R30, R248, R323, R325 to R327, R329 to R333, R402). -/
def Obligations.CoresSleepAndWake : Prop :=
  ∀ (s : State) (c : CoreId), s.powered = true → s.wf → present s c →
    let k := s.core c
    let inCore := fun a => coreBase c ≤ a ∧ a < coreBase c + 0x1000000
    (k.bellPend = true → (k.cstate = .c2 ∨ k.cstate = .c3) → k.rampAt = none → ∃ t, exec (.bellWake c) s = .next t ∧ t.now = s.now ∧ t.mem = s.mem ∧ OthersRamp s t c
        ∧ t.core c = { k with bellPend := false, waking := true, rampAt := (t.core c).rampAt, pll := (t.core c).pll }
        ∧ (k.cstate = .c2 → (t.core c).pll = true ∧ (t.core c).rampAt = none)
        ∧ (k.cstate = .c3 → (∀ d, d ≠ c → awaits s d = false) → k.waking = false →
            (rampFrom s ≤ s.now → (t.core c).rampAt = some s.now ∧ (t.core c).pll = true ∧ t.bronze.lastRamp = some s.now) ∧ (s.now < rampFrom s → (t.core c).rampAt = none)))
    ∧ (∀ ok, k.waking = true → k.cstate ≠ .c0 → (ok = true ∨ k.cstate = .c2) → (k.cstate = .c2 → k.rampAt = none) → ∃ t, exec (.coreWake c ok) s = .next t ∧ OthersRamp s t c
        ∧ (t.core c).cstate = .c0 ∧ (t.core c).waking = false ∧ (t.core c).bellPend = false ∧ (t.core c).c1Ticks = 0 ∧ (t.core c).rampAt = none ∧ (t.core c).pll = true
        ∧ (t.core c).cnt = k.cnt ∧ (t.core c).vec.v = k.vec.v ∧ (t.core c).owner = k.owner
        ∧ (k.cstate = .c2 → t.now = s.now) ∧ (k.cstate ≠ .c2 → At s t (rampStart s c + 200)) ∧ (k.cstate ≠ .c2 → ∀ d : CoreId, d < c → awaits s d = true → k.rampAt = none → (t.core d).rampAt ≠ none ∧ (t.core d).pll = true)
        ∧ (s.bronze.avsErr = false → (t.core c).freq = k.freq) ∧ (s.bronze.avsErr = true → Supported s c k.freq.toNat (t.core c).freq.toNat)
        ∧ (fixed s = true → (t.core c).k = 1) ∧ (∀ a, ¬ inCore a → t.mem.byteAt a = s.mem.byteAt a)
        ∧ (k.cstate = .c4 → ∀ a, inCore a → t.mem.byteAt a = 0) ∧ (k.cstate ≠ .c4 → t.mem = s.mem) ∧ VoltDecided s t ∧ WaitsNoMore s t c)
    ∧ (k.waking = true → k.cstate ≠ .c0 → k.cstate ≠ .c2 → ∃ t, exec (.coreWake c false) s = .next t ∧ (t.core c).short = true ∧ (t.core c).waking = false ∧ (t.core c).rampAt = none
        ∧ (t.core c).pll = false ∧ (t.core c).cstate = k.cstate ∧ (t.core c).cnt = k.cnt ∧ OthersRamp s t c ∧ t.mem = s.mem ∧ At s t (rampStart s c + 100)
        ∧ (nextRecord s t).code = 0x402 ∧ (nextRecord s t).cls = .contained ∧ (nextRecord s t).inst.toNat = c.val ∧ (nextRecord s t).detail = 4
        ∧ ∀ p m, (s.port p).phase = .awaitWake m → m.getLsbD c = true → (s.port p).executing ≠ none → (t.port p).executing = none)
    ∧ (s.bronze.c2After ≠ 0 → k.inC1 = true → k.onChain = false → k.c1Key = k.seq.issued + k.seq.retired.toNat + k.seq.skipped.toNat → k.waking = false →
        (∀ h ∈ s.spire.heldSigs, h.core.toNat ≠ c.val) → ∃ t, exec (.idleTimeout c) s = .next t
        ∧ (t.core c).cstate = .c2 ∧ (t.core c).pll = false ∧ (t.core c).cnt = k.cnt ∧ (t.core c).vec.v = k.vec.v ∧ t.mem = s.mem ∧ t.now = s.now + (100 * s.bronze.c2After.toNat - k.c1Ticks) ∧ VoltDecided s t)
    ∧ (s.d2Pending = true → s.dstate = .up → (∀ p, (s.port p).phase ≠ .awaitD2) → s.drained = true → ∃ t, exec .d2Entry s = .next t ∧ t.dstate = .d2 ∧ t.d2Pending = false
        ∧ (∀ a, t.mem.byteAt a = 0) ∧ t.bronze.spirePll = false ∧ t.bronze.domePll = false
        ∧ (∀ d, (t.core d).cstate = .c4 ∧ (t.core d).pll = false ∧ (∀ i : Fin 64, (t.core d).cnt[i] = 0) ∧ (∀ i : Fin 32, (t.core d).vec.v[i] = VReg.zero) ∧ (t.core d).owner = (s.core d).owner)
        ∧ ∀ e : EdgeId, (t.edges[e]).state = 0 ∧ (t.edges[e]).on = 0 ∧ (t.edges[e]).pll = false ∧ (t.edges[e]).offRetry = (s.edges[e]).offRetry ∧ (t.edges[e]).offCmd = (s.edges[e]).offCmd
            ∧ (t.edges[e]).offTrain = (s.edges[e]).offTrain)
    ∧ (∀ p cmd, s.d2Pending = true → s.dstate = .up → (s.port p).phase = .awaitD2 → (s.port p).executing = some cmd → ∃ t, exec .d2Entry s = .next t ∧ t.dstate = .up ∧ t.d2Pending = true
        ∧ (t.port p).executing = none ∧ (t.port p).waiting.length = (s.port p).waiting.length + 1 ∧ t.mem = s.mem ∧ t.cores = s.cores)

/-- FREQUENCY_STEP lowers a core whose mean k over 10 ms was below 14 and raises one that ran at 16 when the next step fits every ceiling, the voltage first; AVS_ERR holds every frequency at what the voltage supports until AVS_RETRY succeeds; DROOP_TRIP stretches and counts, STRETCH_RELEASE ends it 100 ns later;
FMAX_AGEING takes one step, to no less than 92 % (R323, R324, R336, R340, R344, R353). -/
def Obligations.FrequenciesFollowIssueVoltageAndAge : Prop :=
  ∀ (s : State) (c : CoreId), s.powered = true → present s c →
    let k := s.core c
    let runs := levelCount k = 10000 ∧ fixed s = false ∧ k.cstate = .c0
    let fits := fun f : FreqTry => k.freq < k.ceiling ∧ heated s c = false ∧ f.power ≤ powerTop s.bronze ∧ f.current ≤ 300000
    (∀ f : FreqTry, f.core = c → runs → levelSum k < 14 * 10000 → k.freq ≠ 0 → ∃ t, exec (.frequencyStep f) s = .next t ∧ BronzeOnly s { t with free := s.free } ∧ SameCores s t c
        ∧ (t.core c) = { k with freq := k.freq - 1, kHist := [], k := (t.core c).k } ∧ VoltDecided s t)
    ∧ (∀ f : FreqTry, f.core = c → runs → levelSum k = 16 * 10000 → fits f →
        ∀ mv, Needs s (fun d => if d = c then k.freq.toNat + 1 else (s.core d).freq.toNat) mv →
        (mv ≤ s.bronze.vddMv → exec (.frequencyStep f) s = .next (s.modCore c fun k => { k with freq := k.freq + 1, kHist := [] }))
        ∧ (s.bronze.vddMv < mv → ∃ t, exec (.frequencyStep f) s = .next t ∧ t.cores = s.cores ∧ t.bronze.voltTarget = mv ∧ t.mem = s.mem))
    ∧ (∀ f : FreqTry, f.core = c → runs → 14 * 10000 ≤ levelSum k → ¬ (levelSum k = 16 * 10000 ∧ fits f) → exec (.frequencyStep f) s = .next s)
    ∧ (s.bronze.vddMv ≠ s.bronze.voltTarget → s.bronze.avsErr = false → ∃ t, exec .avsErr s = .next t ∧ t.bronze.avsErr = true ∧ At s t (s.bronze.voltSince + 50000) ∧ t.mem = s.mem
        ∧ ∀ d, Supported s d (s.core d).freq.toNat (t.core d).freq.toNat)
    ∧ (∀ ok, s.bronze.avsErr = true → ∃ t, exec (.avsRetry ok) s = .next t ∧ t.bronze.avsErr = !ok ∧ (ok = true → t.bronze.vddMv = s.bronze.voltTarget) ∧ At s t (s.bronze.avsAt + 100000)
        ∧ t.mem = s.mem ∧ ∀ d, (t.core d).freq = (s.core d).freq)
    ∧ (∀ d, k.cstate = .c0 → exec (.droopTrip c d) s = .next ((s.modCore c fun k => { k with droop := true }).modBrz fun b => { b with droopCount := satAdd b.droopCount 1 }))
    ∧ (k.droop = true → exec (.stretchRelease c) s = .next ((s.pass 10).modCore c fun k => { k with droop := false }))
    ∧ (k.fmaxEff ≠ 0 → 92 * (1100 + 25 * s.fmaxCode c.val) ≤ 100 * (400 + 25 * (k.fmaxEff.toNat - 1)) → ∃ t, exec (.fmaxAgeing c) s = .next t ∧ SameCores s t c ∧ t.mem = s.mem ∧ VoltDecided s t
        ∧ t.bronze = { s.bronze with voltTarget := t.bronze.voltTarget, voltSince := t.bronze.voltSince }
        ∧ (t.core c) = { k with fmaxEff := k.fmaxEff - 1, ceiling := (t.core c).ceiling, freq := (t.core c).freq, aged := (t.core c).aged }
        ∧ (t.core c).ceiling.toNat = min k.ceiling.toNat (k.fmaxEff.toNat - 1) ∧ (t.core c).freq.toNat = min k.freq.toNat (k.fmaxEff.toNat - 1)
        ∧ (let d := 1000 * (1100 + 25 * s.fmaxCode c.val - (400 + 25 * (k.fmaxEff.toNat - 1)))
           let f := 1100 + 25 * s.fmaxCode c.val
           (t.core c).aged.toNat = d / f ∨ (t.core c).aged.toNat = d / f + 1))

namespace Sys2Proof.Claims

open Sys2Proof.Machine

/-- The evaluations for which the prediction has stayed above 250 W, with this one (Table PWR-4). -/
def overFor (b : Bronze) (power : Nat) : Nat := if 4000 < power then b.overUs + 1 else 0

/-- The die breaks the excursion rule: above 320 W, or above 250 W for more than 50 µs (Table PWR-4). -/
def Excursion (b : Bronze) (power : Nat) : Prop := 5120 < power ∨ 50 < overFor b power

/-- VDD_ENG current breaks its figures: 300 A over an interval, or 400 A over 50 µs, as predicted or as measured (Table PWR-4). -/
def OverCurrent (b : Bronze) (current : Nat) : Prop :=
  300000 * 1000 < b.curSum + current ∨ 400000 * 50 < current + (b.curHist.take 49).sum ∨ 300000 * 100 < b.maSum ∨ 400000 * 5 < b.maHist.sum

/-- The interval's power would pass `w` sixteenths of a watt (R334). -/
def PowerPasses (b : Bronze) (power w : Nat) : Prop := 1000 * w < b.powSum + power

/-- A prediction breaks some ceiling of ranks 2 to 4 (Table PWR-5). -/
def Breaks (b : Bronze) (power current : Nat) : Prop := Excursion b power ∨ OverCurrent b current ∨ PowerPasses b power (powerTop b)

end Sys2Proof.Claims

/-- FAST_LOOP keeps the excursion and current figures of Table PWR-4: no level rises by more than one, under a hold, or where the prediction passes a ceiling; a cut that a ceiling requires is made; one that the excursion rule requires is counted and logged as 0x404 once per interval; VDD_ENG_SAMPLE adds 10 µs of energy; RAIL_CURRENT_SAMPLE takes the other rails (R322, R334 to R336, R339, R340, R349). -/
def Sys2Proof.Claims.EnergyAndExcursionsAreKept : Prop :=
  ∀ (s : State), s.powered = true →
    let b := s.bronze
    (∀ (p : Prediction) choice,
      let required := Breaks b p.power p.current ∧ Breaks b p.nextPower p.nextCurrent
      let rises := p.nextPower ≤ powerTop b ∧ p.nextCurrent ≤ 300000
      ∃ t, exec (.fastLoop p choice) s = .next t ∧ At s t ((b.fastAt / 100 + 1) * 100) ∧ t.mem = s.mem ∧ t.bronze.overUs = overFor b p.power ∧ t.bronze.curSum = b.curSum + p.current
        ∧ t.bronze.powSum = b.powSum + p.power ∧ t.bronze.curHist = p.current :: b.curHist.take 49
        ∧ (fixed s = true → ∀ c, (t.core c).k = 1) ∧ (∀ c, (s.core c).k.toNat < 31 → (t.core c).k.toNat ≤ (s.core c).k.toNat + 1)
        ∧ (∀ c : CoreId, fixed s = false → heated s c = true ∨ ¬ rises → 1 ≤ (s.core c).k.toNat → (t.core c).k.toNat ≤ (s.core c).k.toNat)
        ∧ (¬ required → fixed s = false → ∀ c : CoreId, ∀ want : BitVec 5, choice[c.val]? = some want → 1 ≤ want.toNat → want.toNat ≤ 16 →
            (want.toNat ≤ (s.core c).k.toNat → (t.core c).k = want) ∧ ((s.core c).k.toNat < want.toNat → rises → heated s c = false → (t.core c).k = (s.core c).k + 1))
        ∧ (required → ∀ c, (t.core c).k = 1)
        ∧ (∀ c, levelCount (s.core c) < 10000 → levelCount (t.core c) = levelCount (s.core c) + 1 ∧ levelSum (t.core c) = levelSum (s.core c) + (t.core c).k.toNat)
        ∧ (t.bronze.bound.getLsbD 2 = true ↔ b.bound.getLsbD 2 = true ∨ Excursion b p.power ∨ OverCurrent b p.current ∨ PowerPasses b p.power 4000)
        ∧ (t.bronze.bound.getLsbD 4 = true ↔ b.bound.getLsbD 4 = true ∨ PowerPasses b p.power (16 * b.effective.toNat))
        ∧ (t.bronze.bound.getLsbD 5 = true ↔ b.bound.getLsbD 5 = true ∨ PowerPasses b p.power (b.p1ms.toNat + 16 * b.rampNow.toNat))
        ∧ (Excursion b p.power → t.bronze.peakCount = satAdd b.peakCount 1) ∧ (¬ Excursion b p.power → t.bronze.peakCount = b.peakCount ∧ t.blf.newest = s.blf.newest)
        ∧ (Excursion b p.power → b.peakLogged = true → t.blf.newest = s.blf.newest)
        ∧ (Excursion b p.power → b.peakLogged = false → (nextRecord s t).code = 0x404 ∧ (nextRecord s t).cls = .corrected ∧ t.bronze.peakLogged = true
            ∧ (EdgesAgree s → t.blf.newest = s.blf.newest + 1)))
    ∧ (∀ mv ma, ∃ t, exec (.vddEngSample mv ma) s = .next t ∧ At s t ((b.vddAt / 1000 + 1) * 1000) ∧ t.mem = s.mem ∧ t.bronze.vddMv = mv ∧ t.bronze.vddMa = ma
        ∧ t.bronze.sampleSum = b.sampleSum + (mv * ma + b.railUw) ∧ t.bronze.samples = b.samples + 1 ∧ t.bronze.maSum = b.maSum + ma ∧ t.bronze.maHist = (ma :: b.maHist).take 5
        ∧ t.bronze.energyTotal = b.energyTotal + BitVec.ofNat 64 ((b.energyFrac + (mv * ma + b.railUw)) / 100000) ∧ t.bronze.energyTime = t.blf.time)
    ∧ (∀ x y z, ∃ t, exec (.railCurrentSample x y z) s = .next t ∧ At s t ((b.railAt / 10000 + 1) * 10000) ∧ t.mem = s.mem ∧ t.bronze.railUw = 750 * (x + y + z) ∧ t.bronze.energyTotal = b.energyTotal)

namespace Sys2Proof.Claims

open Sys2Proof.Machine

/-- The telemetry record of an interval that ran `bal` sixteenths of a watt of ballast (Table PWR-8). -/
structure TelemetryOf (s t : State) (bal : Nat) (line : List Byte) : Prop where
  length : line.length = 32
  time : leNat (line.take 8) = t.blf.time.toNat
  power : leNat ((line.drop 8).take 2) = t.bronze.p1ms.toNat
  cap : leNat ((line.drop 10).take 2) = 16 * s.bronze.effective.toNat
  energy : leNat ((line.drop 12).take 4) = t.bronze.energyTotal.toNat % 2 ^ 32
  hottest : ((leNat ((line.drop 16).take 2) : Nat) : Int) = sext 12 t.bronze.tmax.toNat % 65536
  level : ∀ l, l = ((t.cores.toList.filter fun k => k.present && !k.short).map fun k => 16 * k.k.toNat) → l ≠ [] →
    (line.getD 18 0).toNat = (l.sum / l.length - 1) % 256 ∨ (line.getD 18 0).toNat = (l.sum / l.length) % 256
  limiter : (line.getD 19 0).toNat = t.bronze.limiter.toNat
  ballast : leNat ((line.drop 20).take 2) = bal
  die : (line.getD 22 0).toNat = t.dieState
  flags : (line.getD 23 0).getLsbD 0 = t.bronze.alertHold ∧ (line.getD 23 0).getLsbD 1 = t.bronze.therm ∧ (line.getD 23 0).getLsbD 2 = t.bronze.avsErr
    ∧ (line.getD 23 0).getLsbD 3 = t.bronze.calInvalid ∧ (line.getD 23 0).getLsbD 4 = t.bronze.rampShort ∧ (line.getD 23 0).getLsbD 5 = t.blf.unsync
  rest : ∀ i, 24 ≤ i → line.getD i 0 = 0

/-- An engine that may run ballast: idle on a running core of a partition that heat does not hold (R340, R341). -/
def MayBallast (s : State) (c : CoreId) (e : EngId) : Prop :=
  present s c ∧ (s.core c).cstate = .c0 ∧ (s.core c).owner ≠ none ∧ heated s c = false ∧ (s.eng c e).q.queue = [] ∧ (s.eng c e).q.active = []

end Sys2Proof.Claims

/-- INTERVAL_END: the caps move by RAMP toward their target or at once with URGENT, ceilings cut the demand, ballast fills the ramp floor within its limit and under every ceiling, P(i) stays under them, LIMITER names the loop of lowest rank that bound the interval, a floor not reached sets RAMP_SHORT, ballast energy is counted, and each subscribed port gets every DECIMATE-th record (R334, R337 to R341, R349, R351). -/
def Sys2Proof.Claims.IntervalsApplyCapsRampAndBallast : Prop :=
  ∀ (s : State) (d : BitVec 16), s.powered = true →
    let b := s.bronze
    let demand := d.toNat
    let ramp := 16 * b.rampNow.toNat
    let top := powerTop b
    let use := min demand top
    ∃ t bal, exec (.intervalEnd d) s = .next t ∧ t.mem = s.mem
      ∧ t.bronze.effective.toNat = (if b.urgent then b.target.toNat else if b.effective.toNat < b.target.toNat then min b.target.toNat (b.effective.toNat + b.ramp.toNat)
          else max b.target.toNat (b.effective.toNat - b.ramp.toNat))
      ∧ t.bronze.urgent = false ∧ t.bronze.rampNow = b.ramp ∧ t.bronze.peakLogged = false ∧ t.bronze.samples = 0 ∧ t.bronze.powSum = 0 ∧ t.bronze.curSum = 0 ∧ t.bronze.maSum = 0
      ∧ t.bronze.bound = 0
      ∧ bal ≤ 16 * b.ballastLimit.toNat ∧ use + bal ≤ top ∧ (bal ≠ 0 → use + bal ≤ b.p1ms.toNat - ramp) ∧ (fixed s = true → bal = 0)
      ∧ (t.bronze.rampShort = true ↔ t.bronze.p1ms.toNat + ramp < b.p1ms.toNat) ∧ (b.samples = 0 → t.bronze.p1ms.toNat = use + bal)
      ∧ (b.samples ≠ 0 → ∃ m, (m = 16 * b.sampleSum / (1000000 * b.samples) ∨ m = 16 * b.sampleSum / (1000000 * b.samples) + 1) ∧ t.bronze.p1ms.toNat = min m top)
      ∧ t.bronze.energyBallast = b.energyBallast + BitVec.ofNat 64 ((b.ballastFrac + 1000 * bal) / 16)
      ∧ t.bronze.limiter = (if b.bound.getLsbD 1 || fixed s then 1 else if b.bound.getLsbD 2 ∨ 4000 < demand then 2 else if b.bound.getLsbD 3 || b.therm then 3
          else if b.bound.getLsbD 4 ∨ 16 * b.effective.toNat < demand then 4 else if b.bound.getLsbD 5 ∨ b.p1ms.toNat + ramp < demand then 5 else 0)
      ∧ ((∀ c e, ¬ MayBallast s c e) → bal = 0)
      ∧ ((∃ c e, MayBallast s c e) → fixed s = false → bal = min (16 * b.ballastLimit.toNat) (min ((b.p1ms.toNat - ramp) - use) (top - use)))
      ∧ TelemetryOf s t bal t.bronze.telemetry
      ∧ ∀ p, let q := s.port p
          (q.subscribed = false → t.port p = q)
          ∧ (q.subscribed = true → q.decimCount + 1 < q.decimate.toNat → t.port p = { q with decimCount := q.decimCount + 1 })
          ∧ (q.subscribed = true → q.decimate.toNat ≤ q.decimCount + 1 → q.bind.toNat.testBit 8 = true → q.full = false →
              t.port p = { q with decimCount := 0, waiting := q.waiting ++ [{ bits := eventSlot 3 t.bronze.telemetry, event := true }] })

/-- The fast loop, the samples and the end of the interval keep Bronze's figures. -/
def Obligations.EnergyAndIntervalsAreKept : Prop := EnergyAndExcursionsAreKept ∧ IntervalsApplyCapsRampAndBallast

/-- PWR_ALERT_N puts every core at k = 1 and 0.40 GHz with 0x401, its deassertion starts the 1 ms after which ALERT_HOLD_RELEASE ends the hold; THERMAL_THROTTLE lowers hot cores by one level, THERMAL_TRIP asserts THERMTRIP_N and fences the die with 0x403, and FATAL_EDGE_OFF turns every edge off, after that fault at once and after another 100 µs later (R345 to R347, R403). -/
def Obligations.AlertsAndHeatRankFirst : Prop :=
  ∀ (s : State), s.powered = true →
    let floored := fun t : State => ∀ c, (t.core c).k = 1 ∧ (t.core c).freq = 0
    (s.bronze.alertPin = false → ∃ t, exec .pwrAlertN s = .next t ∧ floored t ∧ t.bronze.alertHold = true ∧ t.bronze.alertPin = true ∧ t.bronze.alertCount = satAdd s.bronze.alertCount 1
        ∧ t.bronze.alertSince = s.now ∧ (nextRecord s t).code = 0x401 ∧ (nextRecord s t).cls = .corrected ∧ t.mem = s.mem ∧ VoltDecided s t
        ∧ ∀ c, t.core c = { s.core c with k := 1, freq := 0 })
    ∧ (s.bronze.alertPin = true → exec .pwrAlertDeassert s = .next (s.modBrz fun b => { b with alertPin := false, alertSince := s.now }))
    ∧ (s.bronze.alertHold = true → s.bronze.alertPin = false → ∃ t, exec .alertHoldRelease s = .next t ∧ t.bronze.alertHold = false ∧ At s t (s.bronze.alertSince + 100000) ∧ t.mem = s.mem
        ∧ ∀ c : CoreId, (t.core c).freq = (s.core c).freq ∧ (t.core c).k = (s.core c).k)
    ∧ (∀ rs : List (BitVec 12), s.bronze.calInvalid = true → ∃ t, exec (.thermalThrottle rs) s = .next t ∧ At s t ((s.bronze.thermAt / 1000 + 1) * 1000) ∧ t.mem = s.mem
        ∧ (∀ i : Fin 40, t.bronze.sensors[i] = (rs[i.val]?).getD s.bronze.sensors[i])
        ∧ (∀ n, n < 17 → (t.bronze.hot.getLsbD n = true ↔ (∃ i ∈ sensorsOf n, 768 ≤ heat t i) ∨ (s.bronze.hot.getLsbD n = true ∧ ∃ i ∈ sensorsOf n, 752 ≤ heat t i)))
        ∧ (∀ c : CoreId, (t.core c).k = if heated t c && decide (1 < (s.core c).k.toNat) then (s.core c).k - 1 else (s.core c).k)
        ∧ t.bronze.therm = decide (t.bronze.hot ≠ 0) ∧ (∀ i : Fin 40, heat t i ≤ heat t t.bronze.tmaxSensor.toNat))
    ∧ (∀ rs : List (BitVec 12), s.bronze.calInvalid = false → ∃ t, exec (.thermalThrottle rs) s = .next t ∧ t.mem = s.mem
        ∧ (∀ n, n < 17 → (t.bronze.hot.getLsbD n = true ↔ (∃ i ∈ sensorsOf n, 800 ≤ heat t i) ∨ (s.bronze.hot.getLsbD n = true ∧ ∃ i ∈ sensorsOf n, 784 ≤ heat t i)))
        ∧ ∀ c : CoreId, (t.core c).k = if heated t c && decide (1 < (s.core c).k.toNat) then (s.core c).k - 1 else (s.core c).k)
    ∧ (∀ (i : Fin 40) (temp : BitVec 12), 920 ≤ sext 12 temp.toNat → s.bronze.thermtrip = false → ∃ t, exec (.thermalTrip i temp) s = .next t ∧ t.bronze.thermtrip = true ∧ floored t ∧ t.fatal = true
        ∧ t.fatalAt = (if s.fatal then s.fatalAt else s.now) ∧ t.edges = s.edges ∧ (∀ c u, present s c → (t.frozen c u).map (·.cause) = some .fatal) ∧ t.mem = s.mem
        ∧ t.blf.fatalStored = s.blf.fatalStored + (if s.blf.fatalHeld < 64 then 1 else 0)
        ∧ (lastRecord t).code = 0x403 ∧ (lastRecord t).cls = .fatal ∧ (lastRecord t).detail.toNat = i.val)
    ∧ (s.fatal = true → (∃ e : EdgeId, (s.edges[e]).state ≠ 9) → ∃ t, exec .fatalEdgeOff s = .next t ∧ At s t (s.fatalAt + if s.bronze.thermtrip then 0 else 10000) ∧ t.mem = s.mem
        ∧ ∀ e : EdgeId, (t.edges[e]).state = 9 ∧ (t.edges[e]).on = 0 ∧ (t.edges[e]).pll = false ∧ (t.edges[e]).replayBuf = [] ∧ ∀ v : Fin 5, (t.edges[e]).outq[v] = [])

/-! ## Mailboxes, semaphores and commands (13) -/

namespace Sys2Proof.Claims

open Sys2Proof.Machine

/-- Only the Belfry may differ. -/
def BelfryOnly (s t : State) : Prop := t = { s with blf := t.blf }

/-- The slot's first eight bytes and its results (Tables ONA-3 and ONA-4). -/
def slotIs (b : BitVec 512) (status sq kind code head : Nat) (data : List Byte) : Prop :=
  field b.toNat 0 16 = status ∧ field b.toNat 16 8 = sq ∧ field b.toNat 24 8 = kind ∧ field b.toNat 32 16 = code ∧ field b.toNat 48 16 = head
    ∧ ∀ i, i < 56 → field b.toNat (64 + 8 * i) 8 = (data.getD i 0).toNat

/-- Command `cmd` of port `p` has been answered with a status and results (R371, R372). -/
def Replied (s t : State) (p : CtlPort) (cmd : BitVec 512) (status : Nat) (data : List Byte) : Prop :=
  (t.port p).executing = none ∧ (t.port p).phase = .idle
    ∧ ∃ w ∈ (t.port p).waiting, w.event = false ∧ slotIs w.bits status (slotSeq cmd) 0 (slotCode cmd) (s.port p).cmdHead.toNat data

/-- An event with this payload waits for port `p`, after what waited before, when its ring has room (R367, R371). -/
def Posted (s t : State) (p : CtlPort) (code : Nat) (data : List Byte) : Prop :=
  (s.port p).bind.getLsbD 8 = true → (s.port p).full = false →
    ∃ w, (t.port p).waiting = (s.port p).waiting ++ [w] ∧ w.event = true ∧ slotIs w.bits 0 0 1 code 0 data

/-- The port's holder is bound and its page takes writes. -/
def Bound (s : State) (p : CtlPort) : Prop := s.powered = true ∧ (s.port p).bind.getLsbD 8 = true ∧ (s.port p).resetting = false

/-- The port's semaphore owner code (Table ONA-6). -/
def code (p : CtlPort) : BitVec 2 := if p = .A then 1 else 2

/-- Table ONA-7: the status of an operation of a port on a semaphore. -/
def semStatus (x : Sem) (p : CtlPort) (op : Nat) : Nat :=
  if x.owner = 0 then (if op = 0 then 0 else 8)
  else if x.owner = code p then (if op = 3 then 8 else 0)
  else if op = 0 ∨ op = 1 then 1
  else if op = 3 ∧ x.lapsed = true then 0 else 8

/-- The SEM event's payload (Table ONA-13). -/
def semPayload (n : Fin 32) (op status : Nat) (owner : BitVec 2) : List Byte :=
  [BitVec.ofNat 8 n.val, BitVec.ofNat 8 op, BitVec.ofNat 8 status, 0, owner.setWidth 8]

/-- The lease that an operation asks for, in ms. -/
def leaseMs (l : BitVec 16) : Nat := if l = 0 then 1000 else l.toNat

/-- No semaphore is owned by port `p`. -/
def OwnsNone (t : State) (p : CtlPort) : Prop := ∀ n : Fin 32, (t.blf.sems[n]).owner ≠ code p

/-- The port is frozen for a cause: no semaphore of its is left, its binding and subscription stay (R380). -/
def FrozenFor (s t : State) (p : CtlPort) (cause : Nat) : Prop :=
  (t.port p).frozen = true ∧ (t.port p).cause.toNat = cause ∧ OwnsNone t p ∧ (t.port p).bind = (s.port p).bind ∧ (t.port p).subscribed = (s.port p).subscribed

/-- Port `p` may take its next command now: Onaune is ready, a slot is handed over, none executes and no response waits (R370, R371). -/
def MayTake (s : State) (p : CtlPort) (cmd : BitVec 512) : Prop :=
  s.powered = true ∧ s.blf.stage = 5 ∧ (s.port p).resetting = false ∧ (s.port p).cmdHead ≠ (s.port p).cmdTail ∧ (s.port p).executing = none
    ∧ (∀ w ∈ (s.port p).waiting, w.event = true) ∧ (s.port p).cmdSlots[Fin.ofNat 16 (s.port p).cmdHead.toNat] = cmd

/-- The rows of Tables ONA-8 to ONA-12: the code, the row, the mark of its Sem column (H is true, F false) with its semaphore, and whether it names an option. -/
def commandRows : List (Nat × (CtlPort → Instr) × Option (Bool × Fin 32) × Bool) :=
  [(0x0100, .getIdentity, none, false), (0x0101, .getState, none, false), (0x0102, .getFuses, none, false), (0x0103, .subscribeTelemetry, none, false),
   (0x0200, .createPartition, some (true, 2), false), (0x0201, .destroyPartition, some (true, 2), false), (0x0202, .assignCores, some (true, 2), false),
   (0x0203, .setPortKeys, some (true, 2), false), (0x0300, .openWindow, some (false, 2), false), (0x0301, .closeWindow, some (false, 2), false), (0x0302, .listWindows, none, false)]
  ++ [(0x0400, .loadRouteTable, some (true, 1), false), (0x0401, .loadRankTable, some (true, 1), false), (0x0402, .epochFlip, some (true, 1), false),
   (0x0403, .epochStatus, some (true, 1), true), (0x0404, .mcastGroup, some (true, 1), false), (0x0500, .linkStatus, none, false), (0x0501, .linkRetrain, some (true, 1), false),
   (0x0502, .moduleDisable, some (true, 1), false), (0x0503, .laneReport, none, false)]
  ++ [(0x0600, .setCap, some (false, 0), true), (0x0601, .getCap, none, false), (0x0602, .setRamp, some (false, 0), false), (0x0603, .setBallast, some (false, 0), false),
   (0x0604, .energyRead, none, false), (0x0605, .jobBegin, none, false), (0x0606, .jobEnd, none, false), (0x0607, .phaseTable, some (false, 0), false),
   (0x0700, .corePower, some (false, 0), false), (0x0701, .coreReset, some (false, 2), false), (0x0702, .coreFmax, some (false, 0), false)]
  ++ [(0x0800, .errLogRead, none, false), (0x0801, .errClear, some (false, 2), false), (0x0802, .freeze, some (false, 2), false), (0x0803, .unfreeze, some (false, 2), false),
   (0x0804, .fenceDie, some (true, 1), false), (0x0805, .promoteSpare, some (true, 2), false), (0x0806, .mirrorCfg, some (true, 2), false), (0x0807, .waitGraph, none, false)]
  ++ [(0x0900, .calRead, none, false), (0x0901, .calWrite, some (true, 3), true), (0x0A00, .fwStage, some (true, 3), false), (0x0A01, .fwActivate, some (true, 3), false),
   (0x0B00, .scrubCfg, some (false, 2), false), (0x0B01, .scrubStatus, none, false)]

/-- The mark of a command as its arguments make it: URGENT needs H, EPOCH_STATUS needs H with RELEASE alone, and reading phase entries needs nothing. -/
def markOf (cmd : BitVec 512) (m : Option (Bool × Fin 32)) : Option (Bool × Fin 32) :=
  if slotCode cmd = 0x0600 ∧ slotFlags cmd % 2 = 1 then some (true, 0)
  else if slotCode cmd = 0x0403 ∧ slotFlags cmd % 2 = 0 then none
  else if slotCode cmd = 0x0607 ∧ slotBytes (slotArgs cmd) 8 1 = 0 then none else m

/-- R377: the status that a mark ends the command with, if any. -/
def refusedBy (s : State) (p : CtlPort) : Option (Bool × Fin 32) → Option Nat
  | none => none
  | some (h, n) =>
    let x := s.blf.sems[n]
    if x.owner = code (otherPort p) ∧ x.lapsed = false then some 1
    else if h = false then none
    else if x.owner = code p then (if x.lapsed then some 4 else none) else some 3

/-- Command `cmd` of port `p`, with this code, is executing and has not been run. -/
def Running (s : State) (p : CtlPort) (n : Nat) (cmd : BitVec 512) : Prop :=
  s.powered = true ∧ (s.port p).executing = some cmd ∧ (s.port p).phase = .running ∧ slotCode cmd = n ∧ (s.port p).resetting = false

/-- Command `cmd` with this code runs and passes its semaphore and FLAGS (R373 steps 4 and 5). -/
def Cleared (s : State) (p : CtlPort) (n : Nat) (cmd : BitVec 512) : Prop :=
  Running s p n cmd ∧ ∃ f m opt, (n, f, m, opt) ∈ commandRows ∧ refusedBy s p (markOf cmd m) = none ∧ (slotFlags cmd % 2 = 0 ∨ opt = true)

/-- No engine uses the Lantern area that the `n` bytes from `a` lie in, so writing them there makes nothing undefined (R27, R53). -/
def NoneUses (s : State) (a n : Nat) : Prop :=
  ∀ i, i < n → ∀ c, region (a + i) = .lantern c → ∀ e : EngId, (s.eng c e).loading = false ∧ ∀ g, (s.eng c e).groupInUse g = false

/-- The bulk reference of a command names the `need` bytes at die-local address `a` (R374), every one of which Campanile reaches (R22, R25); none of them lies in a damaged word, or where an engine works. -/
def Bulk (s : State) (cmd : BitVec 512) (need a : Nat) : Prop :=
  let b := slotArgs cmd
  let w := s.spire.windows[Fin.ofNat 256 (slotBytes b 52 1)]
  w.valid = true ∧ slotBytes b 56 4 + slotBytes b 60 4 ≤ (w.len64.toNat + 1) * 64 ∧ need ≤ slotBytes b 60 4 ∧ a = w.base.toNat + slotBytes b 56 4
    ∧ (∀ i, i < need → s.judge .campanile (a + i) true = .ok ∧ s.judge .campanile (a + i) false = .ok) ∧ Undamaged s a need ∧ NoneUses s a need

/-- Whatever else a command did, its port's answers and the fault log aside, it left `f` of the die alone. -/
def Kept {α : Type} (f : State → α) (s t : State) : Prop := f t = f s

/-- A command changed nothing but its answer. -/
def OnlyAnswered (s t : State) (p : CtlPort) : Prop := t = s.modPort p fun _ => t.port p

end Sys2Proof.Claims

/-- R369: a TAIL write hands over the slots from the old TAIL on, none when it equals TAIL, and is rejected and counted when it would take slots back; a port whose binding is not valid accepts nothing, and one that resets rejects and counts every write but its CTRL (R363, R365, R382). -/
def Obligations.DoorbellsHandOverSlots : Prop :=
  ∀ (s : State) (p : CtlPort) (v : Word), Bound s p →
    let q := s.port p
    let new : BitVec 4 := v.setWidth 4
    let h := (q.cmdTail - q.cmdHead).toNat
    let n := (new - q.cmdHead).toNat
    (h < n → ∃ t, exec (.blfPortCmdTailWrite p v) s = .next t ∧ BelfryOnly s t ∧ (t.port p) = { q with cmdTail := new, stamps := (t.port p).stamps } ∧ (t.port p).stamps.length = q.stamps.length + (n - h)
        ∧ t.port (otherPort p) = s.port (otherPort p))
    ∧ (n = h → exec (.blfPortCmdTailWrite p v) s = .next s)
    ∧ (n < h → ∃ t, exec (.blfPortCmdTailWrite p v) s = .next t ∧ BelfryOnly s t ∧ (t.port p).cmdTail = q.cmdTail ∧ (t.port p).cmdHead = q.cmdHead ∧ t.blf.mgtReject = satAdd s.blf.mgtReject 1
        ∧ ((∀ x ∈ s.blf.limitedAt, ¬ (x.1 = 0x701 ∧ x.2.1 = 0x1A ∧ x.2.2.1.toNat = if p = .A then 0 else 1)) → (lastRecord t).code = 0x701 ∧ (lastRecord t).cls = .contained))
    ∧ exec (.blfPortRspHeadWrite p v) s = .next (s.modPort p fun q => { q with rspHead := v.setWidth 5 })
    ∧ (∃ t, exec (.portReset p) s = .next t ∧ BelfryOnly s t ∧ (t.port p).cmdTail = 0 ∧ (t.port p).cmdHead = 0 ∧ (t.port p).rspHead = 0 ∧ (t.port p).rspTail = 0 ∧ (t.port p).subscribed = false
        ∧ (t.port p).resetting = true ∧ (t.port p).frozen = q.frozen ∧ (t.port p).cause = q.cause ∧ (t.port p).bind = q.bind ∧ OwnsNone t p
        ∧ (q.executing = none → s.blf.stage = 5 → (∃ w r, (t.port p).waiting = w :: r ∧ w.event = true ∧ slotIs w.bits 0 0 1 1 0 (leBytes 3 4 ++ leBytes s.blf.fwVer.toNat 4))
            ∧ t.blf.readyTime.toNat = s.blf.time.toNat % 2 ^ 32))
    ∧ (∀ i ∈ [Instr.blfPortCmdTailWrite p v, .blfPortRspHeadWrite p v, .semTake p 0 0, .semRenew p 0 0, .semRelease p 0, .semBreak p 0 0],
        let r := s.modPort p fun q => { q with resetting := true }
        ∃ t, exec i r = .next t ∧ BelfryOnly s t ∧ t.blf.mgtReject = satAdd s.blf.mgtReject 1 ∧ t.blf.sems = s.blf.sems ∧ (t.port p).cmdTail = q.cmdTail ∧ (t.port p).cmdHead = q.cmdHead
          ∧ (t.port p).rspHead = q.rspHead ∧ (t.port p).stamps = q.stamps ∧ (t.port p).resetting = true
          ∧ ((∀ x ∈ s.blf.limitedAt, ¬ (x.1 = 0x701 ∧ x.2.1 = 0x1A ∧ x.2.2.1.toNat = if p = .A then 0 else 1)) → (lastRecord t).code = 0x701 ∧ (lastRecord t).cls = .contained))
    ∧ (∃ t, exec (.portReset p) (s.modPort p fun q => { q with resetting := true }) = .next t ∧ BelfryOnly s t ∧ (t.port p).cmdTail = 0 ∧ (t.port p).rspTail = 0 ∧ (t.port p).resetting = true
        ∧ t.blf.mgtReject = s.blf.mgtReject)
    ∧ (∀ i ∈ [Instr.blfPortCmdTailWrite p v, .blfPortRspHeadWrite p v, .portReset p, .semTake p 0 0, .semRenew p 0 0, .semRelease p 0, .semBreak p 0 0],
        exec i (s.modPort p fun q => { q with bind := 0 }) = .next (s.modPort p fun q => { q with bind := 0 }))

/-- MGMT: a packet of the port's bound holder writes its command slots or its doorbells, with the effect of the doorbell's own row, and a poisoned one fences the die; one from another source is discarded and counted (R364, R365, R396). -/
def Sys2Proof.Claims.HolderPacketsAct : Prop :=
  ∀ (s : State) (p : CtlPort) (k : Packet) (r : List Packet), Bound s p → s.spire.mgmtQ = k :: r → k.op = 0x10 → k.pkey = 0 → k.window = 0 → k.destUnit = 8 →
    k.payload.length = 16 * k.len.toNat → 1 ≤ k.len.toNat → k.len.toNat ≤ 4 →
    let q := s.port p
    let o := k.offset.toNat - if p = .A then 0 else 0x1000
    let popped := s.modSpire fun x => { x with mgmtQ := r }
    let held := k.srcDie.toNat = field q.bind.toNat 0 6 ∧ k.srcUnit.toNat = 12 + field q.bind.toNat 6 2
    let word : Word := BitVec.ofNat 32 (leNat (k.payload.take 4))
    (if p = .A then 0 else 0x1000) ≤ k.offset.toNat → k.offset.toNat % 16 = 0 →
    (held → k.len = 1 → o = 0xC10 → k.poisoned = true → ∃ t, exec .mgmt s = .next t ∧ t.fatal = true ∧ (nextRecord s t).code = 0x103 ∧ (nextRecord s t).cls = .fatal ∧ (nextRecord s t).detail = 0xFFFFFFFF
        ∧ t.spire.mgmtQ = r ∧ (t.port p).rspHead = q.rspHead ∧ ∀ c u, present s c → (t.frozen c u).isSome = true)
    ∧ (¬ held → o < 0x1000 → ∃ t, exec .mgmt s = .next t ∧ t = { popped with blf := t.blf } ∧ t.blf.mgtReject = satAdd s.blf.mgtReject 1 ∧ t.blf.sems = s.blf.sems
        ∧ (t.port p).cmdSlots = q.cmdSlots ∧ (t.port p).cmdTail = q.cmdTail)
    ∧ (k.poisoned = false →
    (held → o + 16 * k.len.toNat ≤ 0x400 → (∀ b, o ≤ b → b < o + 16 * k.len.toNat → (q.cmdTail - q.cmdHead).toNat ≤ (BitVec.ofNat 4 (b / 64) - q.cmdHead).toNat) →
        ∃ t, exec .mgmt s = .next t ∧ t = popped.modPort p (fun x => { x with cmdSlots := (t.port p).cmdSlots })
          ∧ ∀ b, b < 0x400 → field ((t.port p).cmdSlots[Fin.ofNat 16 (b / 64)]).toNat (8 * (b % 64)) 8 =
              if o ≤ b ∧ b < o + 16 * k.len.toNat then (k.payload.getD (b - o) 0).toNat else field (q.cmdSlots[Fin.ofNat 16 (b / 64)]).toNat (8 * (b % 64)) 8)
    ∧ (held → k.len = 1 → o = 0xC00 → (q.cmdTail - q.cmdHead).toNat ≤ (word.setWidth 4 - q.cmdHead).toNat → exec .mgmt s = exec (.blfPortCmdTailWrite p word) popped)
    ∧ (held → k.len = 1 → o = 0xC10 → exec .mgmt s = exec (.blfPortRspHeadWrite p word) popped)
    ∧ (held → k.len = 1 → o = 0xC20 → let n : Fin 32 := Fin.ofNat 32 word.toNat
        let lease : BitVec 16 := BitVec.ofNat 16 (field word.toNat 8 16)
        exec .mgmt s = (match field word.toNat 5 2 with
          | 0 => exec (.semTake p n lease) popped
          | 1 => exec (.semRenew p n lease) popped
          | 2 => exec (.semRelease p n) popped
          | _ => exec (.semBreak p n lease) popped))
    ∧ (held → k.len = 1 → o = 0xC30 → word.getLsbD 0 = true → exec .mgmt s = exec (.portReset p) popped))

/-- MGMT: a request addressed to Campanile, which no window serves, is refused with 0x202 and a NACK RANGE, and a FENCE_MARK is returned, so that each gets one answer; it waits while MGMT's input buffer has no room for that (R262, R263, R278, R279; the reason is the model's choice, log entry 62). -/
def Sys2Proof.Claims.RequestsToCampanileAreAnswered : Prop :=
  ∀ (s : State) (k : Packet) (r : List Packet), s.powered = true → s.spire.mgmtQ = k :: r → k.isReq = true → k.op ≠ 4 → k.op ≠ 0x3F →
    (s.mgmtRoom .rsp = true → ∃ t n, exec .mgmt s = .next t ∧ t.spire.mgmtQ = r ∧ t.spire.buf .mgmt .rsp = s.spire.buf .mgmt .rsp ++ [n] ∧ n.destDie = k.srcDie ∧ n.destCore = k.srcCore
        ∧ n.destUnit = k.srcUnit ∧ n.tag = k.tag ∧ n.pkey = k.pkey ∧ n.vc = 1 ∧ t.cores = s.cores ∧ t.mem = s.mem
        ∧ (k.op = 0x20 → n.op = 0x20 ∧ t.blf = s.blf)
        ∧ (k.op ≠ 0x20 → (k.spec = false ∨ k.op ≠ 3) → n.op = 0x3F ∧ n.aux = 1 ∧ (nextRecord s t).code = 0x202 ∧ (nextRecord s t).cls = .contained ∧ (nextRecord s t).pkey = k.pkey)
        ∧ (k.op = 3 → k.spec = true → n.op = 0x3F ∧ n.aux = 3 ∧ t.blf = s.blf))
    ∧ (s.mgmtRoom .rsp = false → exec .mgmt s = .next s)

/-- MGMT writes a page for its holder, and answers the requests that reach Campanile. -/
def Obligations.HoldersWriteTheirPages : Prop := HolderPacketsAct ∧ RequestsToCampanileAreAnswered

/-- Table ONA-7: each semaphore operation of a port gives the table's status in a SEM event to that port, a break that succeeds to both, and leaves the semaphore as the table says; a frozen port's operations change nothing; a lease that runs out sets LAPSED with a SEM event to both ports (R376). -/
def Obligations.SemaphoresFollowTheTable : Prop :=
  ∀ (s : State) (p : CtlPort) (n : Fin 32) (l : BitVec 16), Bound s p → l.toNat ≤ 60000 →
    let x := s.blf.sems[n]
    let ms := leaseMs l
    (∀ r ∈ [(0, Instr.semTake p n l), (1, .semRenew p n l), (2, .semRelease p n), (3, .semBreak p n l)],
      let st := if (s.port p).frozen then 6 else semStatus x p r.1
      ∃ t, exec r.2 s = .next t ∧ BelfryOnly s t ∧ (∀ m : Fin 32, m ≠ n → t.blf.sems[m] = s.blf.sems[m]) ∧ Posted s t p 5 (semPayload n r.1 st (t.blf.sems[n]).owner)
        ∧ (st ≠ 0 → t.blf.sems[n] = x) ∧ (st = 0 → r.1 ≠ 2 → t.blf.sems[n] = { owner := code p, lapsed := false, lease := BitVec.ofNat 16 ms, ends := s.now + ms * 100000 })
        ∧ (st = 0 → r.1 = 2 → (t.blf.sems[n]).owner = 0) ∧ (st = 0 → r.1 = 3 → Posted s t (otherPort p) 5 (semPayload n 3 0 (code p)))
        ∧ (¬ (st = 0 ∧ r.1 = 3) → t.port (otherPort p) = s.port (otherPort p)))
    ∧ (x.owner ≠ 0 → x.lapsed = false → ∃ t, exec (.semLeaseLapse n) s = .next t ∧ t.blf.sems[n] = { x with lapsed := true } ∧ t.now = max s.now x.ends ∧ t.mem = s.mem
        ∧ Posted s t .A 5 (semPayload n 4 0 x.owner) ∧ Posted s t .B 5 (semPayload n 4 0 x.owner) ∧ ∀ m : Fin 32, m ≠ n → t.blf.sems[m] = s.blf.sems[m])

/-- COMMAND_TAKE copies the slot at CMD_HEAD and advances it: a frozen port's is answered FROZEN, a malformed one freezes the port, an unknown code is UNSUPPORTED, another begins to execute; RESPONSE_WRITE writes the next waiting slot, EVT_LOST first, and sends it as an EVENT packet to the port's binding (R367, R370 to R373, R380). -/
def Obligations.CommandsAreTakenAndAnswered : Prop :=
  ∀ (s : State) (p : CtlPort) (cmd : BitVec 512),
    let q := s.port p
    let known := ∃ x ∈ commandRows, x.1 = slotCode cmd
    let named := ∃ x ∈ commandRows, x.1 = slotCode cmd ∧ ∃ h n, x.2.2.1 = some (h, n) ∧ slotSem cmd = n.val
    let malformed := 2 ≤ slotFlags cmd ∨ 56 < slotArgLen cmd ∨ slotBytes cmd 7 1 ≠ 0 ∨ (slotSem cmd ≠ 0xFF ∧ ¬ named)
    let answered := fun (t : State) (st : Nat) => (t.port p).executing = none ∧ (t.port p).cmdHead = q.cmdHead + 1
      ∧ ∃ w ∈ (t.port p).waiting, w.event = false ∧ slotIs w.bits st (slotSeq cmd) 0 (slotCode cmd) (q.cmdHead + 1).toNat []
    (MayTake s p cmd → q.frozen = true → ∃ t, exec (.commandTake p) s = .next t ∧ answered t 6 ∧ (t.port p) = { t.port p with frozen := true, cause := q.cause } ∧ t.blf.sems = s.blf.sems ∧ BelfryOnly s t)
    ∧ (MayTake s p cmd → q.frozen = false → malformed → ∃ t, exec (.commandTake p) s = .next t ∧ answered t 6 ∧ FrozenFor s t p 1 ∧ BelfryOnly s t
        ∧ (lastRecord t).code = 0x701 ∧ (lastRecord t).cls = .contained)
    ∧ (MayTake s p cmd → q.frozen = false → ¬ malformed → ¬ known → ∃ t, exec (.commandTake p) s = .next t ∧ answered t 7 ∧ (t.port p).frozen = false ∧ t.blf.sems = s.blf.sems ∧ BelfryOnly s t)
    ∧ (MayTake s p cmd → q.frozen = false → ¬ malformed → known → (s.port (otherPort p)).executing = none → (s.port (otherPort p)).stamps = [] →
        ∃ t, exec (.commandTake p) s = .next t ∧ BelfryOnly s t ∧ t.port p = { q with cmdHead := q.cmdHead + 1, stamps := q.stamps.drop 1, executing := some cmd, phase := .running, progress := 0, cmdAt := s.now })
    ∧ (s.powered = true → s.mgmtRoom .mgt = false → exec (.responseWrite p) s = .next s)
    ∧ (∀ (b : OutSlot), s.powered = true → s.dstate = .up → s.mgmtRoom .mgt = true → q.bind.getLsbD 8 = true → (q.rspTail - q.rspHead).toNat < 31 →
        (if q.lostSince = 0 then q.waiting.head? = some b else b.event = true ∧ slotIs b.bits 0 0 1 7 0 (leBytes q.lostSince.toNat 4)) →
        ∃ t k, exec (.responseWrite p) s = .next t ∧ (t.port p).rspTail = q.rspTail + 1
          ∧ (q.lostSince = 0 → (t.port p).rspSlots[Fin.ofNat 32 q.rspTail.toNat] = b.bits ∧ (t.port p).waiting = q.waiting.tail ∧ k.payload = leBytes b.bits.toNat 64)
          ∧ (q.lostSince ≠ 0 → slotIs (t.port p).rspSlots[Fin.ofNat 32 q.rspTail.toNat] 0 0 1 7 0 (leBytes q.lostSince.toNat 4) ∧ (t.port p).waiting = q.waiting ∧ (t.port p).lostSince = 0)
          ∧ t.spire.buf .mgmt .mgt = s.spire.buf .mgmt .mgt ++ [k] ∧ k.op = 0x11 ∧ k.len = 4 ∧ k.pkey = 0 ∧ k.vc = 2 ∧ k.payload.length = 64
          ∧ k.destDie.toNat = field q.bind.toNat 0 6 ∧ k.destUnit.toNat = 12 + field q.bind.toNat 6 2
          ∧ k.offset.toNat = (if p = .A then 0 else 0x1000) + 0x400 + 0x40 * q.rspTail.toNat ∧ t.cores = s.cores ∧ t.mem = s.mem)

/-- R377: a command marked H answers BUSY_SEMA, NOT_READY or DENIED, with the port frozen, and one marked F BUSY_SEMA, unless its semaphore allows it; an option it does not name is BAD_ARG; none of these changes anything else (R373 steps 4 and 5). -/
def Obligations.CommandsFollowTheirSemaphoreMark : Prop :=
  ∀ (s : State) (p : CtlPort) (cmd : BitVec 512) (n : Nat) (f : CtlPort → Instr) (m : Option (Bool × Fin 32)) (opt : Bool), (n, f, m, opt) ∈ commandRows → Running s p n cmd →
    (∀ st, refusedBy s p (markOf cmd m) = some st → st ≠ 3 → ∃ t, exec (f p) s = .next t ∧ Replied s t p cmd st [] ∧ OnlyAnswered s t p)
    ∧ (refusedBy s p (markOf cmd m) = some 3 → ∃ t, exec (f p) s = .next t ∧ Replied s t p cmd 3 [] ∧ FrozenFor s t p 2 ∧ BelfryOnly s t ∧ (lastRecord t).code = 0x701)
    ∧ (refusedBy s p (markOf cmd m) = none → slotFlags cmd % 2 = 1 → opt = false → ∃ t, exec (f p) s = .next t ∧ Replied s t p cmd 2 [] ∧ OnlyAnswered s t p)

namespace Sys2Proof.Claims

open Sys2Proof.Machine

/-- Bytes of a command's arguments (Table ONA-3). -/
def arg (cmd : BitVec 512) (i n : Nat) : Nat := slotBytes (slotArgs cmd) i n

/-- A command was answered OK after `bytes` had been written from die-local address `a`; nothing else of the die changed. -/
structure Wrote (s t : State) (p : CtlPort) (cmd : BitVec 512) (a : Nat) (bytes data : List Byte) : Prop where
  reply : Replied s t p cmd 0 data
  die : t = { s with mem := t.mem, blf := (s.modPort p fun _ => t.port p).blf }
  lands : ∀ i, i < bytes.length → t.mem.byteAt (a + i) = bytes.getD i 0
  rest : SameBytesBut s t a bytes.length

/-- The `n` bytes at die-local address `a` that a command's bulk reference names, undamaged and clean, are `bytes` (R374). -/
def Fetches (s : State) (cmd : BitVec 512) (a n : Nat) (bytes : List Byte) : Prop :=
  Bulk s cmd n a ∧ Undamaged s a n ∧ (∀ i, i < n → s.mem.marked ((a + i) / 8) = false) ∧ bytes = (List.range n).map fun i => s.mem.byteAt (a + i)

/-- The command failed with a status and nothing else happened. -/
def Fails (s t : State) (p : CtlPort) (cmd : BitVec 512) (status : Nat) : Prop := Replied s t p cmd status [] ∧ OnlyAnswered s t p

/-- The bits of a mask below `n` are the numbers of which `f` holds. -/
def Mask (v n : Nat) (f : Nat → Prop) : Prop := v < 2 ^ n ∧ ∀ i, i < n → (v.testBit i = true ↔ f i)

/-- R225: the range of a window lies in one place and belongs to its partition, and so does its OWNER. -/
def Placed (s : State) (w : Window) : Prop :=
  let n := (w.len64.toNat + 1) * 64
  let b := w.base.toNat
  b % 64 = 0 ∧ (s.core (Fin.ofNat 16 w.owner.toNat)).owner = some w.pkey
    ∧ ((b + n ≤ 0x04000000 ∧ ∀ i : Fin 8, i.val * 0x800000 < b + n → b < (i.val + 1) * 0x800000 → s.blf.sliceOwner[i] = some w.pkey)
      ∨ ∃ c : CoreId, (s.core c).owner = some w.pkey ∧ ((coreBase c ≤ b ∧ b + n ≤ coreBase c + 0x600000) ∨ (coreBase c + 0xC00000 ≤ b ∧ b + n ≤ coreBase c + 0xD00000)))

/-- Two windows share a byte. -/
def Meets (w v : Window) : Prop := w.base.toNat < v.base.toNat + (v.len64.toNat + 1) * 64 ∧ v.base.toNat < w.base.toNat + (w.len64.toNat + 1) * 64

/-- The partition's key is `key`. -/
def Known (s : State) (key : BitVec 16) : Prop := ∃ x ∈ s.blf.partitions, x.pkey = key

/-- Core `c` as a zeroing leaves it: every unit and register at its reset column, in C4 (R233 step 5). -/
def ZeroCore (k k' : Core) : Prop :=
  k'.eng = Vector.replicate 4 Engine.reset ∧ k'.vec = VecEngine.reset ∧ k'.mov = Mover.reset ∧ k'.seq = Sequencer.reset ∧ k'.cnt = Vector.replicate 64 0 ∧ k'.sat = 0 ∧ k'.under = 0
    ∧ k'.cntCtrl = 3 ∧ k'.bellWake = 0 ∧ k'.countReg = Vector.replicate 16 0 ∧ k'.outst = [] ∧ k'.cstate = .c4 ∧ k'.pll = false ∧ k'.waking = false ∧ k'.clearing = false ∧ k'.owner = k.owner

end Sys2Proof.Claims

/-- GET_IDENTITY, GET_STATE, GET_FUSES, SUBSCRIBE_TELEMETRY and LIST_WINDOWS answer with the fields of Table ONA-8 and change nothing but the bytes of their bulk reference and the subscription. -/
def Obligations.IdentityCommandsReportTheDie : Prop :=
  ∀ (s : State) (p : CtlPort) (cmd : BitVec 512), s.wf →
    let w := fun i : Fin 256 => (s.blf.shadow[i]).toNat
    (Cleared s p 0x0100 cmd → ∃ t, exec (.getIdentity p) s = .next t ∧ OnlyAnswered s t p ∧ ∃ rb, Replied s t p cmd 0 (leBytes s.dieId.toNat 1 ++ leBytes (s.siteX + 8 * s.siteY) 1
        ++ leBytes s.role 1 ++ leBytes 0xB0 1 ++ leBytes (w 1) 4 ++ leBytes (w 4) 4 ++ leBytes (w 5) 4 ++ leBytes s.blf.fwVer.toNat 4 ++ leBytes s.blf.secVer.toNat 4 ++ leBytes rb 1)
        ∧ rb = ((List.range 32).filter fun i => (w 3).testBit i).length)
    ∧ (∀ cores owned slices edges data, Mask cores 16 (fun i => present s (Fin.ofNat 16 i)) → Mask owned 16 (fun i => (s.core (Fin.ofNat 16 i)).owner.isSome = true) →
        Mask slices 8 (fun i => (s.blf.sliceOwner[Fin.ofNat 8 i]).isSome = true) → (∀ e : EdgeId, field edges (4 * e.val) 4 = (s.edges[e]).state.toNat) → edges < 2 ^ 16 →
        data = leBytes s.dieState 2 ++ leBytes cores 2 ++ leBytes owned 2 ++ leBytes slices 1 ++ leBytes s.blf.partitions.length 1 ++ leBytes (s.peek 0x0300040000) 4
          ++ leBytes (s.peek 0x0200000004) 4 ++ leBytes (s.peek 0x0300000C88) 4 ++ leBytes (s.peek 0x0300001C88) 4 ++ leBytes (s.peek 0x0300000C94) 4 ++ leBytes (s.peek 0x0300001C94) 4 ++ leBytes edges 2 →
        (Cleared s p 0x0101 cmd → arg cmd 60 4 = 0 → ∃ t, exec (.getState p) s = .next t ∧ Replied s t p cmd 0 data ∧ OnlyAnswered s t p)
        ∧ (∀ a, Cleared s p 0x0101 cmd → 128 ≤ arg cmd 60 4 → Bulk s cmd 128 a → s.blf.partitions.length ≤ 16 → ∃ t, exec (.getState p) s = .next t ∧ Replied s t p cmd 0 data ∧ SameBytesBut s t a 128
          ∧ ∀ x ∈ s.blf.partitions, ∃ j, j < 16 ∧ numberAt t (a + 8 * j) 2 = x.pkey.toNat ∧ numberAt t (a + 8 * j + 2) 1 = 0x80 + (if x.port = .B then 2 else 0) + (if x.amode then 1 else 0)
            ∧ Mask (numberAt t (a + 8 * j + 3) 1) 8 (fun i => s.blf.sliceOwner[Fin.ofNat 8 i] = some x.pkey) ∧ Mask (numberAt t (a + 8 * j + 4) 2) 16 (fun i => (s.core (Fin.ofNat 16 i)).owner = some x.pkey)))
    ∧ (∀ a, Cleared s p 0x0102 cmd → Bulk s cmd 1024 a → ∃ t, exec (.getFuses p) s = .next t ∧ Wrote s t p cmd a (s.blf.shadow.toList.flatMap fun x => leBytes x.toNat 4) [])
    ∧ (Cleared s p 0x0103 cmd → (arg cmd 8 1).testBit 0 = true → 1 ≤ arg cmd 9 1 → arg cmd 9 1 ≤ 100 → ∃ t, exec (.subscribeTelemetry p) s = .next t ∧ Replied s t p cmd 0 [] ∧ OnlyAnswered s t p
        ∧ (t.port p).subscribed = true ∧ (t.port p).decimate.toNat = arg cmd 9 1)
    ∧ (Cleared s p 0x0103 cmd → (arg cmd 8 1).testBit 0 = false → 1 ≤ arg cmd 9 1 → arg cmd 9 1 ≤ 100 → ∃ t, exec (.subscribeTelemetry p) s = .next t ∧ Replied s t p cmd 0 [] ∧ OnlyAnswered s t p ∧ (t.port p).subscribed = false)
    ∧ (Cleared s p 0x0103 cmd → arg cmd 9 1 = 0 ∨ 100 < arg cmd 9 1 → ∃ t, exec (.subscribeTelemetry p) s = .next t ∧ Fails s t p cmd 2)
    ∧ (∀ valid data, Mask valid 256 (fun i => (s.spire.windows[Fin.ofNat 256 i]).valid = true) →
        data = leBytes valid 32 ++ leBytes (min 255 ((List.finRange 256).filter fun i : Fin 256 => (s.spire.windows[i]).valid).length) 1 →
        (Cleared s p 0x0302 cmd → arg cmd 60 4 = 0 → ∃ t, exec (.listWindows p) s = .next t ∧ Replied s t p cmd 0 data ∧ OnlyAnswered s t p)
        ∧ (∀ a, Cleared s p 0x0302 cmd → arg cmd 60 4 ≠ 0 → Bulk s cmd 8192 a → ∃ t, exec (.listWindows p) s = .next t ∧ Wrote s t p cmd a (s.spire.windows.toList.flatMap fun w => leBytes w.image 32) data))
    ∧ (∀ r ∈ [(0x0101, Instr.getState p, 128), (0x0102, .getFuses p, 1024), (0x0302, .listWindows p, 8192)], Cleared s p r.1 cmd → 1 ≤ arg cmd 60 4 → arg cmd 60 4 < r.2.2 →
        ∃ t, exec r.2.1 s = .next t ∧ Fails s t p cmd 2)

/-- CREATE_PARTITION, DESTROY_PARTITION and ASSIGN_CORES make, clear and bind partitions, freezing every master and closing every window of a partition that loses a resource, and binding nothing that is still being cleared; SET_PORT_KEYS, OPEN_WINDOW under R225 and CLOSE_WINDOW write the key sets and the window table; what an argument or the state forbids is answered and changes nothing (R224, R225, R227, R230, R232, R233, R275, R331, R387). -/
def Obligations.PartitionsBindResourcesAndWindows : Prop :=
  ∀ (s : State) (p : CtlPort) (cmd : BitVec 512),
    let key : BitVec 16 := BitVec.ofNat 16 (arg cmd 8 2)
    let i : Fin 256 := Fin.ofNat 256 (arg cmd 8 1)
    let v := s.spire.windows[i]
    (Cleared s p 0x0200 cmd → key ≠ 0 → arg cmd 11 1 ≤ 1 →
        (¬ Known s key → s.blf.partitions.length < 16 → ∃ t, exec (.createPartition p) s = .next t ∧ Replied s t p cmd 0 [] ∧ BelfryOnly s t
          ∧ t.blf.partitions = s.blf.partitions ++ [{ pkey := key, amode := (arg cmd 10 1).testBit 0, port := if arg cmd 11 1 = 0 then .A else .B }])
        ∧ (Known s key ∨ 16 ≤ s.blf.partitions.length → ∃ t, exec (.createPartition p) s = .next t ∧ Fails s t p cmd 8))
    ∧ (Cleared s p 0x0200 cmd → key = 0 ∨ 1 < arg cmd 11 1 → ∃ t, exec (.createPartition p) s = .next t ∧ Fails s t p cmd 2)
    ∧ (Cleared s p 0x0201 cmd → Known s key → ∃ t, exec (.destroyPartition p) s = .next t ∧ (t.port p).executing = some cmd ∧ (t.port p).phase = .awaitClear ∧ t.mem = s.mem
        ∧ (∀ c u, (s.core c).owner = some key → (t.frozen c u).isSome = true) ∧ (∀ c, (s.core c).owner ≠ some key → t.core c = s.core c)
        ∧ (∀ j : Fin 256, t.spire.windows[j] = { s.spire.windows[j] with valid := (s.spire.windows[j]).valid && decide ((s.spire.windows[j]).pkey ≠ key) })
        ∧ ∃ x, t.blf.clears = s.blf.clears ++ [x] ∧ x.pkey = key ∧ x.destroy = true ∧ x.zeroing = false ∧ x.port = some p ∧ (∀ c : CoreId, x.cores.getLsbD c = true ↔ (s.core c).owner = some key)
          ∧ ∀ j : Fin 8, x.slices.getLsbD j = true ↔ s.blf.sliceOwner[j] = some key)
    ∧ (Cleared s p 0x0201 cmd → ¬ Known s key → ∃ t, exec (.destroyPartition p) s = .next t ∧ Fails s t p cmd 2)
    ∧ (let named := fun c : CoreId => (arg cmd 10 2).testBit c.val = true
       let slice := fun j : Fin 8 => (arg cmd 12 1).testBit j.val = true
       let may := Cleared s p 0x0202 cmd ∧ s.dstate = .up ∧ s.d2Pending = false ∧ (∀ c, named c → present s c ∧ (s.core c).bist = false) ∧ ∀ j : Fin 8, slice j → s.blf.sliceBist.getLsbD j = false
       let clearing := (∃ c, named c ∧ (s.core c).clearing = true) ∨ (∃ j : Fin 8, slice j ∧ s.blf.slicesClearing.getLsbD j = true)
         ∨ ∃ y ∈ s.blf.clears, (∃ c : CoreId, named c ∧ y.cores.getLsbD c = true) ∨ ∃ j : Fin 8, slice j ∧ y.slices.getLsbD j = true
       (may → ¬ clearing → key ≠ 0 → Known s key → (∀ x ∈ s.blf.partitions, x.pkey ≠ key → (∀ c, named c → (s.core c).owner ≠ some x.pkey) ∧ ∀ j, slice j → s.blf.sliceOwner[j] ≠ some x.pkey) →
          ∃ t, exec (.assignCores p) s = .next t ∧ t.mem = s.mem
            ∧ (∀ c, named c → (s.core c).owner ≠ some key → t.core c = { s.core c with
                owner := some key, seq := { (s.core c).seq with enable := false }, waking := decide ((s.core c).cstate ≠ .c0) || (s.core c).waking, rampAt := (t.core c).rampAt, pll := (t.core c).pll })
            ∧ (∀ c, ¬ (named c ∧ (s.core c).owner ≠ some key) → t.core c = { s.core c with rampAt := (t.core c).rampAt, pll := (t.core c).pll }) ∧ (∀ j, slice j → t.blf.sliceOwner[j] = some key) ∧ (∀ j, ¬ slice j → t.blf.sliceOwner[j] = s.blf.sliceOwner[j])
            ∧ ((∀ c, named c → (t.core c).waking = false) → Replied s t p cmd 0 [])
            ∧ ((∃ c, named c ∧ (t.core c).waking = true) → (t.port p).executing = some cmd ∧ ∃ m : BitVec 16, (t.port p).phase = .awaitWake m ∧ ∀ c, m.getLsbD c.val = true ↔ named c ∧ (t.core c).waking = true))
       ∧ (∀ x c, may → (key = 0 ∨ Known s key) → x ∈ s.blf.partitions → x.pkey ≠ key → named c → (s.core c).owner = some x.pkey →
          ∃ t, exec (.assignCores p) s = .next t ∧ (t.port p).executing = some cmd ∧ (t.port p).phase = .awaitClear ∧ t.mem = s.mem ∧ (t.core c).owner = some x.pkey
            ∧ (∀ d u, (s.core d).owner = some x.pkey → (t.frozen d u).isSome = true) ∧ (∀ j : Fin 256, (s.spire.windows[j]).pkey = x.pkey → (t.spire.windows[j]).valid = false)
            ∧ ∃ y ∈ t.blf.clears, y.pkey = x.pkey ∧ y.destroy = false ∧ y.cores.getLsbD c = true)
       ∧ (may → clearing → (key = 0 ∨ Known s key) → (∀ x ∈ s.blf.partitions, x.pkey ≠ key → (∀ c, named c → (s.core c).owner ≠ some x.pkey) ∧ ∀ j, slice j → s.blf.sliceOwner[j] ≠ some x.pkey) →
          ∃ t, exec (.assignCores p) s = .next t ∧ t = s.modPort p fun q => { q with phase := .awaitClear })
       ∧ (∀ c, Cleared s p 0x0202 cmd → (named c ∧ ¬ present s c) ∨ (key ≠ 0 ∧ ¬ Known s key) → ∃ t, exec (.assignCores p) s = .next t ∧ Fails s t p cmd 2))
    ∧ (Cleared s p 0x0203 cmd → arg cmd 8 1 ≤ 5 → ∃ t, exec (.setPortKeys p) s = .next t ∧ Replied s t p cmd 0 [] ∧ t = { s with spire := { s.spire with keys := t.spire.keys }, blf := (s.modPort p fun _ => t.port p).blf }
        ∧ ∀ (n : Fin 6) (j : Fin 8), (t.spire.keys[n])[j] = if n.val = arg cmd 8 1 then BitVec.ofNat 32 (arg cmd (12 + 4 * j.val) 4 % 2 ^ 17) else (s.spire.keys[n])[j])
    ∧ (Cleared s p 0x0203 cmd → 5 < arg cmd 8 1 → ∃ t, exec (.setPortKeys p) s = .next t ∧ Fails s t p cmd 2)
    ∧ (Cleared s p 0x0300 cmd → arg cmd 10 1 ≤ 15 → arg cmd 24 4 < 2 ^ 26 →
        let w : Window := { base := BitVec.ofNat 40 (arg cmd 16 5), len64 := BitVec.ofNat 26 (arg cmd 24 4), pkey := BitVec.ofNat 16 (arg cmd 12 2), owner := BitVec.ofNat 4 (arg cmd 10 1), valid := true
                            rd := (arg cmd 9 1).testBit 0, wr := (arg cmd 9 1).testBit 1, sig := (arg cmd 9 1).testBit 2, specOk := (arg cmd 9 1).testBit 3, reads := 0, writes := 0, spec := 0 }
        (Placed s w → v.valid = false → ∃ t, exec (.openWindow p) s = .next t ∧ Replied s t p cmd 0 [] ∧ (∀ j : Fin 256, t.spire.windows[j] = if j = i then w else s.spire.windows[j])
          ∧ (t.spire.multi = true ↔ s.spire.multi = true ∨ ∃ j : Fin 256, j ≠ i ∧ (s.spire.windows[j]).valid = true ∧ Meets s.spire.windows[j] w) ∧ t.mem = s.mem ∧ t.cores = s.cores)
        ∧ (Placed s w → v.valid = true → ∃ t, exec (.openWindow p) s = .next t ∧ Fails s t p cmd 8) ∧ (¬ Placed s w → ∃ t, exec (.openWindow p) s = .next t ∧ Fails s t p cmd 2))
    ∧ (Cleared s p 0x0301 cmd → v.valid = true → ∃ t, exec (.closeWindow p) s = .next t ∧ Replied s t p cmd 0 [] ∧ (∀ j : Fin 256, t.spire.windows[j] = if j = i then { v with valid := false } else s.spire.windows[j])
        ∧ t.mem = s.mem ∧ t.cores = s.cores)
    ∧ (Cleared s p 0x0301 cmd → v.valid = false → ∃ t, exec (.closeWindow p) s = .next t ∧ Fails s t p cmd 2)

/-- TENANT_CLEAR waits until nothing the partition's cores sent is on its way, then takes the leaving cores' owner, sets them to 1.00 GHz and zeroes the closed windows; ZEROING_DONE zeroes a resource, a core in C4 with every register at its reset column, and after the last one of a destroyed partition the partition and its keys are gone and the command is answered (R232 to R234). -/
def Obligations.TenantClearsRunInOrder : Prop :=
  ∀ (s : State) (x : Clear), s.powered = true → s.wf → x ∈ s.blf.clears → (∀ y ∈ s.blf.clears, y.pkey = x.pkey → y = x) →
    let quiet := ∀ c : CoreId, (s.core c).owner = some x.pkey → (s.core c).outst = [] ∧ (∀ h ∈ s.spire.heldSigs, h.core.toNat ≠ c.val ∧ ¬ (h.srcDie = s.dieId ∧ h.srcCore.toNat = c.val)) ∧ ∀ k ∈ s.spire.nocQ, k.srcCore.toNat ≠ c.val
    (x.zeroing = false → ¬ quiet → exec (.tenantClear x.pkey) s = .next s)
    ∧ (x.zeroing = false → quiet → x.cores ≠ 0 ∨ x.slices ≠ 0 → ∃ t, exec (.tenantClear x.pkey) s = .next t ∧ t.mem = s.mem
        ∧ (∀ c : CoreId, x.cores.getLsbD c = true → (t.core c).owner = none ∧ (t.core c).clearing = true ∧ (t.core c).freq = (if (s.core c).cstate = .c4 then (s.core c).freq else 24)
            ∧ ((s.core c).cstate = .c2 ∨ (s.core c).cstate = .c3 → present s c → (t.core c).waking = true))
        ∧ (∀ c : CoreId, x.cores.getLsbD c = false → t.core c = { s.core c with rampAt := (t.core c).rampAt, pll := (t.core c).pll })
        ∧ (∀ j : Fin 8, t.blf.sliceOwner[j] = if x.slices.getLsbD j then none else s.blf.sliceOwner[j]) ∧ t.blf.slicesClearing = s.blf.slicesClearing ||| x.slices
        ∧ (∀ j : Fin 256, t.spire.windows[j] = if (s.spire.windows[j]).pkey = x.pkey ∧ (s.spire.windows[j]).valid = false then Window.reset else s.spire.windows[j]))
    ∧ (∀ c : CoreId, x.zeroing = true → x.cores.getLsbD c = true → (∀ y ∈ s.blf.clears, y.zeroing = true → y.cores.getLsbD c = true → y = x) →
        ∃ t, exec (.zeroingDone (.core c)) s = .next t ∧ (∀ a, coreBase c ≤ a → a < coreBase c + 0x1000000 → t.mem.byteAt a = 0) ∧ (∀ a, a < coreBase c ∨ coreBase c + 0x1000000 ≤ a → t.mem.byteAt a = s.mem.byteAt a)
          ∧ ((∃ d : CoreId, d ≠ c ∧ x.cores.getLsbD d = true) ∨ x.slices ≠ 0 → ZeroCore (s.core c) (t.core c) ∧ OthersRamp s t c ∧ ∃ y ∈ t.blf.clears, y.pkey = x.pkey ∧ y.cores.getLsbD c = false))
    ∧ (∀ j : Fin 8, x.zeroing = true → x.slices.getLsbD j = true → (∀ y ∈ s.blf.clears, y.zeroing = true → y.slices.getLsbD j = true → y = x) →
        ∃ t, exec (.zeroingDone (.slice j)) s = .next t ∧ (∀ a, j.val * 0x800000 ≤ a → a < (j.val + 1) * 0x800000 → t.mem.byteAt a = 0)
          ∧ (∀ a, a < j.val * 0x800000 ∨ (j.val + 1) * 0x800000 ≤ a → t.mem.byteAt a = s.mem.byteAt a) ∧ t.blf.slicesClearing.getLsbD j = false)
    ∧ (∀ (c : CoreId) (p : CtlPort) cmd, x.zeroing = true → x.destroy = true → x.cores = BitVec.ofNat 16 (2 ^ c.val) → x.slices = 0 → x.port = some p → s.blf.clears = [x] → (s.port p).phase = .awaitClear →
        (s.port p).executing = some cmd → slotCode cmd = 0x0201 → (s.port p).resetting = false → (s.port (otherPort p)).phase ≠ .awaitClear → ∃ t, exec (.zeroingDone (.core c)) s = .next t ∧ ZeroCore (s.core c) (t.core c) ∧ t.blf.clears = [] ∧ Replied s t p cmd 0 []
          ∧ (∀ y, y ∈ t.blf.partitions ↔ y ∈ s.blf.partitions ∧ y.pkey ≠ x.pkey)
          ∧ ∀ (n : Fin 6) (j : Fin 8), (t.spire.keys[n])[j] = if ((s.spire.keys[n])[j]).getLsbD 16 = true ∧ ((s.spire.keys[n])[j]).setWidth 16 = x.pkey then 0 else (s.spire.keys[n])[j])

/-! ## Tables, epochs and links by command (10, 11, 13) -/

namespace Sys2Proof.Claims

open Sys2Proof.Machine

/-- A command's effect lay in Spire alone, its port's answer aside. -/
def SpireOnly (s t : State) (p : CtlPort) : Prop := t = { s with spire := t.spire, blf := (s.modPort p fun _ => t.port p).blf }

/-- The version a command names may be loaded (R285). -/
def Loadable (s : State) (v : Nat) : Prop := v ≤ 1 ∧ s.spire.lock = false ∧ v ≠ if s.spire.cur then 1 else 0

/-- An entry of Table FAB-6 with no reserved bit and no port code 6. -/
def RouteEntry (w : Nat) : Prop := w < 512 ∧ field w 0 3 ≠ 6 ∧ field w 4 3 ≠ 6

/-- The `n`-byte number at byte `i` of a list. -/
def numIn (bs : List Byte) (i n : Nat) : Nat := leNat ((bs.drop i).take n)

/-- A repair word of Table PAR-9 that takes a spare. -/
def Spares (w : Word) : Prop := (∃ i, i < 4 ∧ field w.toNat (7 * i) 7 < 64) ∨ w.getLsbD 28 = true ∨ w.getLsbD 29 = true

/-- The edge over which a flip sends its mark: live, toward a compute neighbour (R286). -/
def Marks (s : State) (e : EdgeId) : Prop :=
  s.attach e = 1 ∧ ((s.edges[e]).state = 6 ∨ (s.edges[e]).state = 7 ∨ (s.edges[e]).retraining = true) ∧ s.spire.down.getLsbD e = false

end Sys2Proof.Claims

/-- LOAD_ROUTE_TABLE, LOAD_RANK_TABLE and MCAST_GROUP write version 1 − CUR while LOCK is 0 and set LOADED as R285 says; EPOCH_FLIP turns the epoch and sends its marks; EPOCH_STATUS shows the epoch registers and with RELEASE clears LOCK; what R285, R286 and R290 forbid changes nothing. -/
def Sys2Proof.Claims.TablesAndEpochsFollowTheirCommands : Prop :=
  ∀ (s : State) (p : CtlPort) (cmd : BitVec 512),
    let v := arg cmd 8 1
    (∀ a bytes, Cleared s p 0x0400 cmd → Fetches s cmd a 256 bytes → v ≤ 1 →
        ((∀ d, d < 64 → RouteEntry (numIn bytes (4 * d) 4)) → Loadable s v → ∃ t, exec (.loadRouteTable p) s = .next t ∧ Replied s t p cmd 0 [] ∧ SpireOnly s t p
          ∧ t.spire = { s.spire with route := t.spire.route, loaded := s.spire.loaded ||| 1 }
          ∧ ∀ (n : Fin 2) (d : Fin 64), ((t.spire.route[n])[d]).toNat = if n.val = v then numIn bytes (4 * d.val) 4 else ((s.spire.route[n])[d]).toNat)
        ∧ ((∀ d, d < 64 → RouteEntry (numIn bytes (4 * d) 4)) → ¬ Loadable s v → ∃ t, exec (.loadRouteTable p) s = .next t ∧ Fails s t p cmd 8)
        ∧ (∀ d, d < 64 → ¬ RouteEntry (numIn bytes (4 * d) 4) → ∃ t, exec (.loadRouteTable p) s = .next t ∧ Fails s t p cmd 2))
    ∧ (∀ a bytes, Cleared s p 0x0401 cmd → Fetches s cmd a 8192 bytes → v ≤ 1 →
        (Loadable s v → ∃ t, exec (.loadRankTable p) s = .next t ∧ Replied s t p cmd 0 [] ∧ SpireOnly s t p
          ∧ t.spire = { s.spire with rank := t.spire.rank, loaded := s.spire.loaded ||| 2 }
          ∧ ∀ (n : Fin 2) (r : Fin 4096), let w := ((t.spire.rank[n])[r]).toNat
            if n.val = v then field w 0 10 = field (numIn bytes (2 * r.val) 2) 0 10 ∧ w.testBit 15 = (numIn bytes (2 * r.val) 2).testBit 15 else w = ((s.spire.rank[n])[r]).toNat)
        ∧ (¬ Loadable s v → ∃ t, exec (.loadRankTable p) s = .next t ∧ Fails s t p cmd 8))
    ∧ (Cleared s p 0x0404 cmd → v ≤ 1 → arg cmd 9 1 ≤ 15 →
        (Loadable s v → ∃ t, exec (.mcastGroup p) s = .next t ∧ Replied s t p cmd 0 [] ∧ SpireOnly s t p ∧ t.spire = { s.spire with mcast := t.spire.mcast }
          ∧ ∀ (n : Fin 2) (g : Fin 16), ((t.spire.mcast[n])[g]).toNat = if n.val = v ∧ g.val = arg cmd 9 1 then arg cmd 12 4 else ((s.spire.mcast[n])[g]).toNat)
        ∧ (¬ Loadable s v → ∃ t, exec (.mcastGroup p) s = .next t ∧ Fails s t p cmd 8))
    ∧ (Cleared s p 0x0402 cmd → s.spire.lock = false → s.spire.loaded = 3 → ∃ t, exec (.epochFlip p) s = .next t ∧ t.spire.cur = (!s.spire.cur) ∧ t.spire.gen = s.spire.gen + 1
        ∧ t.spire.lock = true ∧ t.spire.loaded = 0 ∧ Replied s t p cmd 0 (leBytes (if s.spire.cur then 0 else 1) 2 ++ leBytes (s.spire.gen + 1).toNat 2)
        ∧ Posted s t (otherPort p) 0xA (leBytes (if s.spire.cur then 0 else 1) 2 ++ leBytes (s.spire.gen + 1).toNat 2 ++ [0]) ∧ t.mem = s.mem ∧ t.cores = s.cores
        ∧ (∀ e, ¬ Marks s e → t.edges[e] = s.edges[e])
        ∧ (∀ e, Marks s e → ∃ m : Packet, t.edges[e] = { s.edges[e] with outq := (t.edges[e]).outq } ∧ m.opcode = 0x21 ∧ m.vc = 2 ∧ m.aux = s.spire.gen + 1 ∧ m.epoch = (!s.spire.cur)
            ∧ m.len = 0 ∧ m.payload = [] ∧ m.srcDie = s.dieId ∧ m.hops = 1 ∧ m.turned = decide (e ≠ 3) ∧ ∀ i : Fin 5, (t.edges[e]).outq[i] = if i = 2 then (s.edges[e]).outq[i] ++ [m] else (s.edges[e]).outq[i]))
    ∧ (Cleared s p 0x0402 cmd → s.spire.lock = true ∨ s.spire.loaded ≠ 3 → ∃ t, exec (.epochFlip p) s = .next t ∧ Fails s t p cmd 8)
    ∧ (let old := if s.spire.cur then (0 : Fin 2) else 1
       let shows := fun (lock : Bool) (data : List Byte) => ∃ st, st < 16 ∧ data = leBytes st 2 ++ leBytes s.spire.gen.toNat 2 ++ leBytes (s.spire.exits[0]).toNat 4 ++ leBytes (s.spire.exits[1]).toNat 4
         ++ leBytes (s.spire.enter[0]).toNat 4 ++ leBytes (s.spire.enter[1]).toNat 4 ++ leBytes (s.spire.held[0]).toNat 2 ++ leBytes (s.spire.held[1]).toNat 2
         ∧ st.testBit 0 = s.spire.cur ∧ st.testBit 1 = lock ∧ st / 4 = s.spire.loaded.toNat
       (Cleared s p 0x0403 cmd → slotFlags cmd = 0 → ∃ t data, exec (.epochStatus p) s = .next t ∧ Replied s t p cmd 0 data ∧ shows s.spire.lock data ∧ OnlyAnswered s t p)
       ∧ (Cleared s p 0x0403 cmd → slotFlags cmd = 1 → s.spire.held[old] = 0 → ∃ t data, exec (.epochStatus p) s = .next t ∧ Replied s t p cmd 0 data ∧ shows false data ∧ SpireOnly s t p
          ∧ t.spire = { s.spire with lock := false })
       ∧ (Cleared s p 0x0403 cmd → slotFlags cmd = 1 → s.spire.held[old] ≠ 0 → ∃ t, exec (.epochStatus p) s = .next t ∧ Fails s t p cmd 4))
    ∧ (∀ r ∈ [(0x0400, Instr.loadRouteTable p, 256), (0x0401, .loadRankTable p, 8192)], Cleared s p r.1 cmd → arg cmd 60 4 < r.2.2 → ∃ t, exec r.2.1 s = .next t ∧ Fails s t p cmd 2)
    ∧ (∀ r ∈ [(0x0400, Instr.loadRouteTable p), (0x0401, .loadRankTable p), (0x0404, .mcastGroup p)], Cleared s p r.1 cmd → 1 < v → ∃ t, exec r.2 s = .next t ∧ Fails s t p cmd 2)

/-- LINK_STATUS reads an edge's registers and clears its two counts; LINK_RETRAIN begins a retrain of an ACTIVE edge and is answered when that ends, TIMEOUT when it fails; MODULE_DISABLE switches modules off until cold reset, but not the last; LANE_REPORT stores the repair words (R313, R314, R386). -/
def Sys2Proof.Claims.LinkCommandsActOnTheirEdge : Prop :=
  ∀ (s : State) (p : CtlPort) (cmd : BitVec 512) (e : EdgeId), EdgesAgree s → s.wf → arg cmd 8 1 = e.val →
    let x := s.edges[e]
    (Cleared s p 0x0500 cmd → ∃ t, exec (.linkStatus p) s = .next t ∧ Replied s t p cmd 0 (leBytes (s.peek (0x0210000004 + e.val * 0x1000000)) 4 ++ leBytes x.on.toNat 4 ++ leBytes x.offRetry.toNat 4
        ++ leBytes x.offCmd.toNat 4 ++ leBytes x.peer.toNat 4 ++ leBytes x.replays.toNat 4 ++ leBytes x.badFlits.toNat 4 ++ leBytes x.targetRate.toNat 4)
        ∧ t = { s with edges := t.edges, blf := (s.modPort p fun _ => t.port p).blf } ∧ ∀ f : EdgeId, t.edges[f] = if f = e then { x with replays := 0, badFlits := 0 } else s.edges[f])
    ∧ (Cleared s p 0x0501 cmd → x.state = 6 → ∃ t, exec (.linkRetrain p) s = .next t ∧ (t.port p).executing = some cmd ∧ (t.port p).phase = .awaitRetrain e ∧ (t.edges[e]).state = 7
        ∧ t.edges[e] = { x with state := 7, retraining := true, resendAt := none, resendCount := 0 } ∧ (∀ f : EdgeId, f ≠ e → t.edges[f] = s.edges[f]) ∧ t.mem = s.mem ∧ t.cores = s.cores ∧ t.spire = s.spire)
    ∧ (∀ ok, s.powered = true → (s.port p).resetting = false → (s.port p).executing = some cmd → (s.port p).phase = .awaitRetrain e → (s.port (otherPort p)).phase ≠ .awaitRetrain e → x.retraining = true →
        ∃ t, exec (.retrain e { ok := ok, off := 0 }) s = .next t ∧ Replied s t p cmd (if ok then 0 else 5) [] ∧ (t.edges[e]).state = if ok then 6 else 8)
    ∧ (Cleared s p 0x0501 cmd → x.state ≠ 6 → ∃ t, exec (.linkRetrain p) s = .next t ∧ Fails s t p cmd 4)
    ∧ (let mask := arg cmd 12 4
       (Cleared s p 0x0502 cmd → mask < 2 ^ 20 → (∃ m : Fin 20, x.on.getLsbD m = true ∧ mask.testBit m.val = false) → ∃ t, exec (.moduleDisable p) s = .next t ∧ Replied s t p cmd 0 []
          ∧ (∀ m : Fin 20, (t.edges[e]).on.getLsbD m = (x.on.getLsbD m && !mask.testBit m.val) ∧ (t.edges[e]).offCmd.getLsbD m = (x.offCmd.getLsbD m || (x.on.getLsbD m && mask.testBit m.val))
              ∧ (t.edges[e]).offRetry.getLsbD m = x.offRetry.getLsbD m ∧ (t.edges[e]).offReq.getLsbD m = (x.offReq.getLsbD m || (x.on.getLsbD m && mask.testBit m.val)))
          ∧ unsent (t.edges[e]) = unsent x ∧ (t.edges[e]).replayBuf = []
          ∧ (∀ f : EdgeId, f ≠ e → t.edges[f] = s.edges[f]) ∧ t.mem = s.mem ∧ t.cores = s.cores ∧ t.spire = s.spire)
       ∧ (Cleared s p 0x0502 cmd → mask < 2 ^ 20 → (∀ m : Fin 20, x.on.getLsbD m = true → mask.testBit m.val = true) → ∃ t, exec (.moduleDisable p) s = .next t ∧ Fails s t p cmd 8))
    ∧ (∀ a used, Cleared s p 0x0503 cmd → Bulk s cmd 320 a → Mask used 20 (fun m => Spares x.mapTx[Fin.ofNat 20 m] ∨ Spares x.mapRx[Fin.ofNat 20 m]) → ∃ t, exec (.laneReport p) s = .next t
        ∧ Wrote s t p cmd a ((List.finRange 20).flatMap fun m : Fin 20 => leBytes (s.peek (0x0300010000 + 0x100 + (e.val * 20 + m.val) * 8)) 4 ++ leBytes (s.peek (0x0300010000 + 0x104 + (e.val * 20 + m.val) * 8)) 4
            ++ leBytes (x.mapTx[m]).toNat 4 ++ leBytes (x.mapRx[m]).toNat 4) (leBytes used 4 ++ leBytes x.startFails.toNat 1))
    ∧ (Cleared s p 0x0503 cmd → arg cmd 60 4 < 320 → ∃ t, exec (.laneReport p) s = .next t ∧ Fails s t p cmd 2)

/-- The route table, epoch and link commands act as their tables say. -/
def Obligations.TableAndLinkCommandsAct : Prop := TablesAndEpochsFollowTheirCommands ∧ LinkCommandsActOnTheirEdge

/-! ## Power and cores by command (12, 13) -/

namespace Sys2Proof.Claims

open Sys2Proof.Machine

/-- A command's effect lay in Bronze's registers alone, its port's answer aside. -/
def PowerOnly (s t : State) (p : CtlPort) : Prop := t = { s with bronze := t.bronze, blf := (s.modPort p fun _ => t.port p).blf }

/-- A core or a Dome slice belongs to the partition with key `k`. -/
def Holds (s : State) (k : BitVec 16) : Prop := (∃ c, (s.core c).owner = some k) ∨ ∃ j : Fin 8, s.blf.sliceOwner[j] = some k

/-- A command names core `c` in bytes 12 and 13. -/
def Names (cmd : BitVec 512) (c : CoreId) : Prop := (arg cmd 12 2).testBit c.val = true

/-- The core's sequencer is idle, halted or asleep on an empty ring, and no unit queue holds a descriptor (R330). -/
def Rests (s : State) (c : CoreId) : Prop :=
  let k := s.core c
  (k.seqState s c = 0 ∨ k.seqState s c = 5 ∨ k.seqState s c = 6) ∧ k.vec.q.queue = [] ∧ k.vec.q.active = [] ∧ k.mov.q.queue = [] ∧ k.mov.q.active = []
    ∧ ∀ e : EngId, k.eng[e].q.queue = [] ∧ k.eng[e].q.active = [] ∧ k.eng[e].flight = []

/-- Every unit and register of a core is as core reset leaves it (Table BOT-4), but SEQ_FAULT_DESC, which records where work was discarded (Table TIL-1). -/
def UnitsReset (k : Core) : Prop :=
  k.eng = Vector.replicate 4 Engine.reset ∧ k.vec = VecEngine.reset ∧ k.mov = Mover.reset ∧ k.seq = { Sequencer.reset with faultDesc := k.seq.faultDesc } ∧ k.cnt = Vector.replicate 64 0 ∧ k.sat = 0
    ∧ k.under = 0 ∧ k.cntCtrl = 3 ∧ k.bellWake = 0 ∧ k.countReg = Vector.replicate 16 0 ∧ k.outst = []

/-- Entry `e` of unit `u` is the first descriptor of a core that has not completed, and no loop is under way (R401). -/
def FirstOpen (k : Core) (u : UnitId) (e : QEntry) : Prop :=
  k.seq.loop = none ∧ (∃ r, (k.unitQ u).opens = e :: r) ∧ u ≠ .seq ∧ ∀ v, v ≠ .seq → ∀ x ∈ (k.unitQ v).opens, x = e ∨ e.id < x.id

/-- Address `a` lies in a group window of core `c` (Table ENG-3). -/
def InGroups (c : CoreId) (a : Nat) : Prop := ∃ e : EngId, lanternBase c e + 0x20000 ≤ a ∧ a < lanternBase c e + 0x30000

/-- The state a core scope CORE_POWER names. -/
def stateNamed (cmd : BitVec 512) (st : CState) : Prop :=
  arg cmd 9 1 = match st with
    | .c0 => 0
    | .c2 => 2
    | .c3 => 3
    | .c4 => 4

end Sys2Proof.Claims

/-- SET_CAP, GET_CAP, SET_RAMP, SET_BALLAST, ENERGY_READ, JOB_BEGIN, JOB_END and PHASE_TABLE set and report what R337, R341, R343, R349 and R350 say and change nothing else; a value out of range is BAD_ARG. -/
def Obligations.PowerCommandsSetAndReport : Prop :=
  ∀ (s : State) (p : CtlPort) (cmd : BitVec 512), s.wf →
    let b := s.bronze
    let n := arg cmd 8 1
    (Cleared s p 0x0600 cmd → 80 ≤ n → n ≤ 250 → ∃ t, exec (.setCap p) s = .next t ∧ PowerOnly s t p ∧ t.bronze = { b with target := BitVec.ofNat 8 n, urgent := decide (slotFlags cmd % 2 = 1) }
        ∧ Replied s t p cmd 0 (leBytes n 1 ++ leBytes (if slotFlags cmd % 2 = 1 then n else if b.effective.toNat < n then min n (b.effective.toNat + b.ramp.toNat) else max n (b.effective.toNat - b.ramp.toNat)) 1
            ++ leBytes b.ramp.toNat 1))
    ∧ (Cleared s p 0x0601 cmd → ∃ t, exec (.getCap p) s = .next t ∧ OnlyAnswered s t p
        ∧ Replied s t p cmd 0 (leBytes b.target.toNat 1 ++ leBytes b.effective.toNat 1 ++ leBytes b.ramp.toNat 1 ++ leBytes 250 2 ++ leBytes b.ballastLimit.toNat 1))
    ∧ (Cleared s p 0x0602 cmd → 1 ≤ n → n ≤ 100 → ∃ t, exec (.setRamp p) s = .next t ∧ PowerOnly s t p ∧ Replied s t p cmd 0 [] ∧ t.bronze = { b with ramp := BitVec.ofNat 7 n })
    ∧ (Cleared s p 0x0603 cmd → n ≤ 40 → ∃ t, exec (.setBallast p) s = .next t ∧ PowerOnly s t p ∧ Replied s t p cmd 0 [] ∧ t.bronze = { b with ballastLimit := BitVec.ofNat 6 n })
    ∧ (∀ r ∈ [(0x0600, Instr.setCap p, decide (80 ≤ n ∧ n ≤ 250)), (0x0602, .setRamp p, decide (1 ≤ n ∧ n ≤ 100)), (0x0603, .setBallast p, decide (n ≤ 40)),
          (0x0607, .phaseTable p, decide (n ≤ 3 ∧ arg cmd 9 1 + arg cmd 10 1 ≤ 64))],
        Cleared s p r.1 cmd → r.2.2 = false → ∃ t, exec r.2.1 s = .next t ∧ Fails s t p cmd 2)
    ∧ (Cleared s p 0x0604 cmd → ∃ t, exec (.energyRead p) s = .next t ∧ OnlyAnswered s t p
        ∧ Replied s t p cmd 0 (leBytes b.energyTotal.toNat 8 ++ leBytes b.energyBallast.toNat 8 ++ leBytes b.energyTime.toNat 8))
    ∧ (let id : Word := BitVec.ofNat 32 (arg cmd 8 4)
       let isOpen := ∃ (i : Fin 16) (j : Job), b.jobs[i] = some j ∧ j.id = id
       (Cleared s p 0x0605 cmd → ¬ isOpen → (∃ i : Fin 16, b.jobs[i] = none) → ∃ t, exec (.jobBegin p) s = .next t ∧ PowerOnly s t p ∧ t.bronze = { b with jobs := t.bronze.jobs }
          ∧ ∃ (i : Fin 16) (shared : Bool), b.jobs[i] = none ∧ Replied s t p cmd 0 (leBytes 0 4 ++ leBytes i.val 1) ∧ (shared = true ↔ ∃ k l, Holds s k ∧ Holds s l ∧ k ≠ l)
            ∧ t.bronze.jobs[i] = some { id := id, total := b.energyTotal, ballast := b.energyBallast, time := s.blf.time, shared := shared }
            ∧ ∀ j : Fin 16, j ≠ i → t.bronze.jobs[j] = (b.jobs[j]).map fun x : Job => { x with shared := x.shared || shared })
       ∧ (Cleared s p 0x0605 cmd → (isOpen ∨ ∀ i : Fin 16, (b.jobs[i]).isSome = true) → ∃ t, exec (.jobBegin p) s = .next t ∧ Fails s t p cmd 8)
       ∧ (∀ (i : Fin 16) (j : Job), Cleared s p 0x0606 cmd → b.jobs[i] = some j → j.id = id → (∀ (k : Fin 16) (x : Job), b.jobs[k] = some x → x.id = id → k = i) → ∃ t, exec (.jobEnd p) s = .next t ∧ PowerOnly s t p
          ∧ t.bronze = { b with jobs := t.bronze.jobs } ∧ (∀ k : Fin 16, t.bronze.jobs[k] = if k = i then none else b.jobs[k])
          ∧ Replied s t p cmd 0 (leBytes 0 4 ++ leBytes (b.energyTotal - j.total).toNat 8 ++ leBytes (b.energyBallast - j.ballast).toNat 8 ++ leBytes (s.blf.time - j.time).toNat 8
              ++ leBytes (if j.shared then 1 else 0) 1))
       ∧ (Cleared s p 0x0606 cmd → ¬ isOpen → ∃ t, exec (.jobEnd p) s = .next t ∧ Fails s t p cmd 2))
    ∧ (let first := arg cmd 9 1
       let count := arg cmd 10 1
       let within := fun i : Fin 64 => first ≤ i.val ∧ i.val < first + count
       let runs := Cleared s p 0x0607 cmd ∧ first + count ≤ 64
       (∀ a, runs → n = 0 → Bulk s cmd (8 * count) a → ∃ t, exec (.phaseTable p) s = .next t ∧ Wrote s t p cmd a ((List.range count).flatMap fun i => let e := b.phases[Fin.ofNat 64 (first + i)]
            leBytes e.avg.toNat 4 ++ leBytes (e.visits.toNat + if e.locked then 0x10000 else 0) 4) [])
       ∧ (∀ a bytes, runs → n = 1 → Fetches s cmd a (8 * count) bytes → ∃ t, exec (.phaseTable p) s = .next t ∧ PowerOnly s t p ∧ Replied s t p cmd 0 [] ∧ t.bronze = { b with phases := t.bronze.phases }
          ∧ ∀ i : Fin 64, let o := 8 * (i.val - first)
            (within i → (t.bronze.phases[i]).avg.toNat = numIn bytes o 2 ∧ (t.bronze.phases[i]).visits.toNat = numIn bytes (o + 4) 2 ∧ (t.bronze.phases[i]).locked = (numIn bytes (o + 4) 4).testBit 16)
              ∧ (¬ within i → t.bronze.phases[i] = b.phases[i]))
       ∧ (∀ lock, runs → n = (if lock then 2 else 3) → ∃ t, exec (.phaseTable p) s = .next t ∧ PowerOnly s t p ∧ Replied s t p cmd 0 [] ∧ t.bronze = { b with phases := t.bronze.phases }
          ∧ ∀ i : Fin 64, (within i → t.bronze.phases[i] = { b.phases[i] with locked := lock }) ∧ (¬ within i → t.bronze.phases[i] = b.phases[i]))
       ∧ (runs → n ≤ 1 → arg cmd 60 4 < 8 * count → ∃ t, exec (.phaseTable p) s = .next t ∧ Fails s t p cmd 2))

/-- CORE_POWER puts cores to sleep or wakes them, all or none, but no core whose work has not ended, and takes the die to D2 or back; CORE_RESET resets the units and registers of its cores; CORE_FMAX sets their ceilings (R330, R331, R333, R354, R387, R427). -/
def Obligations.CoreCommandsMoveTheirCores : Prop :=
  ∀ (s : State) (p : CtlPort) (cmd : BitVec 512), s.wf →
    let here := ∀ c, Names cmd c → present s c
    (∀ st, st ≠ .c0 → Cleared s p 0x0700 cmd → arg cmd 8 1 = 0 → stateNamed cmd st → here → (∀ c, Names cmd c → (s.core c).bist = false ∧ ((s.core c).owner.isSome = true ∨ st = .c4) ∧ ((s.core c).cstate ≠ .c4 → Rests s c)) →
        (∀ c, Names cmd c → ∀ h ∈ s.spire.heldSigs, h.core.toNat ≠ c.val) →
        ∃ t, exec (.corePower p) s = .next t ∧ Replied s t p cmd 0 [] ∧ VoltDecided s t
          ∧ (∀ c, Names cmd c → (t.core c).cstate = st ∧ (t.core c).owner = (s.core c).owner ∧ (t.core c).cnt = (s.core c).cnt ∧ (t.core c).seq = (s.core c).seq
              ∧ (st = .c2 → (t.core c).eng = (s.core c).eng ∧ (t.core c).vec = (s.core c).vec)
              ∧ ((s.core c).cstate ≠ st → st ≠ .c2 → (t.core c).vec.v = VecEngine.reset.v ∧ (t.core c).vec.a = VecEngine.reset.a ∧ ∀ (e : EngId) (g : GroupId), (t.core c).eng[e].slots = Engine.reset.slots ∧ ((t.core c).eng[e].groups)[g] = Group.closed))
          ∧ (∀ c, Names cmd c → (s.core c).cstate ≠ st → (s.core c).waking = false ∨ st = .c4 → (t.core c).pll = false ∧ (t.core c).waking = false)
          ∧ (∀ c, ¬ Names cmd c → t.core c = { s.core c with rampAt := (t.core c).rampAt, pll := (t.core c).pll })
          ∧ (∀ a, (∀ c, Names cmd c → (s.core c).cstate = .c4 → a < coreBase c ∨ coreBase c + 0x1000000 ≤ a) → (∀ c, Names cmd c → st ≠ .c2 → ¬ InGroups c a) → t.mem.byteAt a = s.mem.byteAt a))
    ∧ (Cleared s p 0x0700 cmd → arg cmd 8 1 = 0 → arg cmd 9 1 = 0 → here → (∀ c, Names cmd c → (s.core c).bist = false ∧ (s.core c).owner.isSome = true ∧ ((s.core c).cstate = .c0 → (s.core c).waking = false)) →
        ((∃ c, Names cmd c ∧ (s.core c).cstate ≠ .c0) → ∃ t, exec (.corePower p) s = .next t ∧ (t.port p).executing = some cmd ∧ t.mem = s.mem ∧ t.spire = s.spire ∧ t.edges = s.edges
          ∧ (∀ c, Names cmd c → t.core c = { s.core c with waking := decide ((s.core c).cstate ≠ .c0), rampAt := (t.core c).rampAt, pll := (t.core c).pll })
          ∧ (∀ c, ¬ Names cmd c → t.core c = { s.core c with rampAt := (t.core c).rampAt, pll := (t.core c).pll })
          ∧ ∃ m : BitVec 16, (t.port p).phase = .awaitWake m ∧ ∀ c : CoreId, m.getLsbD c = true ↔ Names cmd c ∧ (s.core c).cstate ≠ .c0)
        ∧ ((∀ c, Names cmd c → (s.core c).cstate = .c0) → ∃ t, exec (.corePower p) s = .next t ∧ Replied s t p cmd 0 [] ∧ t.cores = s.cores ∧ t.mem = s.mem))
    ∧ (∀ st c, Cleared s p 0x0700 cmd → arg cmd 8 1 = 0 → stateNamed cmd st → here → Names cmd c → (st ≠ .c4 ∧ (s.core c).owner = none) ∨ (st ≠ .c0 ∧ (s.core c).cstate ≠ .c4 ∧ ¬ Rests s c) →
        ∃ t, exec (.corePower p) s = .next t ∧ Fails s t p cmd 8)
    ∧ (∀ c, Cleared s p 0x0700 cmd → arg cmd 8 1 = 0 → Names cmd c → ¬ present s c → ∃ t, exec (.corePower p) s = .next t ∧ Fails s t p cmd 2)
    ∧ (Cleared s p 0x0700 cmd → arg cmd 8 1 = 1 → arg cmd 9 1 = 2 →
        (s.blf.partitions = [] → s.dstate = .up → ∃ t, exec (.corePower p) s = .next t ∧ (t.port p).executing = some cmd ∧ (t.port p).phase = .awaitD2 ∧ t.d2Pending = true ∧ t.dstate = .up ∧ t.cores = s.cores ∧ t.mem = s.mem)
        ∧ (s.blf.partitions ≠ [] → ∃ t, exec (.corePower p) s = .next t ∧ Fails s t p cmd 8))
    ∧ (Cleared s p 0x0700 cmd → arg cmd 8 1 = 1 → arg cmd 9 1 = 0 → s.blf.partitions ≠ [] → ∃ t, exec (.corePower p) s = .next t ∧ Fails s t p cmd 8)
    ∧ (Cleared s p 0x0700 cmd → arg cmd 8 1 = 1 → arg cmd 9 1 = 0 → s.blf.partitions = [] → s.dstate = .d2 → ∃ t, exec (.corePower p) s = .next t ∧ t.dstate = .up ∧ (t.port p).executing = some cmd ∧ (t.port p).phase = .awaitD0
        ∧ (∀ a, t.mem.byteAt a = 0) ∧ t.bronze.spirePll = true ∧ t.bronze.domePll = true ∧ (∀ c, t.core c = { s.core c with cnt := Vector.replicate 64 0 }) ∧ ∀ e : EdgeId, (t.edges[e]).state = (if s.fusedOff e then 9 else 1) ∧ (t.edges[e]).pll = !s.fusedOff e)
    ∧ (s.powered = true → (s.port p).resetting = false → (s.port p).executing = some cmd → (s.port p).phase = .awaitD0 → (∀ e : EdgeId, (s.edges[e]).state ∈ [(6 : BitVec 4), 8, 9]) →
        ∃ t, exec (.corePower p) s = .next t ∧ Replied s t p cmd 0 [] ∧ OnlyAnswered s t p)
    ∧ (Cleared s p 0x0701 cmd → here → s.fatal = false → ∃ t, exec (.coreReset p) s = .next t ∧ Replied s t p cmd 0 [] ∧ (∀ c, ¬ Names cmd c → t.core c = s.core c)
        ∧ (∀ c, Names cmd c → UnitsReset (t.core c) ∧ (t.core c).cstate = (s.core c).cstate ∧ (t.core c).owner = (s.core c).owner)
        ∧ (∀ c u e, Names cmd c → FirstOpen (s.core c) u e → (t.core c).seq.faultDesc.toNat = e.off % 2 ^ 23 ∧ ((∀ d, Names cmd d → d = c) → (lastRecord t).detail.toNat = e.off % 2 ^ 32))
        ∧ (∀ c a, Names cmd c → InGroups c a → t.mem.byteAt a = 0) ∧ (∀ a, (∀ c, Names cmd c → ¬ InGroups c a) → t.mem.byteAt a = s.mem.byteAt a)
        ∧ (∀ c, Names cmd c → (∀ d, Names cmd d → d = c) → ((s.core c).mov.q.queue ≠ [] ∨ (s.core c).vec.q.queue ≠ []) → (lastRecord t).code = 0x703 ∧ (lastRecord t).cls = .contained ∧ (lastRecord t).inst.toNat = c.val))
    ∧ (let n := arg cmd 8 1
       (Cleared s p 0x0702 cmd → here → n ≤ 36 → (∀ c, Names cmd c → n ≤ (s.core c).fmaxEff.toNat) → ∃ t, exec (.coreFmax p) s = .next t ∧ Replied s t p cmd 0 [] ∧ VoltDecided s t ∧ t.mem = s.mem
          ∧ (∀ c, Names cmd c → ∃ f : BitVec 6, t.core c = { s.core c with ceiling := BitVec.ofNat 6 n, freq := f } ∧ f.toNat = min n (s.core c).freq.toNat) ∧ ∀ c, ¬ Names cmd c → t.core c = s.core c)
       ∧ (∀ c, Cleared s p 0x0702 cmd → (36 < n ∨ (Names cmd c ∧ (s.core c).fmaxEff.toNat < n)) → ∃ t, exec (.coreFmax p) s = .next t ∧ Fails s t p cmd 2))
    ∧ (∀ c, Names cmd c → ¬ present s c → ∀ r ∈ [(0x0701, Instr.coreReset p), (0x0702, .coreFmax p)], Cleared s p r.1 cmd → ∃ t, exec r.2 s = .next t ∧ Fails s t p cmd 2)


/-! ## Faults, freezing and spares by command (09, 13, 14) -/

namespace Sys2Proof.Claims

open Sys2Proof.Machine

/-- The 32 bytes of a fault record (Table FLT-2). -/
def recordImage (r : FaultRec) : List Byte :=
  leBytes r.number.toNat 4 ++ leBytes (match r.cls with | .corrected => 0 | .deferred => 1 | .contained => 2 | .fatal => 3) 1 ++ leBytes r.count.toNat 1 ++ leBytes r.code.toNat 2
    ++ leBytes r.block.toNat 1 ++ leBytes r.inst.toNat 1 ++ leBytes r.pkey.toNat 2 ++ leBytes r.detail.toNat 4 ++ leBytes r.address.toNat 8 ++ leBytes r.time.toNat 8

/-- How many records the ring holds. -/
def heldRecords (s : State) : Nat := (s.blf.newest + 1 - s.blf.oldest).toNat

/-- A command's effect lay in the Belfry's records of faults, fences and mirrors alone. -/
def LogOnly (s t : State) (p : CtlPort) : Prop :=
  t = { s with blf := { (s.modPort p fun _ => t.port p).blf with oldest := t.blf.oldest, fatalHeld := t.blf.fatalHeld, mirrorOut := t.blf.mirrorOut } }

/-- A command names unit `u` in its unit mask (Table SYN-3). -/
def Units (cmd : BitVec 512) (u : UnitId) : Prop :=
  (arg cmd 10 1).testBit (match u with | .eng e => e.val | .vec => 4 | .mover => 5 | .seq => 6) = true

/-- A command names the other port, in byte 9. -/
def OtherNamed (p : CtlPort) (cmd : BitVec 512) : Prop := arg cmd 9 1 = if p = .A then 1 else 0

/-- A wait begun again now, with a TIMEOUT of its own or the default of now (R250). -/
def Again (s : State) (w : Wait) : Wait :=
  { w with began := s.now, elapsed := 0, expired := false, woken := true, timeout := if w.own then w.timeout else s.blf.waitDefault.toNat }

/-- A wait as UNFREEZE leaves it: afresh when it had expired (R251). -/
def Afresh (s : State) (w v : Wait) : Prop := v = if w.expired then Again s w else w

/-- The unit is frozen by a wait timeout (Table SYN-3). -/
def TimedOut (s : State) (c : CoreId) (u : UnitId) : Bool :=
  match s.frozen c u with
  | some f => f.cause == .waitTimeout || f.cause == .answerTimeout
  | none => false

/-- One of the waits of unit `u` (Table SYN-2): its header or descriptor wait, or a chain wait of a group of engine `u`, with the counter, threshold and value that Table SYN-3 gives for it. -/
inductive Waits (s : State) (c : CoreId) : UnitId → Wait → Nat → Nat → Nat → Prop
  | own (u : UnitId) (w : Wait) : ((s.core c).unitQ u).wait = some w →
      Waits s c u w w.counter.toNat w.thresh.toNat ((s.core c).cnt[Fin.ofNat 64 w.counter.toNat]).toNat
  | stage (e : EngId) (w : Wait) : ((s.core c).eng[e]).stageWait = some w →
      Waits s c (.eng e) w w.counter.toNat w.thresh.toNat ((s.core c).cnt[Fin.ofNat 64 w.counter.toNat]).toNat
  | chain (e : EngId) (g : GroupId) (w : Wait) : (s.group c e g).wait = some w →
      Waits s c (.eng e) w 0 16 ((List.range 16).filter fun i => (if w.kind = .chainRecv then (s.group c e g).arrived else (s.group c e g).accepted).getLsbD i).length

/-- The KIND of a wait (Table SYN-3). -/
def kindNum : WaitKind → Nat
  | .waitDesc => 0
  | .header => 1
  | .chainRecv => 2
  | .chainSend => 3

/-- The first word of a WAIT_GRAPH record (Table SYN-3). -/
def graphWord (c : CoreId) (u : UnitId) (frozen : Bool) (kind counter : Nat) : Nat :=
  c.val + 16 * (match u with | .eng e => e.val | .vec => 4 | .mover => 5 | .seq => 6) + (if frozen then 128 else 0) + 256 * kind + 65536 * counter

end Sys2Proof.Claims

/-- ERR_LOG_READ stores the records asked for and reports what the ring holds; ERR_CLEAR discards both areas' records up to the number it names; WAIT_GRAPH stores a record of every wait, of every outstanding entry that has waited 1 ms, and of the answer wait that froze a unit (R252, R255, R393). -/
def Obligations.FaultLogAndWaitsAreReported : Prop :=
  ∀ (s : State) (p : CtlPort) (cmd : BitVec 512), s.wf → heldRecords s ≤ 1024 →
    let ask : Word := BitVec.ofNat 32 (arg cmd 8 4)
    let off := (ask - s.blf.oldest).toNat
    let n := arg cmd 12 2
    let image := fun (first : Word) (i : Nat) => let k := first + BitVec.ofNat 32 i; recordImage (s.blf.logRing[Fin.ofNat 1024 k.toNat])
    let shows := fun (a : Nat) (first : Word) (k : Nat) => ∃ t, exec (.errLogRead p) s = .next t
      ∧ Wrote s t p cmd a ((List.range k).flatMap (image first)) (leBytes first.toNat 4 ++ leBytes k 4 ++ leBytes s.blf.oldest.toNat 4 ++ leBytes s.blf.newest.toNat 4)
    (∀ a, Cleared s p 0x0800 cmd → Bulk s cmd (32 * n) a → off < heldRecords s → shows a ask (min n (heldRecords s - off)))
    ∧ (∀ a, Cleared s p 0x0800 cmd → Bulk s cmd (32 * n) a → 0 < (s.blf.oldest - ask).toNat → (s.blf.oldest - ask).toNat ≤ 2 ^ 31 → shows a s.blf.oldest (min n (heldRecords s)))
    ∧ (Cleared s p 0x0800 cmd → arg cmd 60 4 < 32 * n → ∃ t, exec (.errLogRead p) s = .next t ∧ Fails s t p cmd 2)
    ∧ (Cleared s p 0x0801 cmd → off < heldRecords s → s.blf.fatalHeld ≤ 64 → ∃ t gone, exec (.errClear p) s = .next t ∧ Replied s t p cmd 0 [] ∧ LogOnly s t p ∧ t.blf.mirrorOut = s.blf.mirrorOut
        ∧ t.blf.oldest = ask + 1 ∧ gone ≤ s.blf.fatalHeld ∧ t.blf.fatalHeld = s.blf.fatalHeld - gone
        ∧ (let record := fun i : Nat => s.blf.fatalRing[Fin.ofNat 64 (s.blf.fatalStored - s.blf.fatalHeld + i)]
           (∀ i, i < gone → (ask - (record i).number).toNat < 2 ^ 31) ∧ (gone < s.blf.fatalHeld → 2 ^ 31 ≤ (ask - (record gone).number).toNat)))
    ∧ (∀ a, Cleared s p 0x0807 cmd → 1792 ≤ arg cmd 60 4 → Bulk s cmd (arg cmd 60 4) a → ∃ t n, exec (.waitGraph p) s = .next t ∧ Replied s t p cmd 0 (leBytes n 2) ∧ SameBytesBut s t a (16 * min n (arg cmd 60 4 / 16))
        ∧ t = { s with mem := t.mem, blf := (s.modPort p fun _ => t.port p).blf }
        ∧ (16 * n ≤ arg cmd 60 4 → (∀ c u w counter thresh value, Waits s c u w counter thresh value → ∃ j, j < n ∧ numberAt t (a + 16 * j) 4 = graphWord c u (TimedOut s c u) (kindNum w.kind) counter
              ∧ numberAt t (a + 16 * j + 4) 2 = thresh % 2 ^ 16 ∧ numberAt t (a + 16 * j + 6) 2 = value ∧ numberAt t (a + 16 * j + 8) 4 = w.desc % 2 ^ 32 ∧ numberAt t (a + 16 * j + 12) 4 = min (2 ^ 32 - 1) (s.now - w.began))
            ∧ (let answer := fun (c : CoreId) (u : UnitId) (desc began j : Nat) => j < n ∧ numberAt t (a + 16 * j) 4 = graphWord c u (TimedOut s c u) 4 0 ∧ numberAt t (a + 16 * j + 4) 4 = 1
                 ∧ numberAt t (a + 16 * j + 8) 4 = desc % 2 ^ 32 ∧ numberAt t (a + 16 * j + 12) 4 = min (2 ^ 32 - 1) (s.now - began)
               (∀ c u o, o ∈ (s.core c).outst → o.unit.toNat = unitNum u → 100000 ≤ s.now - o.began → ∃ l : List Nat, l.Nodup ∧ l.length = o.due ∧ ∀ j ∈ l, answer c u o.off o.began j)
               ∧ (∀ c u f x, s.frozen c u = some f → f.answer = some x → (∀ w k h v, ¬ Waits s c u w k h v) → ∃ j, answer c u x.1 x.2 j))))
    ∧ (Cleared s p 0x0807 cmd → arg cmd 60 4 < 1792 → ∃ t, exec (.waitGraph p) s = .next t ∧ Fails s t p cmd 2)

/-- FREEZE freezes units, which keep their queues, or the other port; UNFREEZE lets them go on, without what they refused and with their waits afresh, unless the die is fatal; no port freezes or unfreezes itself (R379 to R381, R399, R400). -/
def Obligations.FreezeAndUnfreezeFollowTheirTable : Prop :=
  ∀ (s : State) (p : CtlPort) (cmd : BitVec 512),
    let here := arg cmd 10 1 ≤ 127 ∧ ∀ c, Names cmd c → present s c
    (Cleared s p 0x0802 cmd → arg cmd 8 1 = 0 → here → ∃ t, exec (.freeze p) s = .next t ∧ Replied s t p cmd 0 [] ∧ t.mem = s.mem ∧ t.spire = s.spire ∧ t.edges = s.edges ∧ (∀ c, ¬ Names cmd c → t.core c = s.core c)
        ∧ (∀ c u, Names cmd c → Units cmd u → ∃ f, t.frozen c u = some f ∧ (∀ g, s.frozen c u = some g → f = g) ∧ (s.frozen c u = none → f = { cause := .command, discard := false, answer := none }))
        ∧ (∀ c u, Names cmd c → ¬ Units cmd u → t.frozen c u = s.frozen c u)
        ∧ (∀ c u, Names cmd c → ((t.core c).unitQ u).queue = ((s.core c).unitQ u).queue ∧ ((t.core c).unitQ u).active = ((s.core c).unitQ u).active ∧ ((t.core c).unitQ u).wait = ((s.core c).unitQ u).wait)
        ∧ (∀ c, Names cmd c → (∀ u, Units cmd u → s.frozen c u ≠ none) → (t.core c).seq.faultDesc = (s.core c).seq.faultDesc)
        ∧ (∀ c u e, Names cmd c → (∀ v, Units cmd v) → (∀ v, s.frozen c v = none) → FirstOpen (s.core c) u e → (t.core c).seq.faultDesc.toNat = e.off % 2 ^ 23)
        ∧ (∀ c, Names cmd c → (∀ d, Names cmd d → d = c) → (lastRecord t).code = 0x703 ∧ (lastRecord t).cls = .contained ∧ (lastRecord t).inst.toNat = c.val ∧ (lastRecord t).address.toNat = arg cmd 10 1))
    ∧ (Cleared s p 0x0802 cmd → arg cmd 8 1 = 1 → OtherNamed p cmd → ∃ t, exec (.freeze p) s = .next t ∧ Replied s t p cmd 0 [] ∧ FrozenFor s t (otherPort p) 4 ∧ t.mem = s.mem ∧ t.cores = s.cores)
    ∧ (Cleared s p 0x0803 cmd → arg cmd 8 1 = 0 → here → s.fatal = false → ∃ t, exec (.unfreeze p) s = .next t ∧ Replied s t p cmd 0 [] ∧ t.mem = s.mem ∧ (∀ c, ¬ Names cmd c → t.core c = s.core c)
        ∧ (∀ c u, Names cmd c → Units cmd u → t.frozen c u = none) ∧ (∀ c u, Names cmd c → ¬ Units cmd u → t.frozen c u = s.frozen c u)
        ∧ (∀ c u, Names cmd c → Units cmd u → s.frozen c u ≠ none → u ≠ .seq → ((t.core c).unitQ u).queue = ((s.core c).unitQ u).queue.filter fun e => e.taken != .refused)
        ∧ (∀ c u, Names cmd c → Units cmd u → s.frozen c u ≠ none → u = .vec ∨ u = .mover → ((t.core c).unitQ u).active = ((s.core c).unitQ u).active.filter (fun a => a.progress != .failed)
            ∧ ∀ w, ((s.core c).unitQ u).wait = some w → ∃ v, ((t.core c).unitQ u).wait = some v ∧ Afresh s w v)
        ∧ (∀ c (e : EngId) (g : GroupId) w, Names cmd c → Units cmd (.eng e) → s.frozen c (.eng e) ≠ none → (s.group c e g).state = .waitChain → (s.group c e g).arrived ≠ 0xFFFF → (s.group c e g).wait = some w →
            (t.group c e g).state = .waitChain ∧ (t.group c e g).wait = some (Again s w))
        ∧ (∀ c f w, Names cmd c → Units cmd .seq → s.frozen c .seq = some f → f.discard = false → (s.core c).seq.fencing = none → (s.core c).seq.wait = some w →
            (t.core c).seq.head = (s.core c).seq.head ∧ ∃ v, (t.core c).seq.wait = some v ∧ Afresh s w v))
    ∧ (Cleared s p 0x0803 cmd → arg cmd 8 1 = 0 → here → s.fatal = true → ∃ t, exec (.unfreeze p) s = .next t ∧ Fails s t p cmd 8)
    ∧ (let o := otherPort p
       Cleared s p 0x0803 cmd → arg cmd 8 1 = 1 → OtherNamed p cmd → (s.port o).frozen = true → ∃ t, exec (.unfreeze p) s = .next t ∧ Replied s t p cmd 0 [] ∧ BelfryOnly s t
        ∧ t.port o = { s.port o with frozen := false, waiting := (t.port o).waiting, evtLost := (t.port o).evtLost, lostSince := (t.port o).lostSince }
        ∧ Posted s t o 6 (leBytes (if o = .A then 0 else 1) 1 ++ leBytes 1 1 ++ leBytes (s.port o).cause.toNat 1))
    ∧ (∀ r ∈ [(0x0802, Instr.freeze p), (0x0803, .unfreeze p)], Cleared s p r.1 cmd →
        (arg cmd 8 1 = 0 ∧ (127 < arg cmd 10 1 ∨ ∃ c, Names cmd c ∧ ¬ present s c)) ∨ (arg cmd 8 1 = 1 ∧ ¬ OtherNamed p cmd) ∨ 1 < arg cmd 8 1 → ∃ t, exec r.2 s = .next t ∧ Fails s t p cmd 2)

/-- FENCE_DIE sets the die's bit and takes its edges OFF; MIRROR_CFG opens, records or clears a mirror; PROMOTE_SPARE makes the partition of an idle spare, admits its key and reads the mirror into Dome, answered with the bytes and their CRC-32, or TIMEOUT after 4 ms, as a CAL_WRITE is 2 s after it asked the store (R388, R406, R408, R410). -/
def Obligations.FencedDiesAreReplacedBySpares : Prop :=
  ∀ (s : State) (p : CtlPort) (cmd : BitVec 512), EdgesAgree s → s.wf →
    let d := arg cmd 8 1
    (Cleared s p 0x0804 cmd → d ≤ 63 → d ≠ s.dieId.toNat → ∃ t, exec (.fenceDie p) s = .next t ∧ Replied s t p cmd 0 [] ∧ t.mem = s.mem ∧ t.blf.fenced = s.blf.fenced ||| BitVec.ofNat 64 (2 ^ d)
        ∧ ∀ e : EdgeId, let names := (s.edges[e]).peer.getLsbD 11 = true ∧ field (s.edges[e]).peer.toNat 0 6 = d ∧ (s.edges[e]).state ≠ 9
          (names → (t.edges[e]).state = 9 ∧ (t.edges[e]).on = 0 ∧ (t.edges[e]).pll = false) ∧ (¬ names → (∀ f : EdgeId, (s.edges[f]).holding = []) → t.edges[e] = s.edges[e])
            ∧ (names → (∀ f : EdgeId, f ≠ e → (s.edges[f]).peer.getLsbD 11 = false) → (s.edges[e]).holding = [] → (lastRecord t).code = 0x304 ∧ (lastRecord t).cls = .corrected ∧ (lastRecord t).detail = 7))
    ∧ (Cleared s p 0x0804 cmd → d = s.dieId.toNat → ∃ t, exec (.fenceDie p) s = .next t ∧ Fails s t p cmd 2)
    ∧ (let peer := arg cmd 9 1
       let win := arg cmd 10 1
       let size := arg cmd 12 4
       let base := arg cmd 16 5
       let i : Fin 256 := Fin.ofNat 256 win
       let sized := peer ≤ 63 ∧ size ≠ 0 ∧ size % 64 = 0 ∧ size ≤ 0x1000000
       let hosts := (s.blf.mirrorIn :: s.blf.hosted).filter fun m => m.valid
       let fits := sized ∧ base % 64 = 0 ∧ base + size ≤ 0x04000000
       let ofOne := fun key : BitVec 16 => ∀ j : Fin 8, base < (j.val + 1) * 0x800000 → j.val * 0x800000 < base + size → s.blf.sliceOwner[j] = some key
       (Cleared s p 0x0806 cmd → d = 0 → ∃ t, exec (.mirrorCfg p) s = .next t ∧ Replied s t p cmd 0 [] ∧ t.blf.mirrorIn = Mirror.reset ∧ t.blf.hosted = [] ∧ t.blf.mirrorOut = Mirror.reset ∧ t.mem = s.mem ∧ t.cores = s.cores
          ∧ ∀ j : Fin 256, t.spire.windows[j] = { s.spire.windows[j] with valid := (s.spire.windows[j]).valid && !hosts.any fun m => decide (j.val = m.window.toNat) })
       ∧ (Cleared s p 0x0806 cmd → d = 2 → sized → ∃ t, exec (.mirrorCfg p) s = .next t ∧ Replied s t p cmd 0 [] ∧ t.blf.mirrorIn = s.blf.mirrorIn ∧ t.blf.hosted = s.blf.hosted ∧ t.spire = s.spire ∧ t.mem = s.mem ∧ t.cores = s.cores
          ∧ t.blf.mirrorOut = { peer := BitVec.ofNat 6 peer, window := BitVec.ofNat 8 win, valid := true, base := 0, size := BitVec.ofNat 32 size })
       ∧ (∀ (key : BitVec 16) (c : CoreId), Cleared s p 0x0806 cmd → d = 1 → fits → ofOne key → (s.core c).owner = some key → (∀ e : CoreId, e < c → (s.core e).owner ≠ some key) →
          (∀ m ∈ hosts, base + size ≤ m.base.toNat ∨ m.base.toNat + m.size.toNat ≤ base) → (s.spire.windows[i]).valid = false → ∃ t, exec (.mirrorCfg p) s = .next t ∧ Replied s t p cmd 0 []
            ∧ t.blf.mirrorIn = { peer := BitVec.ofNat 6 peer, window := BitVec.ofNat 8 win, valid := true, base := BitVec.ofNat 32 base, size := BitVec.ofNat 32 size } ∧ t.blf.mirrorOut = s.blf.mirrorOut ∧ t.blf.hosted = s.blf.hosted ++ [t.blf.mirrorIn]
            ∧ (∀ j : Fin 256, t.spire.windows[j] = if j = i then { Window.reset with base := BitVec.ofNat 40 base, len64 := BitVec.ofNat 26 (size / 64 - 1), pkey := key, owner := BitVec.ofNat 4 c.val, valid := true, rd := true, wr := true } else s.spire.windows[j])
            ∧ t.mem = s.mem ∧ t.cores = s.cores)
       ∧ (Cleared s p 0x0806 cmd → d = 1 → fits → ((∀ key, ¬ ofOne key) ∨ (∀ (key : BitVec 16) (c : CoreId), ofOne key → (s.core c).owner ≠ some key) ∨ ∃ m ∈ hosts, base < m.base.toNat + m.size.toNat ∧ m.base.toNat < base + size) →
          ∃ t, exec (.mirrorCfg p) s = .next t ∧ Replied s t p cmd 8 [] ∧ t.blf.mirrorIn = s.blf.mirrorIn ∧ t.blf.hosted = s.blf.hosted ∧ t.spire = s.spire ∧ t.mem = s.mem ∧ t.cores = s.cores)
       ∧ (Cleared s p 0x0806 cmd → (1 ≤ d ∧ ¬ sized) ∨ 2 < d → ∃ t, exec (.mirrorCfg p) s = .next t ∧ Fails s t p cmd 2))
    ∧ (let buddy := arg cmd 9 1
       let n := arg cmd 12 4
       let key : BitVec 16 := BitVec.ofNat 16 (arg cmd 16 2)
       let asked := Cleared s p 0x0805 cmd ∧ d ≤ 63 ∧ buddy ≤ 63 ∧ key ≠ 0 ∧ n ≤ 0x1000000
       let clear := s.blf.clears = [] ∧ s.blf.slicesClearing = 0 ∧ ∀ c, (s.core c).clearing = false
       let roomy := ∀ i : Fin 6, ∃ j : Fin 8, ((s.spire.keys[i])[j]).getLsbD 16 = false
       let joins := fun i : Fin 6 => i.val = 4 ∨ (i.val < 4 ∧ ((s.edges[Fin.ofNat 4 i.val]).state = 6 ∨ (s.edges[Fin.ofNat 4 i.val]).state = 7 ∨ (s.edges[Fin.ofNat 4 i.val]).retraining = true))
       (asked → s.role = 2 → s.blf.partitions = [] → roomy → clear → s.dstate = .up → n ≠ 0 → (∀ c, (s.core c).owner = none) → ∃ t w, exec (.promoteSpare p) s = .next t ∧ (t.port p).executing = some cmd ∧ (t.port p).phase = .awaitBuddy ∧ t.mem = s.mem
          ∧ t.blf.partitions = [{ pkey := key, amode := true, port := p }] ∧ (∀ j : Fin 8, t.blf.sliceOwner[j] = some key)
          ∧ (∀ c, present s c → (t.core c).owner = some key ∧ (t.core c).seq.enable = false ∧ ((s.core c).cstate = .c4 → (t.core c).waking = true))
          ∧ (∀ c, ¬ present s c → t.core c = { s.core c with rampAt := (t.core c).rampAt, pll := (t.core c).pll })
          ∧ (∀ i : Fin 6, joins i → ∃ j : Fin 8, ((s.spire.keys[i])[j]).getLsbD 16 = false ∧ ∀ k : Fin 8, (t.spire.keys[i])[k] = if k = j then BitVec.ofNat 32 (key.toNat + 0x10000) else (s.spire.keys[i])[k])
          ∧ (∀ i : Fin 6, ¬ joins i → t.spire.keys[i] = s.spire.keys[i])
          ∧ t.blf.campWork = [w] ∧ w.kind = .mirror key ∧ field w.dest.toNat 4 6 = buddy ∧ w.window.toNat = arg cmd 10 1 ∧ w.offset = 0 ∧ w.loc = 0 ∧ n ≤ w.rowBytes ∧ w.rowBytes < n + 64 ∧ w.rowBytes % 64 = 0 ∧ w.rows = 1 ∧ w.pos = 0)
       ∧ (asked → s.role = 2 → s.blf.partitions = [] → roomy → clear → s.dstate = .up → n = 0 → ∃ t, exec (.promoteSpare p) s = .next t ∧ Replied s t p cmd 0 (leBytes 0 4 ++ leBytes (crc32 []).toNat 4)
          ∧ t.blf.partitions = [{ pkey := key, amode := true, port := p }])
       ∧ (asked → (s.role ≠ 2 ∨ s.blf.partitions ≠ [] ∨ ¬ roomy) → ∃ t, exec (.promoteSpare p) s = .next t ∧ Replied s t p cmd 8 [] ∧ t.blf.partitions = s.blf.partitions ∧ t.spire = s.spire ∧ t.cores = s.cores ∧ t.mem = s.mem)
       ∧ (∀ (k : Packet) r o, s.powered = true → s.dstate = .up → s.spire.localRsp = [] → s.spire.mgmtQ = k :: r → k.op = 4 → k.destUnit = 8 → o ∈ s.blf.campOut → o.unit = 8 → o.pkt.tag = k.tag → o.due = 1 →
          (∀ x ∈ s.blf.campOut, x.due ≠ 0 ∧ (x.unit = 8 → x.pkt.tag = k.tag → x = o)) → (s.port p).phase = .awaitBuddy → (s.port p).executing = some cmd → (s.port p).resetting = false → (s.port (otherPort p)).phase ≠ .awaitBuddy →
          Undamaged s o.loc k.payload.length → k.poisoned = false →
          ∃ t, exec .readRsp s = .next t ∧ (∀ i, i < k.payload.length → o.loc + i < n → t.mem.byteAt (o.loc + i) = k.payload.getD i 0) ∧ SameBytesBut s t o.loc (min k.payload.length (n - o.loc)) ∧ (∀ x, x ∈ t.blf.campOut ↔ x ∈ s.blf.campOut ∧ x ≠ o) ∧ t.cores = s.cores
            ∧ ((s.port p).progress + k.payload.length < n → (t.port p) = { s.port p with progress := (s.port p).progress + k.payload.length })
            ∧ (n ≤ (s.port p).progress + k.payload.length → Replied s t p cmd 0 (leBytes n 4 ++ leBytes (crc32 ((List.range n).map fun i => t.mem.byteAt i)).toNat 4))))
    ∧ (∀ ph, s.powered = true → (s.port p).executing = some cmd → (s.port p).phase = ph → (s.port p).resetting = false → ph = .awaitBuddy ∨ ph = .awaitStore →
        ∃ t, exec (.commandBoundExpiry p) s = .next t ∧ Replied s t p cmd 5 [] ∧ At s t ((s.port p).cmdAt + if ph = .awaitBuddy then 400000 else 200000000) ∧ t.mem = s.mem ∧ t.spire = s.spire
          ∧ t.blf.partitions = s.blf.partitions ∧ t.blf.cal = s.blf.cal ∧ (ph = .awaitStore → t.blf.storeAsk = none) ∧ (ph = .awaitBuddy → t.blf.campWork = [] ∧ t.blf.campOut = []))


/-! ## Calibration, firmware and scrubbing (08, 12, 13, 15) -/

namespace Sys2Proof.Claims

open Sys2Proof.Machine

/-- The `n` bytes of a list from byte `i`. -/
def cut (bs : List Byte) (i n : Nat) : List Byte := (bs.drop i).take n

/-- A calibration record that CAL_WRITE takes: magic, version, CRC, and the two ranges of Table PWR-9 (R356, R357). -/
def RecordGood (bs : List Byte) : Prop :=
  4096 ≤ bs.length ∧ numIn bs 0 4 = 0x314C4143 ∧ numIn bs 4 2 = 1 ∧ numIn bs 0xFFC 4 = (crc32 (cut bs 0 0xFFC)).toNat
    ∧ (∀ i, i < 64 → 5 ≤ numIn bs (0xB0 + 2 * i) 2 ∧ numIn bs (0xB0 + 2 * i) 2 ≤ 150)
    ∧ ∀ n i, n < 16 → i < 37 → 550 ≤ numIn bs (0x140 + 80 * n + 2 * i) 2 ∧ numIn bs (0x140 + 80 * n + 2 * i) 2 ≤ 850

/-- KEY_HASH0 to KEY_HASH11 of the fuse shadow (Table PAR-9). -/
def keyHash (s : State) : Nat := beNat ((List.range 12).flatMap fun i => leBytes (s.blf.shadow[Fin.ofNat 256 (8 + i)]).toNat 4)

/-- R420: the four conditions under which an image is accepted. -/
structure Authentic (s : State) (im : List Byte) : Prop where
  fits : 256 ≤ im.length ∧ im.length ≤ 0x60000 ∧ 256 + numIn im 12 4 ≤ im.length ∧ numIn im 208 4 + numIn im 212 4 ≤ numIn im 12 4
  magic : numIn im 0 4 = 0x4E55414F
  rollback : ((List.range 32).filter fun i => (s.blf.shadow[3]).getLsbD i).length ≤ numIn im 8 4
  key : sha384 (cut im 16 96) = keyHash s
  signed : ecdsaOk (beNat (cut im 16 48)) (beNat (cut im 64 48)) (sha384 (cut im 0 112 ++ cut im 208 48 ++ cut im 256 (numIn im 12 4))) (beNat (cut im 112 48)) (beNat (cut im 160 48)) = true

/-- An accepted image runs: Onaune starts from it (R420, R426). -/
def RunsImage (t : State) (im : List Byte) : Prop :=
  t.blf.image = im ∧ t.blf.accepted = true ∧ t.blf.stage = 4 ∧ t.blf.fwVer.toNat = numIn im 4 4 ∧ t.blf.secVer = BitVec.ofNat 6 (numIn im 8 4)

/-- Scrubber `u` is enabled and its memory is there and on (R16, R237). -/
def ScrubOn (s : State) (u : Fin 24) : Prop :=
  s.blf.scrubEn.getLsbD u = true ∧ (u.val < 16 → present s (Fin.ofNat 16 u.val) ∧ (s.core (Fin.ofNat 16 u.val)).cstate ≠ .c4) ∧ (16 ≤ u.val → s.dstate ≠ .d2)

/-- The address of a scrubber's line, and how many lines it has (Table DIE-5). -/
def scrubAddr (u : Fin 24) (line : Nat) : Nat := (if u.val < 16 then 0x0100000000 + 0x01000000 * u.val else 0x800000 * (u.val - 16)) + 64 * line
/-- The lines of a scrubber's memory. -/
def scrubLines (u : Fin 24) : Nat := if u.val < 16 then 98304 else 131072

/-- No record of this code and source is under a rate limit. -/
def Unlimited (s : State) (code block inst : Nat) : Prop := ∀ x ∈ s.blf.limitedAt, ¬ (x.1.toNat = code ∧ x.2.1.toNat = block ∧ x.2.2.1.toNat = inst)

end Sys2Proof.Claims

/-- CAL_READ and CAL_WRITE read and replace the working copy, a bad record being refused; a PERSIST asks the image store to keep the record, and STORE_CONFIRM answers it; FW_STAGE stages an image and FW_ACTIVATE runs an authentic one or is DENIED with its port frozen and AUTH_FAIL set (R357, R388, R389, R420). -/
def Obligations.CalibrationAndFirmwareAreReplaced : Prop :=
  ∀ (s : State) (p : CtlPort) (cmd : BitVec 512), s.wf →
    let kept := s.blf.cal ++ List.replicate (4096 - s.blf.cal.length) 0
    let n := arg cmd 60 4
    (∀ a, Cleared s p 0x0900 cmd → Bulk s cmd 4096 a → ∃ t, exec (.calRead p) s = .next t ∧ Wrote s t p cmd a kept (leBytes (numIn s.blf.cal 4092 4) 4 ++ leBytes (if s.bronze.calInvalid then 1 else 0) 1))
    ∧ (∀ r ∈ [(0x0900, Instr.calRead p), (0x0901, .calWrite p)], Cleared s p r.1 cmd → n < 4096 → ∃ t, exec r.2 s = .next t ∧ Fails s t p cmd 2)
    ∧ (∀ a bytes, Cleared s p 0x0901 cmd → Fetches s cmd a 4096 bytes →
        (RecordGood bytes → ∃ t, exec (.calWrite p) s = .next t ∧ t = { s with bronze := { s.bronze with calInvalid := false }, blf := t.blf } ∧ t.blf.cal = bytes
          ∧ (slotFlags cmd % 2 = 0 → Replied s t p cmd 0 [] ∧ t.blf.storeAsk = s.blf.storeAsk)
          ∧ (slotFlags cmd % 2 = 1 → (t.port p).executing = some cmd ∧ (t.port p).phase = .awaitStore ∧ t.blf.storeAsk = some bytes)
          ∧ Posted s t (otherPort p) 0xB (leBytes 0 4 ++ leBytes (numIn bytes 0xFFC 4) 4))
        ∧ (¬ RecordGood bytes → ∃ t, exec (.calWrite p) s = .next t ∧ Fails s t p cmd 2))
    ∧ (s.powered = true → (s.port p).executing = some cmd → (s.port p).phase = .awaitStore → (s.port p).resetting = false → (s.port (otherPort p)).phase ≠ .awaitStore →
        ∃ t, exec .storeConfirm s = .next t ∧ Replied s t p cmd 0 [] ∧ t = { s with blf := { (s.modPort p fun _ => t.port p).blf with storeAsk := none } })
    ∧ (∀ a bytes, Cleared s p 0x0A00 cmd → 1 ≤ n → n ≤ 0x60000 → Fetches s cmd a n bytes → ∃ t, exec (.fwStage p) s = .next t ∧ Replied s t p cmd 0 [] ∧ t = { s with blf := t.blf } ∧ t.blf.staged = bytes ∧ t.blf.image = s.blf.image)
    ∧ (Cleared s p 0x0A00 cmd → n = 0 ∨ 0x60000 < n → ∃ t, exec (.fwStage p) s = .next t ∧ Fails s t p cmd 2)
    ∧ (let im := s.blf.staged
       (Cleared s p 0x0A01 cmd → im = [] → ∃ t, exec (.fwActivate p) s = .next t ∧ Fails s t p cmd 4)
       ∧ (Cleared s p 0x0A01 cmd → Authentic s im → ∃ t, exec (.fwActivate p) s = .next t ∧ Replied s t p cmd 0 [] ∧ BelfryOnly s t ∧ RunsImage t im ∧ t.blf.activation = true ∧ t.blf.sems = s.blf.sems)
       ∧ (Cleared s p 0x0A01 cmd → im ≠ [] → ¬ Authentic s im → ∃ t, exec (.fwActivate p) s = .next t ∧ Replied s t p cmd 3 [] ∧ FrozenFor s t p 3 ∧ t.blf.authFail = true ∧ BelfryOnly s t ∧ t.blf.image = s.blf.image ∧ t.blf.stage = s.blf.stage
          ∧ (lastRecord t).code = 0x702 ∧ (lastRecord t).cls = .contained ∧ (lastRecord t).detail.toNat = numIn im 8 4))

/-- SCRUB_CFG and SCRUB_STATUS set and show the scrubbers; SCRUB_LINE reads the next line, corrects or poisons its damaged words and ends the pass at the last; SCRUB_PERIOD_END starts the next pass or sets LAG (R235 to R240). -/
def Obligations.ScrubbersReadEveryLine : Prop :=
  ∀ (s : State) (p : CtlPort) (cmd : BitVec 512) (u : Fin 24), s.wf →
    let b := s.blf
    let period := arg cmd 12 2
    let pos := (b.scrubPos[u]).toNat
    let runs := s.powered = true ∧ ScrubOn s u ∧ b.scrubRun.getLsbD u = true
    let inst := if u.val < 16 then u.val else u.val - 16
    let block := if u.val < 16 then 8 else 10
    (Cleared s p 0x0B00 cmd → 10 ≤ period → period ≤ 60000 → ∃ t, exec (.scrubCfg p) s = .next t ∧ Replied s t p cmd 0 []
        ∧ t = { s with blf := { (s.modPort p fun _ => t.port p).blf with scrubEn := t.blf.scrubEn, scrubPeriod := t.blf.scrubPeriod } }
        ∧ ∀ v : Fin 24, let named := (arg cmd 8 3).testBit v.val = true
          (named → t.blf.scrubEn.getLsbD v = (arg cmd 11 1).testBit 0 ∧ (t.blf.scrubPeriod[v]).toNat = period) ∧ (¬ named → t.blf.scrubEn.getLsbD v = b.scrubEn.getLsbD v ∧ t.blf.scrubPeriod[v] = b.scrubPeriod[v]))
    ∧ (Cleared s p 0x0B00 cmd → period < 10 ∨ 60000 < period → ∃ t, exec (.scrubCfg p) s = .next t ∧ Fails s t p cmd 2)
    ∧ (∀ idle : Nat, Cleared s p 0x0B01 cmd → arg cmd 8 1 = u.val → (ScrubOn s u → idle = 0) → (¬ ScrubOn s u → idle = 1) → ∃ t, exec (.scrubStatus p) s = .next t
        ∧ Replied s t p cmd 0 (leBytes ((if b.scrubEn.getLsbD u then 1 else 0) + 0x10000 * (b.scrubPeriod[u]).toNat) 4 ++ leBytes (pos + 0x20000 * (if b.scrubLag.getLsbD u then 1 else 0) + 0x40000 * idle) 4
            ++ leBytes (b.eccCorr[u]).toNat 4 ++ leBytes (b.eccUncorr[u]).toNat 4)
        ∧ t = { s with blf := { (s.modPort p fun _ => t.port p).blf with eccCorr := t.blf.eccCorr, eccUncorr := t.blf.eccUncorr } }
        ∧ ∀ v : Fin 24, t.blf.eccCorr[v] = (if v = u then 0 else b.eccCorr[v]) ∧ t.blf.eccUncorr[v] = if v = u then 0 else b.eccUncorr[v])
    ∧ (Cleared s p 0x0B01 cmd → 23 < arg cmd 8 1 → ∃ t, exec (.scrubStatus p) s = .next t ∧ Fails s t p cmd 2)
    ∧ (runs → (∀ x ∈ s.mem.upsets, x.1 < scrubAddr u pos / 8 ∨ scrubAddr u pos / 8 + 8 ≤ x.1) → ∃ t, exec (.scrubLine u []) s = .next t ∧ t.mem = s.mem ∧ t.cores = s.cores ∧ t.blf.newest = b.newest
        ∧ (t.blf.scrubPos[u]).toNat = (if pos + 1 < scrubLines u then pos + 1 else 0)
        ∧ (pos + 1 < scrubLines u → t.blf.scrubRun = b.scrubRun)
        ∧ (scrubLines u ≤ pos + 1 → (b.scrubOver.getLsbD u = false → t.blf.scrubRun.getLsbD u = false ∧ t.blf.scrubLag.getLsbD u = false)
            ∧ (b.scrubOver.getLsbD u = true → t.blf.scrubRun.getLsbD u = true ∧ t.blf.scrubNow[u] = b.scrubPeriod[u] ∧ t.blf.scrubAt[u] = s.now)))
    ∧ (∀ w double, runs → s.mem.upsets = [(w, double)] → scrubAddr u pos / 8 ≤ w → w < scrubAddr u pos / 8 + 8 → pos < scrubLines u → ∃ t, exec (.scrubLine u []) s = .next t ∧ SameBytes s t ∧ t.mem.upsets = [] ∧ t.cores = s.cores
        ∧ (∀ v, t.mem.marked v = if v = w ∧ double = true then true else s.mem.marked v)
        ∧ (double = true → t.blf.eccUncorr[u] = satAdd b.eccUncorr[u] 1 ∧ t.blf.eccCorr = b.eccCorr ∧ (lastRecord t).code = 0x102 ∧ (lastRecord t).cls = .deferred ∧ (lastRecord t).block.toNat = block
            ∧ (lastRecord t).inst.toNat = inst ∧ (lastRecord t).detail.toNat = pos ∧ (lastRecord t).address.toNat = 8 * w)
        ∧ (double = false → t.blf.eccCorr[u] = satAdd b.eccCorr[u] 1 ∧ t.blf.eccUncorr = b.eccUncorr
            ∧ (Unlimited s 0x101 block inst → (lastRecord t).code = 0x101 ∧ (lastRecord t).cls = .corrected ∧ (lastRecord t).block.toNat = block ∧ (lastRecord t).inst.toNat = inst ∧ (lastRecord t).address.toNat = 8 * w)
            ∧ (∀ x ∈ b.limitedAt, (∀ y ∈ b.limitedAt, y.1 = x.1 → y.2.1 = x.2.1 → y.2.2.1 = x.2.2.1 → y = x) → x.1.toNat = 0x101 → x.2.1.toNat = block → x.2.2.1.toNat = inst → s.now < x.2.2.2 + 100000 → t.blf.newest = b.newest)))
    ∧ (∀ (x : Upset) rest, runs → (∃ r, region x.addr = r ∧ ((∃ d, r = .dome d) ∨ (∃ c, r = .cupola c) ∨ ∃ c, r = .lantern c)) → ∃ l, exec (.scrubLine u (x :: rest)) s = exec (.scrubLine u rest) { s with mem := { s.mem with upsets := l } }
        ∧ (∀ y, y.1 ≠ x.addr / 8 → (y ∈ l ↔ y ∈ s.mem.upsets)) ∧ ((x.addr / 8, true) ∈ l ↔ x.double = true ∨ ∃ d, (x.addr / 8, d) ∈ s.mem.upsets) ∧ ∃ d, (x.addr / 8, d) ∈ l)
    ∧ (s.powered = true → ScrubOn s u → b.scrubOver.getLsbD u = false → ∃ t, exec (.scrubPeriodEnd u) s = .next t ∧ At s t (b.scrubAt[u] + 100000 * (b.scrubNow[u]).toNat) ∧ t.mem = s.mem ∧ t.blf.scrubPos = b.scrubPos
        ∧ (b.scrubRun.getLsbD u = true → t.blf.scrubLag.getLsbD u = true ∧ t.blf.scrubRun = b.scrubRun)
        ∧ (b.scrubRun.getLsbD u = false → t.blf.scrubRun.getLsbD u = true ∧ t.blf.scrubNow[u] = b.scrubPeriod[u] ∧ t.blf.scrubAt[u] = t.now ∧ t.blf.scrubLag = b.scrubLag))


/-! ## Time, the sideband and die warm reset (12, 13, 15) -/

namespace Sys2Proof.Claims

open Sys2Proof.Machine

/-- A compute neighbour answers on this edge's sideband. -/
def SyncEdge (s : State) (e : EdgeId) : Prop := s.attach e = 1 ∧ (s.edges[e]).state.toNat ∉ [0, 1, 8, 9]

/-- One more TIME_SYNC marker has been taken: the third clears UNSYNC (R328). -/
def MarkerTaken (s t : State) : Prop :=
  t.blf.markers = min 3 (s.blf.markers + 1) ∧ t.blf.unsync = (s.blf.unsync && decide (s.blf.markers + 1 < 3)) ∧ t.blf.lastMarker = t.now

/-- `x` is half of `n`, rounded either way. -/
def Half (x : Int) (n : Nat) : Prop := 2 * x = n ∨ 2 * x = n + 1 ∨ 2 * x = (n : Int) - 1

/-- The port's ring has room for `n` more events. -/
def RoomFor (s : State) (p : CtlPort) (n : Nat) : Prop :=
  (s.port p).bind.getLsbD 8 = true ∧ ((s.port p).rspTail - (s.port p).rspHead).toNat + (s.port p).waiting.length + (if (s.port p).lostSince = 0 then 0 else 1) + n ≤ 31

/-- The newest of at most `n` new events for port `p` has this code and payload (R371, R390). -/
def Told (s t : State) (p : CtlPort) (n code : Nat) (data : List Byte) : Prop :=
  RoomFor s p n → ∃ l w, (t.port p).waiting = (s.port p).waiting ++ l ++ [w] ∧ w.event = true ∧ slotIs w.bits 0 0 1 code 0 data

/-- The first 56 bytes of the sideband's index map (Table ONA-14). -/
def sideMap (s : State) : List Byte :=
  leBytes s.dieId.toNat 1 ++ leBytes (s.siteX + 8 * s.siteY) 1 ++ leBytes s.role 1 ++ leBytes 0xB0 1 ++ leBytes (s.blf.shadow[4]).toNat 4
    ++ s.bronze.telemetry ++ List.replicate (32 - s.bronze.telemetry.length) 0 ++ leBytes (s.peek 0x0300040000) 4
    ++ leBytes (s.peek 0x0300000C88) 2 ++ leBytes (s.peek 0x0300001C88) 2
    ++ leBytes (if s.blf.newest = 0xFFFFFFFF then 0 else (lastRecord s).code.toNat) 2 ++ leBytes s.blf.fatalHeld 2 ++ leBytes (s.peek 0x0300040024) 4

/-- A die warm reset: cores reset and assigned ones in C0, ports idle, the rest of Table BOT-4 kept, the ROM authenticating (R423, R425, R426). -/
structure Warm (s t : State) (thaw : Bool) : Prop where
  cores : ∀ c, (s.core c).present = true → UnitsReset (t.core c) ∧ (t.core c).owner = (s.core c).owner ∧ (t.core c).short = false ∧ (t.core c).fmaxEff = (s.core c).fmaxEff
    ∧ (t.core c).cstate = (if (s.core c).owner.isSome then .c0 else .c4) ∧ (t.core c).pll = (s.core c).owner.isSome ∧ (t.core c).waking = false
  stops : ∀ c u e, (s.core c).present = true → FirstOpen (s.core c) u e → (t.core c).seq.faultDesc.toNat = e.off % 2 ^ 23
  groups : ∀ c a, (s.core c).present = true → InGroups c a → t.mem.byteAt a = 0
  memory : ∀ a, (∀ c, ¬ InGroups c a) → (∀ c, (s.core c).owner.isSome = true → (s.core c).cstate = .c4 → a < coreBase c ∨ coreBase c + 0x1000000 ≤ a) → t.mem.byteAt a = s.mem.byteAt a
  fabric : t.spire = s.spire ∧ t.edges = s.edges
  ports : ∀ p, (t.port p).executing = none ∧ (t.port p).cmdSlots = (s.port p).cmdSlots ∧ (t.port p).rspSlots = (s.port p).rspSlots ∧ (t.port p).cmdHead = (s.port p).cmdHead ∧ (t.port p).cmdTail = (s.port p).cmdTail
    ∧ (t.port p).rspTail = (s.port p).rspTail ∧ (t.port p).bind = (s.port p).bind ∧ (t.port p).frozen = ((s.port p).frozen && !thaw) ∧ (t.port p).evtLost = 0
  registers : t.blf.waitDefault = 0x01000000 ∧ t.blf.mgtReject = 0 ∧ t.bronze.alertCount = 0 ∧ t.bronze.droopCount = 0 ∧ t.bronze.peakCount = 0
    ∧ ∀ u : Fin 24, t.blf.scrubEn.getLsbD u = true ∧ (t.blf.scrubPeriod[u]).toNat = (if u.val < 16 then 1000 else 4000) ∧ t.blf.eccCorr[u] = 0 ∧ t.blf.eccUncorr[u] = 0
  kept : t.blf.sems = s.blf.sems ∧ t.blf.partitions = s.blf.partitions ∧ t.blf.sliceOwner = s.blf.sliceOwner ∧ t.blf.shadow = s.blf.shadow ∧ t.blf.fenced = s.blf.fenced
    ∧ t.blf.fatalHeld = s.blf.fatalHeld ∧ t.blf.cal = s.blf.cal ∧ t.blf.image = s.blf.image ∧ t.blf.wdogTimeout = s.blf.wdogTimeout ∧ t.bronze.energyTotal = s.bronze.energyTotal
    ∧ t.bronze.energyBallast = s.bronze.energyBallast ∧ t.bronze.target = s.bronze.target ∧ t.bronze.effective = s.bronze.effective
  stage : t.blf.stage = 3 ∧ t.blf.warm = true ∧ t.blf.fetch = none ∧ t.blf.storeAsk = none ∧ t.d2Pending = false ∧ t.dstate = s.dstate
  voltage : VoltDecided s t

end Sys2Proof.Claims

/-- TIME_SYNC slews time to a marker corrected by half the round trip and forwards it; TIME_SYNC_SEND sends the root's each 1 ms; UNSYNC follows 10 ms without one (R328). -/
def Sys2Proof.Claims.MarkersAlignTheTime : Prop :=
  ∀ (s : State) (e : EdgeId), s.powered = true →
    (∀ stamp rt, s.blf.root = false → SyncEdge s e → ∃ t x, exec (.timeSync e stamp rt) s = .next t ∧ BelfryOnly s { t with free := s.free } ∧ Half x rt ∧ MarkerTaken s t ∧ t.now = s.now ∧ t.blf.time = s.blf.time
        ∧ t.blf.slew = stamp + x - s.blf.time.toNat ∧ ∀ f v, (f, v) ∈ t.blf.marksOut ↔ f ≠ e ∧ SyncEdge s f ∧ v = BitVec.ofInt 64 (stamp + x))
    ∧ (s.blf.root = true → ∃ t, exec .timeSyncSend s = .next t ∧ At s t ((s.blf.syncAt / 100000 + 1) * 100000) ∧ MarkerTaken s t ∧ t.mem = s.mem ∧ t.blf.syncAt = t.now
        ∧ ∀ f v, (f, v) ∈ t.blf.marksOut ↔ SyncEdge s f ∧ v = t.blf.time)
    ∧ (s.blf.root = false → ∃ t, exec .unsync s = .next t ∧ At s t (s.blf.lastMarker + 1000000) ∧ t.blf.unsync = true ∧ t.blf.markers = 0 ∧ t.mem = s.mem)

/-- I3C writes set the index, and a command byte with its complement at index 0x40 throttles or halts all; reads return the index map and change no register; ENTDAA gives the Provisioned ID (R383, R384). -/
def Sys2Proof.Claims.SidebandServesItsIndexMap : Prop :=
  ∀ (s : State), s.powered = true →
    (∀ i : Byte, i ≠ 0x40 → ∀ r, exec (.i3cPrivateWrite (i :: r)) s = .next (s.modBlf fun b => { b with i3cIndex := i }))
    ∧ (let at40 := s.modBlf fun b => { b with i3cIndex := 0x40 }
       exec (.i3cPrivateWrite [0x40, 0xA1, 0x5E]) s = exec .throttleAll at40 ∧ exec (.i3cPrivateWrite [0x40, 0xA2, 0x5D]) s = exec .haltAll at40
        ∧ ∀ r, r ≠ [0xA1, 0x5E] → r ≠ [0xA2, 0x5D] → exec (.i3cPrivateWrite (0x40 :: r)) s = .next at40)
    ∧ (∀ n, s.bronze.telemetry.length ≤ 32 → ∃ t, exec (.i3cPrivateRead n) s = .next t ∧ t = { s with free := t.free, blf := { s.blf with i3cOut := t.blf.i3cOut, i3cIndex := BitVec.ofNat 8 (s.blf.i3cIndex.toNat + n) } }
        ∧ t.blf.i3cOut.length = n ∧ ∀ j, j < n → let i := (s.blf.i3cIndex.toNat + j) % 256; i < 56 → t.blf.i3cOut[j]? = (sideMap s)[i]?)
    ∧ (∀ da, ∃ t x, exec (.entdaa da) s = .next t ∧ t = { s with free := t.free, blf := { s.blf with i3cAddr := da, i3cOut := t.blf.i3cOut } } ∧ t.blf.i3cOut = (leBytes x 6).reverse ∧ x < 2 ^ 48
        ∧ field x 0 6 = s.dieId.toNat ∧ field x 6 26 = (s.blf.shadow[4]).toNat % 2 ^ 26)
    ∧ (∃ t, exec .throttleAll s = .next t ∧ (∀ c, t.core c = { s.core c with k := 1, freq := 0 }) ∧ VoltDecided s t ∧ t.bronze.alertHold = true ∧ t.bronze.alertPin = s.bronze.alertPin
        ∧ t.bronze.alertSince = s.now ∧ t.bronze.alertCount = satAdd s.bronze.alertCount 1 ∧ (nextRecord s t).code = 0x401 ∧ (nextRecord s t).cls = .corrected ∧ t.mem = s.mem
        ∧ (EdgesAgree s → t.blf.newest = s.blf.newest + 1 ∧ ∀ p, Told s t p 2 9 [0]))
    ∧ (∃ t, exec .haltAll s = .next t ∧ t.mem = s.mem ∧ t.spire = s.spire ∧ t.edges = s.edges ∧ (∀ p, Told s t p 17 9 [1]) ∧ (∀ c, ¬ present s c → t.core c = s.core c)
        ∧ (∀ c u, present s c → ((t.core c).unitQ u).queue = ((s.core c).unitQ u).queue ∧ ∃ f, t.frozen c u = some f ∧ (s.frozen c u = none → f = { cause := .command, discard := false, answer := none }))
        ∧ (∀ c u e, present s c → (∀ v, s.frozen c v = none) → FirstOpen (s.core c) u e → (t.core c).seq.faultDesc.toNat = e.off % 2 ^ 23)
        ∧ t.blf.newest = s.blf.newest + BitVec.ofNat 32 ((List.finRange 16).filter fun c => (s.core c).present && !(s.core c).short).length)

/-- Markers align Belfry time, and the sideband serves its index map. -/
def Obligations.MarkersAndSidebandFollowTheirTables : Prop := MarkersAlignTheTime ∧ SidebandServesItsIndexMap

/-- A Target Reset with RSTACT 0x01 performs a die warm reset when both ports are frozen, which it thaws, and is reported otherwise, as in D2; WATCHDOG performs one TIMEOUT ms after the last refresh of a running Onaune, in D2 too (R381, R385, R423, R425, R426). -/
def Sys2Proof.Claims.WarmResetsKeepWhatTheTableKeeps : Prop :=
  ∀ (s : State), s.powered = true → s.wf → s.fatal = false →
    ((s.port .A).frozen = true → (s.port .B).frozen = true → s.dstate = .up → ∃ t, exec (.targetReset 1) s = .next t ∧ Warm s t true ∧ t.now = s.now ∧ t.blf.time = s.blf.time)
    ∧ ((s.port .A).frozen = false ∨ (s.port .B).frozen = false ∨ s.dstate = .d2 → ∃ t, exec (.targetReset 1) s = .next t ∧ BelfryOnly s t ∧ Posted s t .A 9 [2] ∧ Posted s t .B 9 [2] ∧ t.blf.stage = s.blf.stage)
    ∧ (∀ d : Byte, d ≠ 1 → exec (.targetReset d) s = .next s)
    ∧ (s.blf.stage = 4 ∨ s.blf.stage = 5 → ∃ t, exec .watchdog s = .next t ∧ Warm s t false ∧ At s t (s.blf.wdogFed + 100000 * s.blf.wdogTimeout.toNat)
        ∧ t.blf.wdogExpired.toNat = min 0xFFFF (s.blf.wdogExpired.toNat + 1))


/-! ## Start-up (15) -/

namespace Sys2Proof.Claims

open Sys2Proof.Machine

/-- The longest object of the image store: 384 KiB of image, 4 KiB of record (R418, R420, R356). -/
def objectMax : FetchObject → Nat
  | .image => 0x60000
  | .calibration => 4096

/-- The bytes to fetch as far as known. -/
def wanted (f : Fetch) : Nat := min (objectMax f.object) (f.size.getD (objectMax f.object))

/-- A request for the piece of an object at `o` has entered at MGMT (R418). -/
def Requested (s t : State) (object : FetchObject) (o : Nat) : Prop :=
  ∃ q : Packet, t.spire.buf .mgmt .mgt = s.spire.buf .mgmt .mgt ++ [q] ∧ q.op = 0x10 ∧ q.vc = 2 ∧ q.len = 1 ∧ q.destDie.toNat = field (s.blf.shadow[2]).toNat 0 6
    ∧ q.destUnit.toNat = 12 + field (s.blf.shadow[2]).toNat 7 2 ∧ q.srcDie = s.dieId ∧ q.srcUnit = 8
    ∧ q.payload = leBytes (match object with | .image => 0 | .calibration => 1) 4 ++ leBytes o 4 ++ leBytes (min 4096 (objectMax object - o)) 4 ++ leBytes 0 4

/-- The calibration record's CRC is right (R356). -/
def CalCrc (bs : List Byte) : Prop := 4096 ≤ bs.length ∧ numIn bs 0xFFC 4 = (crc32 (cut bs 0 0xFFC)).toNat

/-- The defined bits of a fuse word (Tables PAR-9, PWR-11). -/
def fuseBits (i : Nat) : Nat :=
  if i = 0 then 8 else if i = 1 then 16 else if i = 2 then 9 else if 64 ≤ i ∧ i < 224 then 31 else if i = 242 then 16
  else if i ∈ [3, 4, 5, 240, 241] ∨ (8 ≤ i ∧ i < 20) then 32 else 0

/-- A shadow shows the defined bits of a fuse array, and 0 in the reserved ones (R14, R416). -/
def Shows (fuses shadow : Vector Word 256) : Prop := ∀ i : Fin 256, (shadow[i]).toNat = (fuses[i]).toNat % 2 ^ fuseBits i.val

/-- A fetch that begins. -/
def freshFetch (o : FetchObject) : Fetch := { object := o, buf := [], size := none, requested := 0, outstanding := [], started := none }

/-- Byte `j` of the object after packet `k`. -/
def arrived (f : Fetch) (k : Packet) (j : Nat) : Option Byte :=
  if k.len ≠ 0 ∧ k.offset.toNat ≤ j ∧ j < k.offset.toNat + k.payload.length ∧ j < objectMax f.object then k.payload[j - k.offset.toNat]? else (f.buf[j]?).getD none

/-- The bytes to fetch after packet `k`. -/
def wantedAfter (f : Fetch) (k : Packet) : Nat := if k.len = 0 then min (objectMax f.object) k.offset.toNat else wanted f

/-- The package configuration record of an image (Tables BOT-2, BOT-3). -/
def configOf (im : List Byte) : List Byte := cut (cut im 256 (numIn im 12 4)) (numIn im 208 4) (numIn im 212 4)

end Sys2Proof.Claims

/-- PORST_N_ASSERT returns every field to cold reset but the fuses and the TAP; PORST_N_RELEASE loads the fuse shadow, without reserved bits, derives fmax, and starts the PLLs, the edges and the ROM, the die staying in D0 until READY; LOSS_OF_POWER takes the die to D3 and lets go of its pins (R14, R327, R333, R352, R353, R415, R416, R423, R424, R432, R433). -/
def Sys2Proof.Claims.PowerUpFollowsItsTable : Prop :=
  ∀ (s : State) (aged : List Nat),
    (∃ t, exec .porstAssert s = .next t ∧ t.porst = true ∧ t.blf.fuses = s.blf.fuses ∧ Shows s.blf.fuses t.blf.shadow ∧ t.tap = s.tap ∧ t.pending = s.pending ∧ t.mem = Memory.empty ∧ t.fatal = false ∧ t.now = 0
        ∧ (∀ c, (t.core c).cstate = .c4 ∧ (t.core c).pll = false ∧ (t.core c).owner = none ∧ UnitsReset (t.core c) ∧ (t.core c).seq.faultDesc = 0) ∧ (∀ e : EdgeId, t.edges[e] = Edge.reset) ∧ t.blf.partitions = [] ∧ t.blf.newest = 0xFFFFFFFF ∧ t.blf.stage = 0
        ∧ (∀ p, t.port p = PortState.reset) ∧ (∀ n : Fin 32, (t.blf.sems[n]).owner = 0) ∧ t.bronze = Bronze.reset
        ∧ (s.blf.fuses = State.reset.blf.fuses → s.dstate ≠ .d3 → t = { State.reset with tap := s.tap, pending := s.pending, free := s.free }))
    ∧ (s.porst = true → ∃ t, exec (.porstRelease aged) s = .next t ∧ t.porst = false ∧ t.dstate = .up ∧ t.dieState = 0 ∧ Shows s.blf.fuses t.blf.shadow ∧ t.blf.fuses = s.blf.fuses ∧ t.now = 20000 ∧ t.blf.time = 20000 ∧ t.mem = Memory.empty
        ∧ (∀ e : EdgeId, (t.edges[e]).state = (if t.fusedOff e then 9 else 1) ∧ (t.edges[e]).pll = !t.fusedOff e)
        ∧ (t.bronze.spirePll = true ↔ t.role ≠ 0 ∧ t.role ≠ 3) ∧ (t.bronze.domePll = true ↔ t.role ≠ 0 ∧ t.role ≠ 3) ∧ (t.blf.stage = if t.role = 0 ∨ t.role = 3 then 7 else 1) ∧ t.tap = s.tap ∧ t.spire.bootMode = true
        ∧ (∀ c : CoreId, let code := field (if c.val < 8 then t.blf.shadow[240] else t.blf.shadow[241]).toNat (4 * (c.val % 8)) 4
            (t.core c).cstate = .c4 ∧ (t.core c).owner = none ∧ (t.core c).present = !(t.blf.shadow[242]).getLsbD c
              ∧ (code ≤ 8 → (t.core c).fmaxEff.toNat ≤ 28 + code ∧ 92 * (1100 + 25 * code) ≤ 100 * (400 + 25 * (t.core c).fmaxEff.toNat) ∧ (t.core c).ceiling = (t.core c).fmaxEff)))
    ∧ (s.porst = false → exec (.porstRelease aged) s = .next s)
    ∧ (s.powered = true → exec .lossOfPower s = .next { s with dstate := .d3 } ∧ ({ s with dstate := .d3 } : State).thermtripN = none)
    ∧ (s.dstate ≠ .d3 → s.thermtripN = some (!s.bronze.thermtrip))

/-- Warm reset keeps what its table keeps; power-up follows its stages. -/
def Obligations.ResetsAndPowerUpFollowTheirTables : Prop := WarmResetsKeepWhatTheTableKeeps ∧ PowerUpFollowsItsTable

/-- IMAGE_FETCH asks the boot source for the next piece, at most four at once; IMAGE_FETCH_RESPONSE takes pieces and the end of an object, and after the image the calibration record is fetched; FETCH_RETRY asks again after 10 ms; CALIBRATION_FETCH_END gives up the record after 100 ms; a record that is missing or fails its CRC sets CAL_INVALID, and a poisoned piece is fault 0x103 (R358, R396, R418, R419). -/
def Sys2Proof.Claims.ImagesAreFetchedPieceByPiece : Prop :=
  ∀ (s : State), s.powered = true → s.dstate = .up →
    let b := s.blf
    let jtag := (b.shadow[2]).getLsbD 6 = true
    let trained := ∀ e : EdgeId, (s.edges[e]).state ∈ [(6 : BitVec 4), 8, 9]
    let room := s.mgmtRoom .mgt = true
    let begun := fun (o : FetchObject) => { freshFetch o with requested := 4096, outstanding := [(0, s.now)], started := some s.now }
    (b.stage = 1 → trained → b.source = false → ¬ jtag → room → ∃ t, exec .imageFetch s = .next t ∧ t.blf.stage = 2 ∧ t.blf.attempts.toNat = min 255 (b.attempts.toNat + 1) ∧ Requested s t .image 0 ∧ t.blf.fetch = some (begun .image)
        ∧ t.mem = s.mem ∧ t.edges = s.edges)
    ∧ (b.stage = 1 → trained → b.source = false → ¬ jtag → ¬ room → ∃ t, exec .imageFetch s = .next t ∧ t.blf.stage = 2 ∧ t.blf.fetch = some (freshFetch .image) ∧ t.spire = s.spire)
    ∧ (b.stage = 1 → trained → b.source = true → b.warm = false → (jtag → ∃ t, exec .imageFetch s = .next t ∧ t.blf.stage = 3 ∧ t.blf.fetch = none ∧ (t.bronze.calInvalid = true ↔ ¬ CalCrc b.cal) ∧ t.spire = s.spire)
        ∧ (¬ jtag → room → ∃ t, exec .imageFetch s = .next t ∧ t.blf.stage = 2 ∧ Requested s t .calibration 0 ∧ t.blf.fetch = some (begun .calibration)))
    ∧ (b.stage = 1 → trained → b.source = false → jtag → ∃ t, exec .imageFetch s = .next t ∧ t = { s with blf := { b with stage := 6 } })
    ∧ (b.stage = 1 → ¬ trained → exec .imageFetch s = .next s)
    ∧ (∀ f, b.stage = 2 → b.fetch = some f → f.outstanding.length < 4 → f.requested < wanted f → room → ∃ t, exec .imageFetch s = .next t ∧ Requested s t f.object f.requested ∧ t.mem = s.mem ∧ t.edges = s.edges
        ∧ t.blf = { b with fetch := some { f with requested := f.requested + 4096, outstanding := f.outstanding ++ [(f.requested, s.now)], started := some (f.started.getD s.now) } })
    ∧ (∀ f, b.stage = 2 → b.fetch = some f → 4 ≤ f.outstanding.length ∨ wanted f ≤ f.requested ∨ ¬ room → exec .imageFetch s = .next s)
    ∧ (∀ f (k : Packet) r, b.fetch = some f → s.spire.mgmtQ = k :: r → k.op = 0x11 → k.isNotice = false → k.poisoned = false → f.buf.length ≤ objectMax f.object → k.payload.length = 16 * k.len.toNat → ∃ t, exec .imageFetchResponse s = .next t
        ∧ t.spire.mgmtQ = r ∧ t.mem = s.mem ∧ t.cores = s.cores
        ∧ ((∃ j, j < wantedAfter f k ∧ arrived f k j = none) → ∃ g, t.blf.fetch = some g ∧ t.blf.stage = b.stage ∧ g.object = f.object ∧ wanted g = wantedAfter f k ∧ g.requested = f.requested
            ∧ (∀ j, (g.buf[j]?).getD none = arrived f k j)
            ∧ ∀ x, x ∈ g.outstanding ↔ x ∈ f.outstanding ∧ ∃ j, x.1 ≤ j ∧ j < min (x.1 + 4096) (wantedAfter f k) ∧ arrived f k j = none)
        ∧ ((∀ j, j < wantedAfter f k → (arrived f k j).isSome = true) →
            let object := (List.range (wantedAfter f k)).map fun j => (arrived f k j).getD 0
            (f.object = .image → t.blf.image = object ∧ t.blf.source = false ∧ (b.warm = false → ¬ jtag → t.blf.stage = 2 ∧ t.blf.fetch = some (freshFetch .calibration))
                ∧ (b.warm = false → jtag → t.blf.stage = 3 ∧ t.blf.fetch = none ∧ (t.bronze.calInvalid = true ↔ ¬ CalCrc b.cal)) ∧ (b.warm = true → t.blf.stage = 3 ∧ t.blf.fetch = none ∧ t.bronze = s.bronze))
            ∧ (f.object = .calibration → t.blf.cal = object ∧ t.blf.stage = 3 ∧ t.blf.fetch = none ∧ (t.bronze.calInvalid = true ↔ ¬ CalCrc object))))
    ∧ (∀ f (k : Packet) r, b.fetch = some f → s.spire.mgmtQ = k :: r → k.op = 0x11 → k.isNotice = false → k.poisoned = true → ∃ t, exec .imageFetchResponse s = .next t ∧ t.spire.mgmtQ = r ∧ t.blf.fetch = b.fetch ∧ t.mem = s.mem
        ∧ t.fatal = true ∧ (lastRecord t).code = 0x103 ∧ (lastRecord t).cls = .fatal ∧ (lastRecord t).detail = 0xFFFFFFFF)
    ∧ (∀ f x r, b.fetch = some f → f.outstanding = x :: r → (¬ room → exec .fetchRetry s = .next s) ∧ (room → ∃ t, exec .fetchRetry s = .next t ∧ At s t (x.2 + 1000000) ∧ Requested s t f.object x.1 ∧ t.blf.fetch = some { f with outstanding := r ++ [(x.1, t.now)] } ∧ t.mem = s.mem))
    ∧ (∀ f n, b.fetch = some f → f.object = .calibration → f.started = some n → (∀ x ∈ f.buf, x = none) → ∃ t, exec .calibrationFetchEnd s = .next t ∧ At s t (n + 10000000) ∧ t.blf.stage = 3 ∧ t.blf.fetch = none ∧ t.blf.cal = b.cal
        ∧ (t.bronze.calInvalid = true ↔ ¬ CalCrc b.cal) ∧ t.mem = s.mem)

/-- AUTHENTICATION runs an authentic image and rejects another with 0x702; AUTH_RETRY fetches again 1 s later; CONFIG_APPLY applies a record whose magic and serial match and sends READY, at a cold start after a CAL event, or sets CFG_BAD; after FW_ACTIVATE it sends READY with reason 2, a port reset meanwhile getting its READY with reason 3 first (R358, R382, R389, R420 to R422, R426). -/
def Sys2Proof.Claims.AuthenticImagesStartOnaune : Prop :=
  ∀ (s : State), s.powered = true →
    let b := s.blf
    let jtag := (b.shadow[2]).getLsbD 6 = true
    (b.stage = 3 → Authentic s b.image → ∃ t, exec .authentication s = .next t ∧ BelfryOnly s t ∧ RunsImage t b.image ∧ t.blf.wdogFed = s.now ∧ t.blf.newest = b.newest ∧ t.blf.ports = b.ports)
    ∧ (b.stage = 3 → ¬ Authentic s b.image → ∃ t, exec .authentication s = .next t ∧ BelfryOnly s t ∧ t.blf.authFail = true ∧ t.blf.accepted = false ∧ t.blf.image = [] ∧ (jtag → t.blf.stage = 6) ∧ (¬ jtag → t.blf.stage = 2)
        ∧ t.blf.retryAt = s.now + 100000000 ∧ (lastRecord t).code = 0x702 ∧ (lastRecord t).cls = .contained ∧ (lastRecord t).block = 0x19 ∧ (lastRecord t).detail.toNat = numIn b.image 8 4)
    ∧ (b.stage = 2 → b.fetch = none → b.retryAt ≠ 0 → ∃ t, exec .authRetry s = .next t ∧ At s t b.retryAt ∧ t.blf.fetch = some (freshFetch .image) ∧ t.blf.stage = 2 ∧ t.blf.retryAt = 0
        ∧ t.blf.attempts.toNat = min 255 (b.attempts.toNat + 1) ∧ t.mem = s.mem)
    ∧ (let c := configOf b.image
       let o := 0x40 + 8 * s.dieId.toNat
       let good := numIn c 0 4 = 0x43474B50 ∧ numIn c 4 4 = (b.shadow[4]).toNat
       let owes := fun p => (s.port p).resetting = true ∧ (s.port p).executing = none ∧ ∀ w ∈ (s.port p).waiting, ¬ (w.event = true ∧ slotCode w.bits = 1)
       let readyEvent := fun (w : OutSlot) (reason : Nat) => w.event = true ∧ slotIs w.bits 0 0 1 1 0 (leBytes reason 4 ++ leBytes b.fwVer.toNat 4)
       let ready := fun (t : State) (reason : Nat) (cal : Bool) => t.blf.stage = 5 ∧ t.blf.readyTime = BitVec.ofNat 32 s.blf.time.toNat ∧ t.blf.wdogFed = s.now ∧ t.blf.warm = false ∧ t.blf.activation = false
         ∧ ∀ p, (t.port p).bind.getLsbD 8 = true → RoomFor (s.modPort p fun q => { q with bind := (t.port p).bind }) p 3 →
             ∃ l w, (t.port p).waiting = (s.port p).waiting ++ l ++ [w] ∧ readyEvent w reason ∧ (owes p → ∃ x ∈ l, readyEvent x 3)
               ∧ (cal = true → ∃ x ∈ l, x.event = true ∧ slotIs x.bits 0 0 1 0xB 0 (leBytes (if s.bronze.calInvalid then 1 else 0) 4 ++ leBytes (numIn b.cal 0xFFC 4) 4))
       (b.stage = 4 → b.cfgBad = false → b.activation = true → ∃ t, exec .configApply s = .next t ∧ ready t 2 false ∧ BelfryOnly s t ∧ t.blf.waitDefault = b.waitDefault ∧ ∀ p, (t.port p).bind = (s.port p).bind)
       ∧ (b.stage = 4 → b.cfgBad = false → b.activation = false → good → ∃ t, exec .configApply s = .next t ∧ ready t (if b.warm then 1 else 0) (!b.warm)
          ∧ (t.port .A).bind = BitVec.ofNat 9 (numIn c o 2) ∧ (t.port .B).bind = BitVec.ofNat 9 (numIn c (o + 2) 2) ∧ t.blf.waitDefault.toNat = max 0x400 (numIn c 12 4) ∧ t.spire.creditTo.toNat = max 1000 (numIn c 16 4)
          ∧ (∀ e : EdgeId, t.edges[e] = { s.edges[e] with targetRate := BitVec.ofNat 2 (numIn c (o + 4) 1 / 4 ^ e.val) }) ∧ (t.blf.root = true ↔ numIn c 8 1 = s.dieId.toNat) ∧ t.spire.bootMode = false
          ∧ t.bronze = s.bronze ∧ t.mem = s.mem ∧ t.cores = s.cores)
       ∧ (b.stage = 4 → b.cfgBad = false → b.activation = false → ¬ good → ∃ t, exec .configApply s = .next t ∧ BelfryOnly s t ∧ t.blf.cfgBad = true ∧ t.blf.stage = 4 ∧ t.blf.waitDefault = b.waitDefault
          ∧ ∀ p, (t.port p).bind.getLsbD 8 = false ∧ (t.port p).waiting = (s.port p).waiting))

/-- Images are fetched piece by piece, and only an authentic one starts Onaune. -/
def Obligations.ImagesAreFetchedAndAuthenticated : Prop := ImagesAreFetchedPieceByPiece ∧ AuthenticImagesStartOnaune

/-! ## Test access (16) -/

namespace Sys2Proof.Claims

open Sys2Proof.Machine

/-- Only the TAP's instruction register and its high impedance have changed. -/
def Selected (s : State) (code : Byte) : State := { s with tap := { s.tap with ir := code, highz := decide (code = 4) } }

/-- The code was shifted in while 0x01, which the register captured, was shifted out, and `n` bits `v` were shifted out of the selected data register (R440). -/
def Scanned (s : State) (code : Byte) (n v : Nat) : State := { s with tap := { (Selected s code).tap with irOut := 0x01, drOut := (n, v) } }

/-- An instrument's status field and result fields (R442). -/
def Reports (t : State) (key : Nat) (st : BitVec 2) (res : List Nat) : Prop := t.tap.status key = st ∧ (key, st, res) ∈ t.tap.instruments

/-- The instrument refused, and nothing else happened. -/
def Refused (s t : State) (key : Nat) : Prop := Reports t key 3 [] ∧ t = { s with tap := { s.tap with instruments := t.tap.instruments } }

/-- The target of a memory BIST belongs to a partition, or is Campanile's SRAM outside stages 6 and 7 (Table PHY-9). -/
def Taken (s : State) : BistTarget → Prop
  | .cupola c | .lantern c _ => (s.core c).owner.isSome = true
  | .dome j => (s.blf.sliceOwner[j]).isSome = true
  | .campanile => s.blf.stage ≠ 6 ∧ s.blf.stage ≠ 7

/-- The target may be marched: of no partition, not clearing, its core present and in C4. -/
def Free (s : State) : BistTarget → Prop
  | .cupola c | .lantern c _ => present s c ∧ (s.core c).owner = none ∧ (s.core c).clearing = false ∧ ((s.core c).cstate = .c4 ∨ (s.core c).bist = true)
  | .dome j => s.blf.sliceOwner[j] = none ∧ s.blf.slicesClearing.getLsbD j = false
  | .campanile => s.blf.stage = 6 ∨ s.blf.stage = 7

/-- The test holds its core, slice or Campanile's SRAM. -/
def HeldBy (t : State) : BistTarget → Bool
  | .cupola c | .lantern c _ => (t.core c).bist
  | .dome j => t.blf.sliceBist.getLsbD j
  | .campanile => t.blf.campBist

/-- Core `c` holds the array of the target. -/
def OfCore (c : CoreId) : BistTarget → Prop
  | .cupola d | .lantern d _ => d = c
  | _ => False

/-- The array of a BIST target (Tables DIE-5, DIE-6): its first byte and its length; Campanile's SRAM has no die-local address. -/
def arrayOf : BistTarget → Nat × Nat
  | .cupola c => (coreBase c, 0x600000)
  | .lantern c e => (lanternBase c e, 0x40000)
  | .dome j => (j.val * 0x800000, 0x800000)
  | .campanile => (0, 0)

/-- Module `m` of an edge is not active: its edge OFF or DOWN, or the module switched off (Table PHY-9). -/
def ModuleIdle (x : Edge) (m : Fin 20) : Prop :=
  x.state = 9 ∨ x.state = 8 ∨ x.offRetry.getLsbD m = true ∨ x.offCmd.getLsbD m = true ∨ x.offTrain.getLsbD m = true ∨ ((x.state = 6 ∨ x.state = 7) ∧ x.on.getLsbD m = false)

end Sys2Proof.Claims

/-- The TAP's instructions select their register without regard to PORST_N, 0x01 being shifted out of the instruction register; EXTEST and SAMPLE_PRELOAD shift the pins out of the 336 cells and PRELOAD sets the cells; EXTEST, CLAMP and HIGHZ fence the die; IDCODE reads 0x1A4C15B3; an unlisted code is BYPASS; without VDD_AON nothing happens
(R433, R439 to R441; the 0 that the bypass register captures is the model's choice of log entry 135). -/
def Sys2Proof.Claims.TapInstructionsFollowTheirTable : Prop :=
  ∀ (s : State) (scan : BoundaryScan) (code : Byte),
    (s.dstate ≠ .d3 → exec .tapReset s = .next (Selected s 0x02)
        ∧ exec (.samplePreload scan) s = .next { s with tap := { (Scanned s 0x01 336 scan.pins.toNat).tap with bsr := scan.cells } }
        ∧ exec .idcode s = .next { Scanned s 0x02 32 0x1A4C15B3 with readBack := { value := 0x1A4C15B3, poisoned := false } }
        ∧ exec .ijtag s = .next { s with tap := { (Selected s 0x10).tap with irOut := 0x01 } }
        ∧ (code.toNat ∉ [0, 1, 2, 3, 4, 0x10] → exec (.bypass code) s = .next (Scanned s code 1 0)))
    ∧ (∀ r ∈ [((0 : Byte), Instr.extest), (3, .clamp), (4, .highz)], s.dstate ≠ .d3 → ∃ t n v, exec r.2 s = .next t
        ∧ t = { Scanned s r.1 n v with cores := t.cores, fatal := t.fatal, fatalAt := t.fatalAt, free := t.free } ∧ v < 2 ^ n ∧ (n, v) = (if r.1 = 0 then (336, v) else (1, 0)) ∧ (r.1 ≠ 0 → t.free = s.free)
        ∧ (s.powered = true → s.fatal = false → t.fatal = true ∧ t.fatalAt = s.now ∧ (∀ c, ¬ present s c → t.core c = s.core c)
          ∧ (∀ c u, present s c → ((t.core c).unitQ u).queue = ((s.core c).unitQ u).queue ∧ (t.frozen c u).map (·.cause) = some .fatal))
        ∧ (s.powered = false ∨ s.fatal = true → t.cores = s.cores ∧ t.fatal = s.fatal ∧ t.fatalAt = s.fatalAt))
    ∧ (s.dstate = .d3 → ∀ i ∈ [Instr.tapReset, .extest, .samplePreload scan, .idcode, .clamp, .highz, .ijtag, .bypass code], exec i s = .next s)

/-- Each instrument reports refused and does nothing unless its condition of Table PHY-9 is met: a memory BIST holds its resource, whose core is powered for the test and returns to C4, and leaves the array zero, unless PORST_N ended the hold; loop-back and margining hold or test a module that is not active, the fuse programmer sets bits that no reset clears, the image loader loads before an image
has been accepted; FUSE_VPP in service is reported as 0x701 (R331, R419, R435, R442 to R444). -/
def Sys2Proof.Claims.InstrumentsKeepTheirConditions : Prop :=
  ∀ (s : State), s.wf → s.dstate ≠ .d3 →
    (∀ target : BistTarget, let key := bistKey target
      let a := arrayOf target
      (s.tap.status key ≠ 1 → s.powered = true → s.dstate = .up → Free s target → ∃ t, exec (.memoryBist target .start) s = .next t ∧ Reports t key 1 [] ∧ HeldBy t target = true ∧ t.mem = s.mem ∧ t.spire = s.spire
          ∧ ∀ c, (OfCore c target → (s.core c).cstate = .c4 → (t.core c).waking = true) ∧ (¬ OfCore c target → t.core c = { s.core c with rampAt := (t.core c).rampAt, pll := (t.core c).pll }))
      ∧ (s.tap.status key ≠ 1 → Taken s target ∨ s.powered = false ∨ s.dstate = .d2 → ∃ t, exec (.memoryBist target .start) s = .next t ∧ Refused s t key)
      ∧ (∀ n bank row, s.tap.status key = 1 → HeldBy s target = false → ∃ t, exec (.memoryBist target (.finish n bank row)) s = .next t ∧ Refused s t key)
      ∧ (∀ n bank row, s.tap.status key = 1 → HeldBy s target = true → ∃ t, exec (.memoryBist target (.finish n bank row)) s = .next t ∧ Reports t key 2 [if n = 0 then 0 else 1, bank, row, n]
          ∧ (∀ i, i < a.2 → t.mem.byteAt (a.1 + i) = 0 ∧ t.mem.marked ((a.1 + i) / 8) = false) ∧ SameBytesBut s t a.1 a.2 ∧ t.spire = s.spire ∧ (target = .campanile → t.blf.image = [] ∧ t.blf.staged = [])
          ∧ ((∀ other, other ≠ target → s.tap.status (bistKey other) ≠ 1) → HeldBy t target = false
              ∧ ∀ c, OfCore c target → (t.core c).cstate = .c4 ∧ (t.core c).waking = false ∧ (t.core c).pll = false)))
    ∧ (∀ (e : EdgeId) (m : Fin 20) (hold : Bool),
        let x := s.edges[e]
        let only := fun t : State => t = { s with edges := t.edges, tap := { s.tap with instruments := t.tap.instruments } } ∧ ∀ f : EdgeId, f ≠ e → t.edges[f] = s.edges[f]
        let keeps := fun (a b : BitVec 20) => ∀ n : Fin 20, b.getLsbD n = if n = m then hold else a.getLsbD n
        let st : BitVec 2 := if hold then 1 else 2
        (∀ test : LoopBack,
          (s.powered = true → ModuleIdle x m ∨ (x.held.getLsbD m = true ∧ hold = false) → ∃ t, exec (.moduleLoopBack e m test hold) s = .next t ∧ Reports t (loopKey e m) st [test.rate.val, test.failing.toNat]
            ∧ only t ∧ t.edges[e] = { x with held := (t.edges[e]).held } ∧ keeps x.held (t.edges[e]).held)
          ∧ (s.powered = false ∨ (¬ ModuleIdle x m ∧ (x.held.getLsbD m = false ∨ hold = true)) → ∃ t, exec (.moduleLoopBack e m test hold) s = .next t ∧ Refused s t (loopKey e m)))
        ∧ ∀ eyes : List (BitVec 16),
          (s.powered = true → ModuleIdle x m ∨ (x.heldM.getLsbD m = true ∧ hold = false) → ∃ t, exec (.laneMargining e m eyes hold) s = .next t ∧ Reports t (marginKey e m) st (eyes.map (·.toNat))
            ∧ only t ∧ t.edges[e] = { x with heldM := (t.edges[e]).heldM } ∧ keeps x.heldM (t.edges[e]).heldM)
          ∧ (s.powered = false ∨ (¬ ModuleIdle x m ∧ (x.heldM.getLsbD m = false ∨ hold = true)) → ∃ t, exec (.laneMargining e m eyes hold) s = .next t ∧ Refused s t (marginKey e m)))
    ∧ (∀ mv (bits : List (Fin 8192)), (1710 ≤ mv → mv ≤ 1890 → ∃ t, exec (.fuseProgrammer mv bits) s = .next t ∧ Reports t fuseKey 2 []
          ∧ t = { s with blf := { s.blf with fuses := t.blf.fuses }, tap := { s.tap with instruments := t.tap.instruments } }
          ∧ ∀ (w : Fin 256) (i : Fin 32), (t.blf.fuses[w]).getLsbD i = ((s.blf.fuses[w]).getLsbD i || bits.any fun b => b.val == 32 * w.val + i.val))
        ∧ (mv < 1710 ∨ 1890 < mv → ∃ t, exec (.fuseProgrammer mv bits) s = .next t ∧ Refused s t fuseKey))
    ∧ (∀ object (bytes : List Byte), (s.powered = true → s.blf.accepted = false → ∃ t, exec (.imageLoader object bytes) s = .next t ∧ Reports t loaderKey 2 [] ∧ t.mem = s.mem ∧ t.cores = s.cores ∧ t.spire = s.spire
          ∧ (object = .image → bytes.length ≤ 0x60000 → t.blf.image = bytes ∧ t.blf.source = true ∧ (s.blf.stage = 6 → (s.blf.shadow[2]).getLsbD 6 = true → t.blf.stage = 3)
              ∧ (∀ f, s.blf.stage = 2 → s.blf.fetch = some f → f.object = .image → s.blf.warm = false → (s.blf.shadow[2]).getLsbD 6 = false → t.blf.stage = 2 ∧ t.blf.fetch = some (freshFetch .calibration)))
          ∧ (object = .calibration → bytes.length ≤ 4096 → t.blf.cal = bytes ∧ t.blf.image = s.blf.image ∧ (t.bronze.calInvalid = true ↔ ¬ CalCrc bytes)))
        ∧ (s.powered = false ∨ s.blf.accepted = true → ∃ t, exec (.imageLoader object bytes) s = .next t ∧ Refused s t loaderKey))
    ∧ (∀ mv, s.powered = true → (mv ≤ 300 → exec (.fuseVppViolation mv) s = .next s)
        ∧ (300 < mv → Unlimited s 0x701 0x1B 0 → ∃ t, exec (.fuseVppViolation mv) s = .next t ∧ BelfryOnly s t ∧ t.blf.fuses = s.blf.fuses ∧ (lastRecord t).code = 0x701 ∧ (lastRecord t).cls = .contained
            ∧ (lastRecord t).block = 0x1B ∧ (lastRecord t).detail = 0 ∧ t.blf.newest = s.blf.newest + 1))

/-- The TAP's instructions and instruments follow Tables PHY-8 and PHY-9. -/
def Obligations.TestAccessFollowsItsTables : Prop := TapInstructionsFollowTheirTable ∧ InstrumentsKeepTheirConditions

/-! ## The block as a whole (01, 08, 12, 14, 15, 16) -/

namespace Sys2Proof.Claims

open Sys2Proof.Machine

/-- The rows that act without power: PORST_N, and the TAP, which needs VDD_AON only (R433, R439). -/
def actsUnpowered : Instr → Bool
  | .porstAssert | .porstRelease _ | .tapReset | .extest | .samplePreload _ | .idcode | .clamp | .highz | .ijtag | .bypass _ | .memoryBist _ _ | .moduleLoopBack _ _ _ _
  | .laneMargining _ _ _ _ | .fuseProgrammer _ _ | .imageLoader _ _ => true
  | _ => false

/-- The two rows of cold reset. -/
def coldRow : Instr → Bool
  | .porstAssert | .porstRelease _ => true
  | _ => false

/-- No bit of `a` is missing in `b`. -/
def Within {n : Nat} (a b : BitVec n) : Prop := ∀ i, a.getLsbD i = true → b.getLsbD i = true

end Sys2Proof.Claims

/-- A step takes the command at the front of the queue and runs it with the rest of the queue; with an empty queue one bt passes, Belfry time slewing by at most 1 bt (the model's choices of log entries 4 and 6). -/
def Obligations.StepRunsTheFrontCommand : Prop :=
  (∀ (s : State) (c : Instr), step { s with pending := c :: s.pending } = exec c s)
    ∧ (∀ s : State, s.pending = [] → s.powered = false → step s = .next s)
    ∧ ∀ s : State, s.pending = [] → s.powered = true → s.blf.slewCount < 100 → ∃ t, step s = .next t ∧ t.now = s.now + 1 ∧ t = { s with now := t.now, blf := t.blf, cores := t.cores }
        ∧ t.blf = { s.blf with time := t.blf.time, slew := t.blf.slew, slewCount := t.blf.slewCount } ∧ (t.blf.time = s.blf.time ∨ t.blf.time = s.blf.time + 1 ∨ t.blf.time = s.blf.time + 2)
        ∧ (s.blf.slew = 0 → t.blf.time = s.blf.time + 1)

/-- Of no command and in no state does the block fault or refuse: exec answers a next state for each, and no command touches the queue; what each command does is stated of its family above. -/
def Obligations.EveryCommandAnswersANextState : Prop :=
  ∀ (c : Instr) (s : State), ∃ t, exec c s = .next t ∧ t.pending = s.pending

/-- Every step keeps the SRAM's canonical form: addresses rising, no byte listed that reads as an unlisted one, poison marks and damaged words each listed once. -/
def Obligations.CanonicalMemoryIsKept : Prop :=
  ∀ (s t : State), s.wf → step s = .next t → t.wf

/-- Without power, or with PORST_N low, nothing acts but PORST_N and the TAP (R432, R433, R439). -/
def Sys2Proof.Claims.NothingActsWithoutPower : Prop :=
  ∀ (c : Instr) (s : State), s.powered = false → actsUnpowered c = false → exec c s = .next s

/-- Only cold reset undoes a fatal fault or a fence of another die: no other command clears them, and nothing clears a fuse (R403, R406, R442). -/
def Sys2Proof.Claims.OnlyColdResetUndoesAFence : Prop :=
  ∀ (c : Instr) (s t : State), exec c s = .next t →
    (coldRow c = false → (s.fatal = true → t.fatal = true) ∧ Within s.blf.fenced t.blf.fenced) ∧ ∀ w : Fin 256, Within s.blf.fuses[w] t.blf.fuses[w]

/-- Nothing acts without power but PORST_N and the TAP; only cold reset undoes a fence. -/
def Obligations.PowerAndFencesBindTheDie : Prop := NothingActsWithoutPower ∧ OnlyColdResetUndoesAFence

/-- Cold reset leaves the registers and modes named here at the Reset column of their tables, the SRAM zero and in its canonical form, and the queue of commands empty (Tables ENG-10, TIL-1, VEC-5, SYN-4, FAB-11, PAR-10, PWR-10, ONA-2, FLT-9, BOT-6, MEM-7; R80, R195, R416). -/
def Obligations.ResetLeavesTheStatedValues : Prop :=
  let s := State.reset
  s.wf ∧ s.pending = [] ∧ (∀ a, s.mem.byteAt a = 0)
    ∧ (∀ c, UnitsReset (s.core c) ∧ (s.core c).seq.faultDesc = 0 ∧ (s.core c).cstate = .c4 ∧ (s.core c).pll = false ∧ (s.core c).owner = none ∧ (s.core c).short = false)
    ∧ s.dieState = 0
    ∧ (∀ (c : CoreId) (e : EngId), ((s.core c).eng[e]).subn = true ∧ ((s.core c).eng[e]).zgate = true ∧ ((s.core c).eng[e]).flags = 0)
    ∧ (∀ c, (s.core c).vec.vl = 512 ∧ (s.core c).seq.enable = false ∧ (s.core c).seq.log2 = 6 ∧ (∀ j : Fin 512, ((s.core c).vec.sr[j]) = BitVec.ofNat 32 (j.val * 0x9E3779B9)))
    ∧ s.spire.cur = false ∧ s.spire.lock = false ∧ s.spire.loaded = 0 ∧ s.spire.gen = 0 ∧ s.spire.creditTo = 0x186A0 ∧ (∀ j : Fin 256, (s.spire.windows[j]).valid = false) ∧ (∀ (n : Fin 6) (j : Fin 8), (s.spire.keys[n])[j] = 0)
    ∧ (∀ e : EdgeId, (s.edges[e]).targetRate = 3 ∧ (s.edges[e]).thresh = 64 ∧ (s.edges[e]).window = 1000)
    ∧ s.bronze.target = 250 ∧ s.bronze.effective = 250 ∧ s.bronze.ramp = 20 ∧ s.bronze.ballastLimit = 0 ∧ s.bronze.c2After = 0
    ∧ s.blf.unsync = true ∧ s.blf.waitDefault = 0x01000000 ∧ s.blf.newest = 0xFFFFFFFF ∧ s.blf.oldest = 0 ∧ s.blf.fatalHeld = 0 ∧ s.blf.fenced = 0 ∧ s.blf.wdogTimeout = 1000 ∧ s.blf.stage = 0
    ∧ (∀ u : Fin 24, s.blf.scrubEn.getLsbD u = true ∧ (s.blf.scrubPeriod[u]).toNat = if u.val < 16 then 1000 else 4000)
    ∧ (∀ p, (s.port p).bind = 0 ∧ (s.port p).frozen = false ∧ (s.port p).cmdHead = 0 ∧ (s.port p).rspTail = 0) ∧ (∀ n : Fin 32, (s.blf.sems[n]).owner = 0) ∧ s.tap.ir = 2
end

