-- ==== Sys2Proof/Laws/State.lean ====
section
/-! SUPPORT. Each setter of State, field by field: the field it changes, and every other field as before; reading a core, an engine, a port
after a setter; time passing. -/

namespace Sys2Proof.Machine

variable (s : State)

@[simp] theorem State.modCore_pending (c : CoreId) (f : Core → Core) : (s.modCore c f).pending = s.pending := rfl
@[simp] theorem State.modCore_mem (c : CoreId) (f : Core → Core) : (s.modCore c f).mem = s.mem := rfl
@[simp] theorem State.modCore_spire (c : CoreId) (f : Core → Core) : (s.modCore c f).spire = s.spire := rfl
@[simp] theorem State.modCore_edges (c : CoreId) (f : Core → Core) : (s.modCore c f).edges = s.edges := rfl
@[simp] theorem State.modCore_bronze (c : CoreId) (f : Core → Core) : (s.modCore c f).bronze = s.bronze := rfl
@[simp] theorem State.modCore_blf (c : CoreId) (f : Core → Core) : (s.modCore c f).blf = s.blf := rfl
@[simp] theorem State.modCore_tap (c : CoreId) (f : Core → Core) : (s.modCore c f).tap = s.tap := rfl
@[simp] theorem State.modCore_porst (c : CoreId) (f : Core → Core) : (s.modCore c f).porst = s.porst := rfl
@[simp] theorem State.modCore_dstate (c : CoreId) (f : Core → Core) : (s.modCore c f).dstate = s.dstate := rfl
@[simp] theorem State.modCore_d2Pending (c : CoreId) (f : Core → Core) : (s.modCore c f).d2Pending = s.d2Pending := rfl
@[simp] theorem State.modCore_fatal (c : CoreId) (f : Core → Core) : (s.modCore c f).fatal = s.fatal := rfl
@[simp] theorem State.modCore_fatalAt (c : CoreId) (f : Core → Core) : (s.modCore c f).fatalAt = s.fatalAt := rfl
@[simp] theorem State.modCore_now (c : CoreId) (f : Core → Core) : (s.modCore c f).now = s.now := rfl
@[simp] theorem State.modCore_free (c : CoreId) (f : Core → Core) : (s.modCore c f).free = s.free := rfl
@[simp] theorem State.modCore_readBack (c : CoreId) (f : Core → Core) : (s.modCore c f).readBack = s.readBack := rfl

@[simp] theorem State.modEng_pending (c : CoreId) (e : EngId) (f : Engine → Engine) : (s.modEng c e f).pending = s.pending := rfl
@[simp] theorem State.modEng_mem (c : CoreId) (e : EngId) (f : Engine → Engine) : (s.modEng c e f).mem = s.mem := rfl
@[simp] theorem State.modEng_spire (c : CoreId) (e : EngId) (f : Engine → Engine) : (s.modEng c e f).spire = s.spire := rfl
@[simp] theorem State.modEng_edges (c : CoreId) (e : EngId) (f : Engine → Engine) : (s.modEng c e f).edges = s.edges := rfl
@[simp] theorem State.modEng_bronze (c : CoreId) (e : EngId) (f : Engine → Engine) : (s.modEng c e f).bronze = s.bronze := rfl
@[simp] theorem State.modEng_blf (c : CoreId) (e : EngId) (f : Engine → Engine) : (s.modEng c e f).blf = s.blf := rfl
@[simp] theorem State.modEng_tap (c : CoreId) (e : EngId) (f : Engine → Engine) : (s.modEng c e f).tap = s.tap := rfl
@[simp] theorem State.modEng_porst (c : CoreId) (e : EngId) (f : Engine → Engine) : (s.modEng c e f).porst = s.porst := rfl
@[simp] theorem State.modEng_dstate (c : CoreId) (e : EngId) (f : Engine → Engine) : (s.modEng c e f).dstate = s.dstate := rfl
@[simp] theorem State.modEng_d2Pending (c : CoreId) (e : EngId) (f : Engine → Engine) : (s.modEng c e f).d2Pending = s.d2Pending := rfl
@[simp] theorem State.modEng_fatal (c : CoreId) (e : EngId) (f : Engine → Engine) : (s.modEng c e f).fatal = s.fatal := rfl
@[simp] theorem State.modEng_fatalAt (c : CoreId) (e : EngId) (f : Engine → Engine) : (s.modEng c e f).fatalAt = s.fatalAt := rfl
@[simp] theorem State.modEng_now (c : CoreId) (e : EngId) (f : Engine → Engine) : (s.modEng c e f).now = s.now := rfl
@[simp] theorem State.modEng_free (c : CoreId) (e : EngId) (f : Engine → Engine) : (s.modEng c e f).free = s.free := rfl
@[simp] theorem State.modEng_readBack (c : CoreId) (e : EngId) (f : Engine → Engine) : (s.modEng c e f).readBack = s.readBack := rfl

@[simp] theorem State.modGroup_pending (c : CoreId) (e : EngId) (g : GroupId) (f : Group → Group) : (s.modGroup c e g f).pending = s.pending := rfl
@[simp] theorem State.modGroup_mem (c : CoreId) (e : EngId) (g : GroupId) (f : Group → Group) : (s.modGroup c e g f).mem = s.mem := rfl
@[simp] theorem State.modGroup_spire (c : CoreId) (e : EngId) (g : GroupId) (f : Group → Group) : (s.modGroup c e g f).spire = s.spire := rfl
@[simp] theorem State.modGroup_edges (c : CoreId) (e : EngId) (g : GroupId) (f : Group → Group) : (s.modGroup c e g f).edges = s.edges := rfl
@[simp] theorem State.modGroup_bronze (c : CoreId) (e : EngId) (g : GroupId) (f : Group → Group) : (s.modGroup c e g f).bronze = s.bronze := rfl
@[simp] theorem State.modGroup_blf (c : CoreId) (e : EngId) (g : GroupId) (f : Group → Group) : (s.modGroup c e g f).blf = s.blf := rfl
@[simp] theorem State.modGroup_tap (c : CoreId) (e : EngId) (g : GroupId) (f : Group → Group) : (s.modGroup c e g f).tap = s.tap := rfl
@[simp] theorem State.modGroup_porst (c : CoreId) (e : EngId) (g : GroupId) (f : Group → Group) : (s.modGroup c e g f).porst = s.porst := rfl
@[simp] theorem State.modGroup_dstate (c : CoreId) (e : EngId) (g : GroupId) (f : Group → Group) : (s.modGroup c e g f).dstate = s.dstate := rfl
@[simp] theorem State.modGroup_d2Pending (c : CoreId) (e : EngId) (g : GroupId) (f : Group → Group) : (s.modGroup c e g f).d2Pending = s.d2Pending := rfl
@[simp] theorem State.modGroup_fatal (c : CoreId) (e : EngId) (g : GroupId) (f : Group → Group) : (s.modGroup c e g f).fatal = s.fatal := rfl
@[simp] theorem State.modGroup_fatalAt (c : CoreId) (e : EngId) (g : GroupId) (f : Group → Group) : (s.modGroup c e g f).fatalAt = s.fatalAt := rfl
@[simp] theorem State.modGroup_now (c : CoreId) (e : EngId) (g : GroupId) (f : Group → Group) : (s.modGroup c e g f).now = s.now := rfl
@[simp] theorem State.modGroup_free (c : CoreId) (e : EngId) (g : GroupId) (f : Group → Group) : (s.modGroup c e g f).free = s.free := rfl
@[simp] theorem State.modGroup_readBack (c : CoreId) (e : EngId) (g : GroupId) (f : Group → Group) : (s.modGroup c e g f).readBack = s.readBack := rfl

@[simp] theorem State.modVec_pending (c : CoreId) (f : VecEngine → VecEngine) : (s.modVec c f).pending = s.pending := rfl
@[simp] theorem State.modVec_mem (c : CoreId) (f : VecEngine → VecEngine) : (s.modVec c f).mem = s.mem := rfl
@[simp] theorem State.modVec_spire (c : CoreId) (f : VecEngine → VecEngine) : (s.modVec c f).spire = s.spire := rfl
@[simp] theorem State.modVec_edges (c : CoreId) (f : VecEngine → VecEngine) : (s.modVec c f).edges = s.edges := rfl
@[simp] theorem State.modVec_bronze (c : CoreId) (f : VecEngine → VecEngine) : (s.modVec c f).bronze = s.bronze := rfl
@[simp] theorem State.modVec_blf (c : CoreId) (f : VecEngine → VecEngine) : (s.modVec c f).blf = s.blf := rfl
@[simp] theorem State.modVec_tap (c : CoreId) (f : VecEngine → VecEngine) : (s.modVec c f).tap = s.tap := rfl
@[simp] theorem State.modVec_porst (c : CoreId) (f : VecEngine → VecEngine) : (s.modVec c f).porst = s.porst := rfl
@[simp] theorem State.modVec_dstate (c : CoreId) (f : VecEngine → VecEngine) : (s.modVec c f).dstate = s.dstate := rfl
@[simp] theorem State.modVec_d2Pending (c : CoreId) (f : VecEngine → VecEngine) : (s.modVec c f).d2Pending = s.d2Pending := rfl
@[simp] theorem State.modVec_fatal (c : CoreId) (f : VecEngine → VecEngine) : (s.modVec c f).fatal = s.fatal := rfl
@[simp] theorem State.modVec_fatalAt (c : CoreId) (f : VecEngine → VecEngine) : (s.modVec c f).fatalAt = s.fatalAt := rfl
@[simp] theorem State.modVec_now (c : CoreId) (f : VecEngine → VecEngine) : (s.modVec c f).now = s.now := rfl
@[simp] theorem State.modVec_free (c : CoreId) (f : VecEngine → VecEngine) : (s.modVec c f).free = s.free := rfl
@[simp] theorem State.modVec_readBack (c : CoreId) (f : VecEngine → VecEngine) : (s.modVec c f).readBack = s.readBack := rfl

@[simp] theorem State.modMov_pending (c : CoreId) (f : Mover → Mover) : (s.modMov c f).pending = s.pending := rfl
@[simp] theorem State.modMov_mem (c : CoreId) (f : Mover → Mover) : (s.modMov c f).mem = s.mem := rfl
@[simp] theorem State.modMov_spire (c : CoreId) (f : Mover → Mover) : (s.modMov c f).spire = s.spire := rfl
@[simp] theorem State.modMov_edges (c : CoreId) (f : Mover → Mover) : (s.modMov c f).edges = s.edges := rfl
@[simp] theorem State.modMov_bronze (c : CoreId) (f : Mover → Mover) : (s.modMov c f).bronze = s.bronze := rfl
@[simp] theorem State.modMov_blf (c : CoreId) (f : Mover → Mover) : (s.modMov c f).blf = s.blf := rfl
@[simp] theorem State.modMov_tap (c : CoreId) (f : Mover → Mover) : (s.modMov c f).tap = s.tap := rfl
@[simp] theorem State.modMov_porst (c : CoreId) (f : Mover → Mover) : (s.modMov c f).porst = s.porst := rfl
@[simp] theorem State.modMov_dstate (c : CoreId) (f : Mover → Mover) : (s.modMov c f).dstate = s.dstate := rfl
@[simp] theorem State.modMov_d2Pending (c : CoreId) (f : Mover → Mover) : (s.modMov c f).d2Pending = s.d2Pending := rfl
@[simp] theorem State.modMov_fatal (c : CoreId) (f : Mover → Mover) : (s.modMov c f).fatal = s.fatal := rfl
@[simp] theorem State.modMov_fatalAt (c : CoreId) (f : Mover → Mover) : (s.modMov c f).fatalAt = s.fatalAt := rfl
@[simp] theorem State.modMov_now (c : CoreId) (f : Mover → Mover) : (s.modMov c f).now = s.now := rfl
@[simp] theorem State.modMov_free (c : CoreId) (f : Mover → Mover) : (s.modMov c f).free = s.free := rfl
@[simp] theorem State.modMov_readBack (c : CoreId) (f : Mover → Mover) : (s.modMov c f).readBack = s.readBack := rfl

@[simp] theorem State.modSeq_pending (c : CoreId) (f : Sequencer → Sequencer) : (s.modSeq c f).pending = s.pending := rfl
@[simp] theorem State.modSeq_mem (c : CoreId) (f : Sequencer → Sequencer) : (s.modSeq c f).mem = s.mem := rfl
@[simp] theorem State.modSeq_spire (c : CoreId) (f : Sequencer → Sequencer) : (s.modSeq c f).spire = s.spire := rfl
@[simp] theorem State.modSeq_edges (c : CoreId) (f : Sequencer → Sequencer) : (s.modSeq c f).edges = s.edges := rfl
@[simp] theorem State.modSeq_bronze (c : CoreId) (f : Sequencer → Sequencer) : (s.modSeq c f).bronze = s.bronze := rfl
@[simp] theorem State.modSeq_blf (c : CoreId) (f : Sequencer → Sequencer) : (s.modSeq c f).blf = s.blf := rfl
@[simp] theorem State.modSeq_tap (c : CoreId) (f : Sequencer → Sequencer) : (s.modSeq c f).tap = s.tap := rfl
@[simp] theorem State.modSeq_porst (c : CoreId) (f : Sequencer → Sequencer) : (s.modSeq c f).porst = s.porst := rfl
@[simp] theorem State.modSeq_dstate (c : CoreId) (f : Sequencer → Sequencer) : (s.modSeq c f).dstate = s.dstate := rfl
@[simp] theorem State.modSeq_d2Pending (c : CoreId) (f : Sequencer → Sequencer) : (s.modSeq c f).d2Pending = s.d2Pending := rfl
@[simp] theorem State.modSeq_fatal (c : CoreId) (f : Sequencer → Sequencer) : (s.modSeq c f).fatal = s.fatal := rfl
@[simp] theorem State.modSeq_fatalAt (c : CoreId) (f : Sequencer → Sequencer) : (s.modSeq c f).fatalAt = s.fatalAt := rfl
@[simp] theorem State.modSeq_now (c : CoreId) (f : Sequencer → Sequencer) : (s.modSeq c f).now = s.now := rfl
@[simp] theorem State.modSeq_free (c : CoreId) (f : Sequencer → Sequencer) : (s.modSeq c f).free = s.free := rfl
@[simp] theorem State.modSeq_readBack (c : CoreId) (f : Sequencer → Sequencer) : (s.modSeq c f).readBack = s.readBack := rfl

@[simp] theorem State.modSpire_pending (f : Spire → Spire) : (s.modSpire f).pending = s.pending := rfl
@[simp] theorem State.modSpire_mem (f : Spire → Spire) : (s.modSpire f).mem = s.mem := rfl
@[simp] theorem State.modSpire_cores (f : Spire → Spire) : (s.modSpire f).cores = s.cores := rfl
@[simp] theorem State.modSpire_spire (f : Spire → Spire) : (s.modSpire f).spire = f s.spire := rfl
@[simp] theorem State.modSpire_edges (f : Spire → Spire) : (s.modSpire f).edges = s.edges := rfl
@[simp] theorem State.modSpire_bronze (f : Spire → Spire) : (s.modSpire f).bronze = s.bronze := rfl
@[simp] theorem State.modSpire_blf (f : Spire → Spire) : (s.modSpire f).blf = s.blf := rfl
@[simp] theorem State.modSpire_tap (f : Spire → Spire) : (s.modSpire f).tap = s.tap := rfl
@[simp] theorem State.modSpire_porst (f : Spire → Spire) : (s.modSpire f).porst = s.porst := rfl
@[simp] theorem State.modSpire_dstate (f : Spire → Spire) : (s.modSpire f).dstate = s.dstate := rfl
@[simp] theorem State.modSpire_d2Pending (f : Spire → Spire) : (s.modSpire f).d2Pending = s.d2Pending := rfl
@[simp] theorem State.modSpire_fatal (f : Spire → Spire) : (s.modSpire f).fatal = s.fatal := rfl
@[simp] theorem State.modSpire_fatalAt (f : Spire → Spire) : (s.modSpire f).fatalAt = s.fatalAt := rfl
@[simp] theorem State.modSpire_now (f : Spire → Spire) : (s.modSpire f).now = s.now := rfl
@[simp] theorem State.modSpire_free (f : Spire → Spire) : (s.modSpire f).free = s.free := rfl
@[simp] theorem State.modSpire_readBack (f : Spire → Spire) : (s.modSpire f).readBack = s.readBack := rfl

@[simp] theorem State.modBlf_pending (f : Belfry → Belfry) : (s.modBlf f).pending = s.pending := rfl
@[simp] theorem State.modBlf_mem (f : Belfry → Belfry) : (s.modBlf f).mem = s.mem := rfl
@[simp] theorem State.modBlf_cores (f : Belfry → Belfry) : (s.modBlf f).cores = s.cores := rfl
@[simp] theorem State.modBlf_spire (f : Belfry → Belfry) : (s.modBlf f).spire = s.spire := rfl
@[simp] theorem State.modBlf_edges (f : Belfry → Belfry) : (s.modBlf f).edges = s.edges := rfl
@[simp] theorem State.modBlf_bronze (f : Belfry → Belfry) : (s.modBlf f).bronze = s.bronze := rfl
@[simp] theorem State.modBlf_blf (f : Belfry → Belfry) : (s.modBlf f).blf = f s.blf := rfl
@[simp] theorem State.modBlf_tap (f : Belfry → Belfry) : (s.modBlf f).tap = s.tap := rfl
@[simp] theorem State.modBlf_porst (f : Belfry → Belfry) : (s.modBlf f).porst = s.porst := rfl
@[simp] theorem State.modBlf_dstate (f : Belfry → Belfry) : (s.modBlf f).dstate = s.dstate := rfl
@[simp] theorem State.modBlf_d2Pending (f : Belfry → Belfry) : (s.modBlf f).d2Pending = s.d2Pending := rfl
@[simp] theorem State.modBlf_fatal (f : Belfry → Belfry) : (s.modBlf f).fatal = s.fatal := rfl
@[simp] theorem State.modBlf_fatalAt (f : Belfry → Belfry) : (s.modBlf f).fatalAt = s.fatalAt := rfl
@[simp] theorem State.modBlf_now (f : Belfry → Belfry) : (s.modBlf f).now = s.now := rfl
@[simp] theorem State.modBlf_free (f : Belfry → Belfry) : (s.modBlf f).free = s.free := rfl
@[simp] theorem State.modBlf_readBack (f : Belfry → Belfry) : (s.modBlf f).readBack = s.readBack := rfl

@[simp] theorem State.modBrz_pending (f : Bronze → Bronze) : (s.modBrz f).pending = s.pending := rfl
@[simp] theorem State.modBrz_mem (f : Bronze → Bronze) : (s.modBrz f).mem = s.mem := rfl
@[simp] theorem State.modBrz_cores (f : Bronze → Bronze) : (s.modBrz f).cores = s.cores := rfl
@[simp] theorem State.modBrz_spire (f : Bronze → Bronze) : (s.modBrz f).spire = s.spire := rfl
@[simp] theorem State.modBrz_edges (f : Bronze → Bronze) : (s.modBrz f).edges = s.edges := rfl
@[simp] theorem State.modBrz_bronze (f : Bronze → Bronze) : (s.modBrz f).bronze = f s.bronze := rfl
@[simp] theorem State.modBrz_blf (f : Bronze → Bronze) : (s.modBrz f).blf = s.blf := rfl
@[simp] theorem State.modBrz_tap (f : Bronze → Bronze) : (s.modBrz f).tap = s.tap := rfl
@[simp] theorem State.modBrz_porst (f : Bronze → Bronze) : (s.modBrz f).porst = s.porst := rfl
@[simp] theorem State.modBrz_dstate (f : Bronze → Bronze) : (s.modBrz f).dstate = s.dstate := rfl
@[simp] theorem State.modBrz_d2Pending (f : Bronze → Bronze) : (s.modBrz f).d2Pending = s.d2Pending := rfl
@[simp] theorem State.modBrz_fatal (f : Bronze → Bronze) : (s.modBrz f).fatal = s.fatal := rfl
@[simp] theorem State.modBrz_fatalAt (f : Bronze → Bronze) : (s.modBrz f).fatalAt = s.fatalAt := rfl
@[simp] theorem State.modBrz_now (f : Bronze → Bronze) : (s.modBrz f).now = s.now := rfl
@[simp] theorem State.modBrz_free (f : Bronze → Bronze) : (s.modBrz f).free = s.free := rfl
@[simp] theorem State.modBrz_readBack (f : Bronze → Bronze) : (s.modBrz f).readBack = s.readBack := rfl

@[simp] theorem State.modEdge_pending (e : EdgeId) (f : Edge → Edge) : (s.modEdge e f).pending = s.pending := rfl
@[simp] theorem State.modEdge_mem (e : EdgeId) (f : Edge → Edge) : (s.modEdge e f).mem = s.mem := rfl
@[simp] theorem State.modEdge_cores (e : EdgeId) (f : Edge → Edge) : (s.modEdge e f).cores = s.cores := rfl
@[simp] theorem State.modEdge_spire (e : EdgeId) (f : Edge → Edge) : (s.modEdge e f).spire = s.spire := rfl
@[simp] theorem State.modEdge_edges (e : EdgeId) (f : Edge → Edge) : (s.modEdge e f).edges = upd s.edges e f := rfl
@[simp] theorem State.modEdge_bronze (e : EdgeId) (f : Edge → Edge) : (s.modEdge e f).bronze = s.bronze := rfl
@[simp] theorem State.modEdge_blf (e : EdgeId) (f : Edge → Edge) : (s.modEdge e f).blf = s.blf := rfl
@[simp] theorem State.modEdge_tap (e : EdgeId) (f : Edge → Edge) : (s.modEdge e f).tap = s.tap := rfl
@[simp] theorem State.modEdge_porst (e : EdgeId) (f : Edge → Edge) : (s.modEdge e f).porst = s.porst := rfl
@[simp] theorem State.modEdge_dstate (e : EdgeId) (f : Edge → Edge) : (s.modEdge e f).dstate = s.dstate := rfl
@[simp] theorem State.modEdge_d2Pending (e : EdgeId) (f : Edge → Edge) : (s.modEdge e f).d2Pending = s.d2Pending := rfl
@[simp] theorem State.modEdge_fatal (e : EdgeId) (f : Edge → Edge) : (s.modEdge e f).fatal = s.fatal := rfl
@[simp] theorem State.modEdge_fatalAt (e : EdgeId) (f : Edge → Edge) : (s.modEdge e f).fatalAt = s.fatalAt := rfl
@[simp] theorem State.modEdge_now (e : EdgeId) (f : Edge → Edge) : (s.modEdge e f).now = s.now := rfl
@[simp] theorem State.modEdge_free (e : EdgeId) (f : Edge → Edge) : (s.modEdge e f).free = s.free := rfl
@[simp] theorem State.modEdge_readBack (e : EdgeId) (f : Edge → Edge) : (s.modEdge e f).readBack = s.readBack := rfl

@[simp] theorem State.modPort_pending (p : CtlPort) (f : PortState → PortState) : (s.modPort p f).pending = s.pending := rfl
@[simp] theorem State.modPort_mem (p : CtlPort) (f : PortState → PortState) : (s.modPort p f).mem = s.mem := rfl
@[simp] theorem State.modPort_cores (p : CtlPort) (f : PortState → PortState) : (s.modPort p f).cores = s.cores := rfl
@[simp] theorem State.modPort_spire (p : CtlPort) (f : PortState → PortState) : (s.modPort p f).spire = s.spire := rfl
@[simp] theorem State.modPort_edges (p : CtlPort) (f : PortState → PortState) : (s.modPort p f).edges = s.edges := rfl
@[simp] theorem State.modPort_bronze (p : CtlPort) (f : PortState → PortState) : (s.modPort p f).bronze = s.bronze := rfl
@[simp] theorem State.modPort_tap (p : CtlPort) (f : PortState → PortState) : (s.modPort p f).tap = s.tap := rfl
@[simp] theorem State.modPort_porst (p : CtlPort) (f : PortState → PortState) : (s.modPort p f).porst = s.porst := rfl
@[simp] theorem State.modPort_dstate (p : CtlPort) (f : PortState → PortState) : (s.modPort p f).dstate = s.dstate := rfl
@[simp] theorem State.modPort_d2Pending (p : CtlPort) (f : PortState → PortState) : (s.modPort p f).d2Pending = s.d2Pending := rfl
@[simp] theorem State.modPort_fatal (p : CtlPort) (f : PortState → PortState) : (s.modPort p f).fatal = s.fatal := rfl
@[simp] theorem State.modPort_fatalAt (p : CtlPort) (f : PortState → PortState) : (s.modPort p f).fatalAt = s.fatalAt := rfl
@[simp] theorem State.modPort_now (p : CtlPort) (f : PortState → PortState) : (s.modPort p f).now = s.now := rfl
@[simp] theorem State.modPort_free (p : CtlPort) (f : PortState → PortState) : (s.modPort p f).free = s.free := rfl
@[simp] theorem State.modPort_readBack (p : CtlPort) (f : PortState → PortState) : (s.modPort p f).readBack = s.readBack := rfl

@[simp] theorem State.setMem_pending (m : Memory) : (s.setMem m).pending = s.pending := rfl
@[simp] theorem State.setMem_mem (m : Memory) : (s.setMem m).mem = m := rfl
@[simp] theorem State.setMem_cores (m : Memory) : (s.setMem m).cores = s.cores := rfl
@[simp] theorem State.setMem_spire (m : Memory) : (s.setMem m).spire = s.spire := rfl
@[simp] theorem State.setMem_edges (m : Memory) : (s.setMem m).edges = s.edges := rfl
@[simp] theorem State.setMem_bronze (m : Memory) : (s.setMem m).bronze = s.bronze := rfl
@[simp] theorem State.setMem_blf (m : Memory) : (s.setMem m).blf = s.blf := rfl
@[simp] theorem State.setMem_tap (m : Memory) : (s.setMem m).tap = s.tap := rfl
@[simp] theorem State.setMem_porst (m : Memory) : (s.setMem m).porst = s.porst := rfl
@[simp] theorem State.setMem_dstate (m : Memory) : (s.setMem m).dstate = s.dstate := rfl
@[simp] theorem State.setMem_d2Pending (m : Memory) : (s.setMem m).d2Pending = s.d2Pending := rfl
@[simp] theorem State.setMem_fatal (m : Memory) : (s.setMem m).fatal = s.fatal := rfl
@[simp] theorem State.setMem_fatalAt (m : Memory) : (s.setMem m).fatalAt = s.fatalAt := rfl
@[simp] theorem State.setMem_now (m : Memory) : (s.setMem m).now = s.now := rfl
@[simp] theorem State.setMem_free (m : Memory) : (s.setMem m).free = s.free := rfl
@[simp] theorem State.setMem_readBack (m : Memory) : (s.setMem m).readBack = s.readBack := rfl

@[simp] theorem State.pass_pending (d : Nat) : (s.pass d).pending = s.pending := rfl
@[simp] theorem State.pass_mem (d : Nat) : (s.pass d).mem = s.mem := rfl
@[simp] theorem State.pass_cores (d : Nat) : (s.pass d).cores = vmap (Core.age d) s.cores := rfl
@[simp] theorem State.pass_spire (d : Nat) : (s.pass d).spire = s.spire := rfl
@[simp] theorem State.pass_edges (d : Nat) : (s.pass d).edges = s.edges := rfl
@[simp] theorem State.pass_bronze (d : Nat) : (s.pass d).bronze = s.bronze := rfl
@[simp] theorem State.pass_blf (d : Nat) : (s.pass d).blf = s.blf.tick d := rfl
@[simp] theorem State.pass_tap (d : Nat) : (s.pass d).tap = s.tap := rfl
@[simp] theorem State.pass_porst (d : Nat) : (s.pass d).porst = s.porst := rfl
@[simp] theorem State.pass_dstate (d : Nat) : (s.pass d).dstate = s.dstate := rfl
@[simp] theorem State.pass_d2Pending (d : Nat) : (s.pass d).d2Pending = s.d2Pending := rfl
@[simp] theorem State.pass_fatal (d : Nat) : (s.pass d).fatal = s.fatal := rfl
@[simp] theorem State.pass_fatalAt (d : Nat) : (s.pass d).fatalAt = s.fatalAt := rfl
@[simp] theorem State.pass_now (d : Nat) : (s.pass d).now = s.now + d := rfl
@[simp] theorem State.pass_free (d : Nat) : (s.pass d).free = s.free := rfl
@[simp] theorem State.pass_readBack (d : Nat) : (s.pass d).readBack = s.readBack := rfl

@[simp] theorem State.advanceTo_pending (t : Nat) : (s.advanceTo t).pending = s.pending := by unfold State.advanceTo; split <;> rfl
@[simp] theorem State.advanceTo_mem (t : Nat) : (s.advanceTo t).mem = s.mem := by unfold State.advanceTo; split <;> rfl
@[simp] theorem State.advanceTo_spire (t : Nat) : (s.advanceTo t).spire = s.spire := by unfold State.advanceTo; split <;> rfl
@[simp] theorem State.advanceTo_edges (t : Nat) : (s.advanceTo t).edges = s.edges := by unfold State.advanceTo; split <;> rfl
@[simp] theorem State.advanceTo_bronze (t : Nat) : (s.advanceTo t).bronze = s.bronze := by unfold State.advanceTo; split <;> rfl
@[simp] theorem State.advanceTo_tap (t : Nat) : (s.advanceTo t).tap = s.tap := by unfold State.advanceTo; split <;> rfl
@[simp] theorem State.advanceTo_porst (t : Nat) : (s.advanceTo t).porst = s.porst := by unfold State.advanceTo; split <;> rfl
@[simp] theorem State.advanceTo_dstate (t : Nat) : (s.advanceTo t).dstate = s.dstate := by unfold State.advanceTo; split <;> rfl
@[simp] theorem State.advanceTo_d2Pending (t : Nat) : (s.advanceTo t).d2Pending = s.d2Pending := by unfold State.advanceTo; split <;> rfl
@[simp] theorem State.advanceTo_fatal (t : Nat) : (s.advanceTo t).fatal = s.fatal := by unfold State.advanceTo; split <;> rfl
@[simp] theorem State.advanceTo_fatalAt (t : Nat) : (s.advanceTo t).fatalAt = s.fatalAt := by unfold State.advanceTo; split <;> rfl
@[simp] theorem State.advanceTo_free (t : Nat) : (s.advanceTo t).free = s.free := by unfold State.advanceTo; split <;> rfl
@[simp] theorem State.advanceTo_readBack (t : Nat) : (s.advanceTo t).readBack = s.readBack := by unfold State.advanceTo; split <;> rfl

/-- Advancing reaches the later of now and the moment. -/
theorem State.advanceTo_now (t : Nat) : (s.advanceTo t).now = max s.now t := by
  unfold State.advanceTo; split
  · simp only [State.pass_now]; omega
  · omega

/-- An entry after one entry was changed. -/
theorem getElem_upd {α : Type} {n : Nat} (v : Vector α n) (i j : Fin n) (f : α → α) : (upd v i f)[j] = if j = i then f v[j] else v[j] := by
  simp only [upd, Fin.getElem_fin, Vector.getElem_set, Fin.ext_iff]
  by_cases h : i.val = j.val
  · simp [h]
  · have h' : ¬ j.val = i.val := fun x => h x.symm
    simp [h, h']

theorem upd_same {α : Type} {n : Nat} (v : Vector α n) (i : Fin n) (f : α → α) : (upd v i f)[i] = f v[i] := by
  rw [getElem_upd]; simp

/-- `upd_same` in simp's spelling of the index. -/
@[simp] theorem upd_get {α : Type} {n : Nat} (v : Vector α n) (i : Fin n) (f : α → α) : (upd v i f)[i.val] = f v[i.val] := upd_same v i f

theorem upd_other {α : Type} {n : Nat} (v : Vector α n) (i j : Fin n) (f : α → α) (h : j ≠ i) : (upd v i f)[j] = v[j] := by
  rw [getElem_upd]; simp [h]

/-- An entry after every entry was changed. -/
@[simp] theorem getElem_vmap {α β : Type} {n : Nat} (f : α → β) (v : Vector α n) (i : Nat) (h : i < n) : (vmap f v)[i] = f v[i] := by
  simp [vmap]

@[simp] theorem State.core_modCore (c : CoreId) (f : Core → Core) : (s.modCore c f).core c = f (s.core c) := upd_same s.cores c f

theorem State.core_modCore_other (c d : CoreId) (f : Core → Core) (h : d ≠ c) : (s.modCore c f).core d = s.core d := upd_other s.cores c d f h

@[simp] theorem State.eng_modEng (c : CoreId) (e : EngId) (f : Engine → Engine) : (s.modEng c e f).eng c e = f (s.eng c e) := by
  simp [State.eng, State.modEng]

theorem State.eng_modEng_other (c : CoreId) (e x : EngId) (f : Engine → Engine) (h : x ≠ e) : (s.modEng c e f).eng c x = s.eng c x := by
  simp only [State.eng, State.modEng, State.core_modCore]; exact upd_other _ e x f h

@[simp] theorem State.group_modGroup (c : CoreId) (e : EngId) (g : GroupId) (f : Group → Group) :
    (s.modGroup c e g f).group c e g = f (s.group c e g) := by
  simp [State.group, State.modGroup]

@[simp] theorem State.core_modEng (c : CoreId) (e : EngId) (f : Engine → Engine) :
    (s.modEng c e f).core c = { s.core c with eng := upd (s.core c).eng e f } := State.core_modCore s c _

@[simp] theorem State.core_modVec (c : CoreId) (f : VecEngine → VecEngine) : (s.modVec c f).core c = { s.core c with vec := f (s.core c).vec } :=
  State.core_modCore s c _

@[simp] theorem State.core_modMov (c : CoreId) (f : Mover → Mover) : (s.modMov c f).core c = { s.core c with mov := f (s.core c).mov } :=
  State.core_modCore s c _

@[simp] theorem State.core_modSeq (c : CoreId) (f : Sequencer → Sequencer) : (s.modSeq c f).core c = { s.core c with seq := f (s.core c).seq } :=
  State.core_modCore s c _

@[simp] theorem State.port_modPort (p : CtlPort) (f : PortState → PortState) : (s.modPort p f).port p = f (s.port p) :=
  upd_same s.blf.ports (portIdx p) f

@[simp] theorem State.port_modPort_other (p : CtlPort) (f : PortState → PortState) : (s.modPort p f).port (otherPort p) = s.port (otherPort p) :=
  upd_other s.blf.ports (portIdx p) (portIdx (otherPort p)) f (by cases p <;> decide)

theorem State.edge_modEdge (e : EdgeId) (f : Edge → Edge) : (s.modEdge e f).edges[e] = f s.edges[e] := upd_same s.edges e f

theorem State.edge_modEdge_other (e x : EdgeId) (f : Edge → Edge) (h : x ≠ e) : (s.modEdge e f).edges[x] = s.edges[x] := upd_other s.edges e x f h

/-- Setting twice keeps the later memory. -/
@[simp] theorem State.setMem_setMem (m n : Memory) : (s.setMem m).setMem n = s.setMem n := rfl

end Sys2Proof.Machine
end

