-- ==== Sys2Proof/Laws/Memory.lean ====
section
/-! SUPPORT. The SRAM's operations: each keeps the canonical form; a byte read after a write is the one written, and every other byte and mark is
as before. -/

namespace Sys2Proof.Machine

/-! ### Lists in rising order -/

section Rising

variable {α : Type} (key : α → Nat)

/-- In a rising list the entries below a key come first. -/
theorem takeWhile_rising (k : Nat) : ∀ l : List α, l.Pairwise (fun x y => key x < key y) →
    l.takeWhile (fun x => decide (key x < k)) = l.filter fun x => decide (key x < k)
  | [], _ => rfl
  | x :: l, h => by
    rw [List.pairwise_cons] at h
    by_cases hx : key x < k
    · simp [hx, takeWhile_rising k l h.2]
    · have : l.filter (fun x => decide (key x < k)) = [] := by
        rw [List.filter_eq_nil_iff]; intro y hy; have := h.1 y hy; simp; omega
      simp [hx, this]

/-- … and the others after them. -/
theorem dropWhile_rising (k : Nat) : ∀ l : List α, l.Pairwise (fun x y => key x < key y) →
    l.dropWhile (fun x => decide (key x < k)) = l.filter fun x => !decide (key x < k)
  | [], _ => rfl
  | x :: l, h => by
    rw [List.pairwise_cons] at h
    by_cases hx : key x < k
    · simp [hx, dropWhile_rising k l h.2]
    · have : l.filter (fun x => !decide (key x < k)) = l := by
        rw [List.filter_eq_self]; intro y hy; have := h.1 y hy; simp; omega
      rw [List.dropWhile_cons_of_neg (by simpa using hx), List.filter_cons_of_pos (by simpa using hx), this]

/-- A rising list whose middle, the keys from `a` to before `b`, is replaced by a rising list of such keys still rises. -/
theorem splice_rising (a b : Nat) (hab : a ≤ b) (l m : List α) (h : l.Pairwise (fun x y => key x < key y)) (hm : m.Pairwise (fun x y => key x < key y))
    (hr : ∀ x ∈ m, a ≤ key x ∧ key x < b) :
    (l.takeWhile (fun x => decide (key x < a)) ++ (m ++ l.dropWhile (fun x => decide (key x < b)))).Pairwise (fun x y => key x < key y) := by
  rw [takeWhile_rising key a l h, dropWhile_rising key b l h, List.pairwise_append, List.pairwise_append]
  refine ⟨h.filter _, ⟨hm, h.filter _, ?_⟩, ?_⟩
  · intro x hx y hy; have := hr x hx; simp at hy; omega
  · intro x hx y hy; simp at hx hy
    rcases hy with hy | hy
    · have := hr y hy; omega
    · omega

/-- What the spliced list holds. -/
theorem mem_splice (a b : Nat) (l m : List α) (h : l.Pairwise (fun x y => key x < key y)) (x : α) :
    x ∈ l.takeWhile (fun x => decide (key x < a)) ++ (m ++ l.dropWhile (fun x => decide (key x < b)))
      ↔ (x ∈ l ∧ key x < a) ∨ x ∈ m ∨ (x ∈ l ∧ b ≤ key x) := by
  rw [takeWhile_rising key a l h, dropWhile_rising key b l h]; simp

end Rising

/-- The four parts of the canonical form. -/
theorem Memory.wf_iff (m : Memory) : m.wf = true ↔ m.cells.Pairwise (fun x y => x.1 < y.1) ∧ (∀ x ∈ m.cells, x.2 ≠ 0)
    ∧ m.poison.Pairwise (fun x y => x < y) ∧ m.upsets.Pairwise (fun x y => x.1 < y.1) := by
  simp [Memory.wf, and_assoc]

/-- In a canonical memory the listed bytes are the ones that are not 0. -/
theorem Memory.mem_cells (m : Memory) (h : m.wf = true) (a : Nat) (b : Byte) : (a, b) ∈ m.cells ↔ m.byteAt a = b ∧ b ≠ 0 := by
  rw [Memory.wf_iff] at h
  unfold Memory.byteAt
  split
  case h_2 hf =>
    rw [List.find?_eq_none] at hf
    constructor
    · intro hb; exact absurd (hf _ hb) (by simp)
    · rintro ⟨rfl, hb⟩; exact absurd rfl hb
  case h_1 x hf =>
    obtain ⟨k, c⟩ := x
    have hk : k = a := by have := List.find?_some hf; simpa using this
    subst hk
    have hc := List.mem_of_find?_eq_some hf
    constructor
    · intro hb
      have : c = b := by
        by_contra hne
        rcases List.getElem_of_mem hb with ⟨i, hi, ei⟩
        rcases List.getElem_of_mem hc with ⟨j, hj, ej⟩
        have hp := List.pairwise_iff_getElem.mp h.1
        rcases Nat.lt_trichotomy i j with hij | hij | hij
        · have := hp i j hi hj hij; simp [ei, ej] at this
        · subst hij; rw [ei] at ej; cases ej; exact hne rfl
        · have := hp j i hj hi hij; simp [ei, ej] at this
      subst this; exact ⟨rfl, h.2.1 _ hb⟩
    · rintro ⟨q, _⟩; simp only at q; subst q; exact hc

/-- Two canonical memories whose listed bytes agree at `a` read alike there. -/
theorem Memory.byteAt_congr (m n : Memory) (hm : m.wf = true) (hn : n.wf = true) (a : Nat) (h : ∀ b, (a, b) ∈ m.cells ↔ (a, b) ∈ n.cells) :
    m.byteAt a = n.byteAt a := by
  by_cases hz : m.byteAt a = 0
  · by_cases hy : n.byteAt a = 0
    · rw [hz, hy]
    · exact ((Memory.mem_cells m hm a _).mp ((h _).mpr ((Memory.mem_cells n hn a _).mpr ⟨rfl, hy⟩))).1
  · exact (((Memory.mem_cells n hn a _).mp ((h _).mp ((Memory.mem_cells m hm a _).mpr ⟨rfl, hz⟩))).1).symm

/-! ### Bytes written -/

/-- The listed bytes of a write lie in it, and rise. -/
theorem mem_fresh (x : Host.Cell) : ∀ (bs : List Byte) (a : Nat), x ∈ fresh a bs ↔ a ≤ x.1 ∧ x.1 < a + bs.length ∧ bs[x.1 - a]? = some x.2 ∧ x.2 ≠ 0
  | [], a => by simp [fresh]
  | b :: bs, a => by
    have ih := mem_fresh x bs (a + 1)
    by_cases hx : x.1 = a
    · have : ¬ (a + 1 ≤ x.1) := by omega
      by_cases hb : b = 0
      · simp only [fresh, hb, if_true, ih]; simp [hx]
        intro h; exact h.symm
      · simp only [fresh, hb, if_false, List.mem_cons, ih]
        rcases x with ⟨k, c⟩
        simp at hx; subst hx
        simp
        constructor
        · rintro rfl; exact ⟨rfl, hb⟩
        · rintro ⟨rfl, _⟩; rfl
    · have e : a ≤ x.1 → ∃ j, x.1 = a + 1 + j := fun h => ⟨x.1 - (a + 1), by omega⟩
      have key : (a + 1 ≤ x.1 ∧ x.1 < a + 1 + bs.length ∧ bs[x.1 - (a + 1)]? = some x.2 ∧ x.2 ≠ 0)
          ↔ (a ≤ x.1 ∧ x.1 < a + (b :: bs).length ∧ (b :: bs)[x.1 - a]? = some x.2 ∧ x.2 ≠ 0) := by
        by_cases ha : a ≤ x.1
        · obtain ⟨j, hj⟩ := e ha
          have h1 : x.1 - (a + 1) = j := by omega
          have h2 : x.1 - a = j + 1 := by omega
          rw [h1, h2, List.getElem?_cons_succ, List.length_cons]
          constructor
          · rintro ⟨_, p, q⟩; exact ⟨ha, by omega, q⟩
          · rintro ⟨_, p, q⟩; exact ⟨by omega, by omega, q⟩
        · constructor
          · rintro ⟨p, _⟩; omega
          · rintro ⟨p, _⟩; omega
      have hne : x ≠ (a, b) := fun h => hx (by rw [h])
      by_cases hb : b = 0
      · simp only [fresh, hb, if_true]; rw [hb] at key; rw [ih, key]
      · simp only [fresh, hb, if_false, List.mem_cons, hne, false_or, ih, key]

theorem fresh_rising : ∀ (bs : List Byte) (a : Nat), (fresh a bs).Pairwise fun x y => x.1 < y.1
  | [], _ => List.Pairwise.nil
  | b :: bs, a => by
    unfold fresh; split
    · exact fresh_rising bs (a + 1)
    · rw [List.pairwise_cons]
      exact ⟨fun y hy => by have := (mem_fresh y bs (a + 1)).mp hy; simp only; omega, fresh_rising bs (a + 1)⟩

/-- A write of bytes keeps the canonical form. -/
theorem Memory.put_wf (m : Memory) (a : Nat) (bs : List Byte) (h : m.wf = true) : (m.put a bs).wf = true := by
  rw [Memory.wf_iff] at h ⊢
  refine ⟨splice_rising Prod.fst a (a + bs.length) (by omega) _ _ h.1 (fresh_rising bs a) ?_, ?_, h.2.2⟩
  · intro x hx; have := (mem_fresh x bs a).mp hx; omega
  · intro x hx
    rcases (mem_splice Prod.fst a (a + bs.length) _ _ h.1 x).mp hx with hx | hx | hx
    · exact h.2.1 x hx.1
    · exact ((mem_fresh x bs a).mp hx).2.2.2
    · exact h.2.1 x hx.1

/-- Read after write: a written byte reads as written, any other as before. -/
theorem Memory.byteAt_put (m : Memory) (a : Nat) (bs : List Byte) (h : m.wf = true) (b : Nat) :
    (m.put a bs).byteAt b = if a ≤ b ∧ b < a + bs.length then bs.getD (b - a) 0 else m.byteAt b := by
  have hp := Memory.put_wf m a bs h
  have hs := ((Memory.wf_iff m).mp h).1
  have cells : ∀ c, (b, c) ∈ (m.put a bs).cells ↔ ((b, c) ∈ m.cells ∧ b < a) ∨ (b, c) ∈ fresh a bs ∨ ((b, c) ∈ m.cells ∧ a + bs.length ≤ b) :=
    fun c => mem_splice Prod.fst a (a + bs.length) _ _ hs (b, c)
  split
  case isTrue hb =>
    have hlt : b - a < bs.length := by omega
    rw [List.getD_eq_getElem?_getD, List.getElem?_eq_getElem hlt, Option.getD_some]
    by_cases hz : bs[b - a] = 0
    · rw [hz]; by_contra hne
      rcases (cells _).mp ((Memory.mem_cells _ hp b _).mpr ⟨rfl, hne⟩) with q | q | q
      · omega
      · have := ((mem_fresh _ bs a).mp q).2.2.1
        simp only [List.getElem?_eq_getElem hlt, Option.some.injEq] at this
        exact hne (by rw [← this, hz])
      · omega
    · refine ((Memory.mem_cells _ hp b _).mp ((cells _).mpr (Or.inr (Or.inl ?_)))).1
      rw [mem_fresh]; exact ⟨hb.1, hb.2, List.getElem?_eq_getElem hlt, hz⟩
  case isFalse hb =>
    refine Memory.byteAt_congr _ _ hp h b fun c => ?_
    rw [cells c]
    constructor
    · rintro (q | q | q)
      · exact q.1
      · have := (mem_fresh _ bs a).mp q; simp only at this; omega
      · exact q.1
    · intro q; rcases Nat.lt_or_ge b a with hl | hl
      · exact Or.inl ⟨q, hl⟩
      · exact Or.inr (Or.inr ⟨q, by omega⟩)

/-- Expanding rising cells reads each byte. -/
theorem expand_get : ∀ (n a : Nat) (l : List Host.Cell), l.Pairwise (fun x y => x.1 < y.1) → (∀ x ∈ l, a ≤ x.1) →
    expand n a l = (List.range n).map fun i => match l.find? (fun x => x.1 == a + i) with | some x => x.2 | none => 0
  | 0, _, _, _, _ => rfl
  | n + 1, a, [], _, _ => by
    rw [List.range_succ_eq_map, List.map_cons, List.map_map, expand, expand_get n (a + 1) [] List.Pairwise.nil (by simp)]
    rfl
  | n + 1, a, (k, b) :: r, hp, ha => by
    rw [List.pairwise_cons] at hp
    have hk : a ≤ k := ha (k, b) (by simp)
    rw [List.range_succ_eq_map, List.map_cons, List.map_map, expand]
    by_cases h : k = a
    · subst h
      rw [if_pos rfl, expand_get n (k + 1) r hp.2 (fun x hx => by have := hp.1 x hx; simp only at this; omega)]
      congr 1
      · simp
      · apply List.map_congr_left; intro i _
        have : ¬ (k = k + (i + 1)) := by omega
        simp [Nat.add_assoc, Nat.add_comm 1 i]
    · rw [if_neg h, expand_get n (a + 1) ((k, b) :: r) (List.pairwise_cons.mpr hp) (fun x hx => by
        rcases List.mem_cons.mp hx with rfl | hx
        · simp only; omega
        · have := hp.1 x hx; simp only at this; omega)]
      congr 1
      · have : ((k, b) :: r).find? (fun x => x.1 == a + 0) = none := by
          rw [List.find?_eq_none]; intro x hx
          rcases List.mem_cons.mp hx with rfl | hx
          · simpa using h
          · have := hp.1 x hx; simp only at this; simp; omega
        rw [this]
      · apply List.map_congr_left; intro i _
        simp [Nat.add_assoc, Nat.add_comm 1 i]

/-- A load of a canonical memory reads each byte. -/
theorem Memory.load_eq (m : Memory) (h : m.wf = true) (a n : Nat) : m.load a n = (List.range n).map fun i => m.byteAt (a + i) := by
  have hs := ((Memory.wf_iff m).mp h).1
  unfold Memory.load
  have hd := hs.filter (fun x => !decide (x.1 < a))
  rw [dropWhile_rising Prod.fst a _ hs, takeWhile_rising Prod.fst (a + n) _ hd, expand_get n a _ (hd.filter _) (by simp)]
  apply List.map_congr_left; intro i hi
  have hi : i < n := by simpa using hi
  unfold Memory.byteAt
  rw [List.find?_filter, List.find?_filter]
  have : (fun x : Host.Cell => decide ((!decide (x.1 < a)) = true ∧ decide (decide (x.1 < a + n) = true ∧ (x.1 == a + i) = true) = true)) = fun x => x.1 == a + i := by
    funext x; by_cases hx : x.1 = a + i
    · simp [hx, hi]
    · simp [hx]
  rw [this]
  all_goals (cases m.cells.find? (fun x => x.1 == a + i) <;> rfl)

/-! ### Marks -/

/-- Setting marks keeps the canonical form. -/
theorem Memory.mark_wf (m : Memory) (w n : Nat) (f : Nat → Bool) (h : m.wf = true) : (m.mark w n f).wf = true := by
  rw [Memory.wf_iff] at h ⊢
  refine ⟨h.1, h.2.1, splice_rising id w (w + n) (by omega) _ _ h.2.2.1 ?_ ?_, h.2.2.2⟩
  · exact (List.pairwise_lt_range' (s := w) (n := n)).filter _
  · intro x hx; simp at hx; simp only [id]; omega

/-- A mark set reads as set, any other as before. -/
theorem Memory.marked_mark (m : Memory) (w n : Nat) (f : Nat → Bool) (h : m.wf = true) (k : Nat) :
    (m.mark w n f).marked k = if w ≤ k ∧ k < w + n then f k else m.marked k := by
  have hp := ((Memory.wf_iff m).mp h).2.2.1
  have e : (m.mark w n f).marked k = true ↔ (m.marked k = true ∧ k < w) ∨ ((w ≤ k ∧ k < w + n) ∧ f k = true) ∨ (m.marked k = true ∧ w + n ≤ k) := by
    unfold Memory.marked
    rw [List.contains_iff_mem, List.contains_iff_mem]
    have := mem_splice id w (w + n) m.poison ((List.range' w n).filter f) hp k
    simp only [id, List.mem_filter, List.mem_range'_1] at this
    exact this
  rw [Bool.eq_iff_iff, e]
  split
  · constructor
    · rintro (q | q | q)
      · omega
      · exact q.2
      · omega
    · intro q; exact Or.inr (Or.inl ⟨by assumption, q⟩)
  · constructor
    · rintro (q | q | q)
      · exact q.1
      · exact absurd q.1 (by assumption)
      · exact q.1
    · intro q
      by_cases hk : k < w
      · exact Or.inl ⟨q, hk⟩
      · exact Or.inr (Or.inr ⟨q, by omega⟩)

@[simp] theorem Memory.byteAt_mark (m : Memory) (w n : Nat) (f : Nat → Bool) (b : Nat) : (m.mark w n f).byteAt b = m.byteAt b := rfl

@[simp] theorem Memory.marked_put (m : Memory) (a : Nat) (bs : List Byte) (k : Nat) : (m.put a bs).marked k = m.marked k := rfl

/-! ### Stores and clearing -/

/-- A store keeps the canonical form. -/
theorem Memory.store_wf (m : Memory) (a : Nat) (bs : List Byte) (f : Nat → Bool) (h : m.wf = true) : (m.store a bs f).wf = true := by
  have h1 := (Memory.wf_iff _).mp (Memory.mark_wf _ (a / 8) (wordSpan a bs.length)
    (fun w => f w || (!(a ≤ 8 * w && 8 * w + 8 ≤ a + bs.length) && m.marked w)) (Memory.put_wf m a bs h))
  rw [Memory.wf_iff]
  exact ⟨h1.1, h1.2.1, h1.2.2.1, h1.2.2.2.filter _⟩

/-- Read after store. -/
theorem Memory.byteAt_store (m : Memory) (a : Nat) (bs : List Byte) (f : Nat → Bool) (h : m.wf = true) (b : Nat) :
    (m.store a bs f).byteAt b = if a ≤ b ∧ b < a + bs.length then bs.getD (b - a) 0 else m.byteAt b := Memory.byteAt_put m a bs h b

/-- The marks after a store (R236): a word wholly covered takes its data's, one covered in part joins it with its own. -/
theorem Memory.marked_store (m : Memory) (a : Nat) (bs : List Byte) (f : Nat → Bool) (h : m.wf = true) (k : Nat) :
    (m.store a bs f).marked k = if a / 8 ≤ k ∧ k < a / 8 + wordSpan a bs.length
      then f k || (!(a ≤ 8 * k && 8 * k + 8 ≤ a + bs.length) && m.marked k) else m.marked k :=
  Memory.marked_mark (m.put a bs) (a / 8) (wordSpan a bs.length) _ (Memory.put_wf m a bs h) k

/-- Clearing keeps the canonical form. -/
theorem Memory.clear_wf (m : Memory) (a n : Nat) (h : m.wf = true) : (m.clear a n).wf = true := by
  rw [Memory.wf_iff] at h ⊢
  exact ⟨h.1.filter _, fun x hx => h.2.1 x (List.mem_of_mem_filter hx), h.2.2.1.filter _, h.2.2.2.filter _⟩

/-- A cleared byte reads 0, any other as before. -/
theorem Memory.byteAt_clear (m : Memory) (a n : Nat) (h : m.wf = true) (b : Nat) :
    (m.clear a n).byteAt b = if a ≤ b ∧ b < a + n then 0 else m.byteAt b := by
  have hc := Memory.clear_wf m a n h
  have cells : ∀ c, (b, c) ∈ (m.clear a n).cells ↔ (b, c) ∈ m.cells ∧ (b < a ∨ a + n ≤ b) := by
    intro c; simp [Memory.clear]
  split
  case isTrue hb =>
    by_contra hne
    have := (cells _).mp ((Memory.mem_cells _ hc b _).mpr ⟨rfl, hne⟩); omega
  case isFalse hb =>
    refine Memory.byteAt_congr _ _ hc h b fun c => ?_
    rw [cells c]; exact ⟨fun q => q.1, fun q => ⟨q, by omega⟩⟩

/-- The empty memory is canonical and reads 0 everywhere. -/
theorem Memory.empty_wf : Memory.empty.wf = true := by decide

@[simp] theorem Memory.byteAt_empty (a : Nat) : Memory.empty.byteAt a = 0 := rfl

end Sys2Proof.Machine
end

