-- ==== Sys2Proof/Laws/Ops.lean ====
section
/-! SUPPORT. What the shared operations can change: logging and events the Belfry alone, freezing and bells the cores alone, reading damaged words the
SRAM's marks and the Belfry; and what each says of the part it changes. -/

namespace Sys2Proof.Machine

variable (s : State)

/-! Queueing an event changes the Belfry alone. -/

@[simp] theorem State.postEvent_pending (p : CtlPort) (code : Nat) (data : List Byte) : (s.postEvent p code data).pending = s.pending := by
  rfl
@[simp] theorem State.postEvent_mem (p : CtlPort) (code : Nat) (data : List Byte) : (s.postEvent p code data).mem = s.mem := by
  rfl
@[simp] theorem State.postEvent_cores (p : CtlPort) (code : Nat) (data : List Byte) : (s.postEvent p code data).cores = s.cores := by
  rfl
@[simp] theorem State.postEvent_spire (p : CtlPort) (code : Nat) (data : List Byte) : (s.postEvent p code data).spire = s.spire := by
  rfl
@[simp] theorem State.postEvent_edges (p : CtlPort) (code : Nat) (data : List Byte) : (s.postEvent p code data).edges = s.edges := by
  rfl
@[simp] theorem State.postEvent_bronze (p : CtlPort) (code : Nat) (data : List Byte) : (s.postEvent p code data).bronze = s.bronze := by
  rfl
@[simp] theorem State.postEvent_tap (p : CtlPort) (code : Nat) (data : List Byte) : (s.postEvent p code data).tap = s.tap := by
  rfl
@[simp] theorem State.postEvent_porst (p : CtlPort) (code : Nat) (data : List Byte) : (s.postEvent p code data).porst = s.porst := by
  rfl
@[simp] theorem State.postEvent_dstate (p : CtlPort) (code : Nat) (data : List Byte) : (s.postEvent p code data).dstate = s.dstate := by
  rfl
@[simp] theorem State.postEvent_d2Pending (p : CtlPort) (code : Nat) (data : List Byte) : (s.postEvent p code data).d2Pending = s.d2Pending := by
  rfl
@[simp] theorem State.postEvent_fatal (p : CtlPort) (code : Nat) (data : List Byte) : (s.postEvent p code data).fatal = s.fatal := by
  rfl
@[simp] theorem State.postEvent_fatalAt (p : CtlPort) (code : Nat) (data : List Byte) : (s.postEvent p code data).fatalAt = s.fatalAt := by
  rfl
@[simp] theorem State.postEvent_now (p : CtlPort) (code : Nat) (data : List Byte) : (s.postEvent p code data).now = s.now := by
  rfl
@[simp] theorem State.postEvent_free (p : CtlPort) (code : Nat) (data : List Byte) : (s.postEvent p code data).free = s.free := by
  rfl
@[simp] theorem State.postEvent_readBack (p : CtlPort) (code : Nat) (data : List Byte) : (s.postEvent p code data).readBack = s.readBack := by
  rfl

/-! … for both ports. -/

@[simp] theorem State.postBoth_pending (code : Nat) (data : List Byte) : (s.postBoth code data).pending = s.pending := by
  rfl
@[simp] theorem State.postBoth_mem (code : Nat) (data : List Byte) : (s.postBoth code data).mem = s.mem := by
  rfl
@[simp] theorem State.postBoth_cores (code : Nat) (data : List Byte) : (s.postBoth code data).cores = s.cores := by
  rfl
@[simp] theorem State.postBoth_spire (code : Nat) (data : List Byte) : (s.postBoth code data).spire = s.spire := by
  rfl
@[simp] theorem State.postBoth_edges (code : Nat) (data : List Byte) : (s.postBoth code data).edges = s.edges := by
  rfl
@[simp] theorem State.postBoth_bronze (code : Nat) (data : List Byte) : (s.postBoth code data).bronze = s.bronze := by
  rfl
@[simp] theorem State.postBoth_tap (code : Nat) (data : List Byte) : (s.postBoth code data).tap = s.tap := by
  rfl
@[simp] theorem State.postBoth_porst (code : Nat) (data : List Byte) : (s.postBoth code data).porst = s.porst := by
  rfl
@[simp] theorem State.postBoth_dstate (code : Nat) (data : List Byte) : (s.postBoth code data).dstate = s.dstate := by
  rfl
@[simp] theorem State.postBoth_d2Pending (code : Nat) (data : List Byte) : (s.postBoth code data).d2Pending = s.d2Pending := by
  rfl
@[simp] theorem State.postBoth_fatal (code : Nat) (data : List Byte) : (s.postBoth code data).fatal = s.fatal := by
  rfl
@[simp] theorem State.postBoth_fatalAt (code : Nat) (data : List Byte) : (s.postBoth code data).fatalAt = s.fatalAt := by
  rfl
@[simp] theorem State.postBoth_now (code : Nat) (data : List Byte) : (s.postBoth code data).now = s.now := by
  rfl
@[simp] theorem State.postBoth_free (code : Nat) (data : List Byte) : (s.postBoth code data).free = s.free := by
  rfl
@[simp] theorem State.postBoth_readBack (code : Nat) (data : List Byte) : (s.postBoth code data).readBack = s.readBack := by
  rfl

/-! Logging a fault changes the Belfry alone. -/

@[simp] theorem State.logTo_pending (both : Bool) (i : FaultInfo) : (s.logTo both i).pending = s.pending := by
  unfold State.logTo; dsimp only; split <;> rfl
@[simp] theorem State.logTo_mem (both : Bool) (i : FaultInfo) : (s.logTo both i).mem = s.mem := by
  unfold State.logTo; dsimp only; split <;> rfl
@[simp] theorem State.logTo_cores (both : Bool) (i : FaultInfo) : (s.logTo both i).cores = s.cores := by
  unfold State.logTo; dsimp only; split <;> rfl
@[simp] theorem State.logTo_spire (both : Bool) (i : FaultInfo) : (s.logTo both i).spire = s.spire := by
  unfold State.logTo; dsimp only; split <;> rfl
@[simp] theorem State.logTo_edges (both : Bool) (i : FaultInfo) : (s.logTo both i).edges = s.edges := by
  unfold State.logTo; dsimp only; split <;> rfl
@[simp] theorem State.logTo_bronze (both : Bool) (i : FaultInfo) : (s.logTo both i).bronze = s.bronze := by
  unfold State.logTo; dsimp only; split <;> rfl
@[simp] theorem State.logTo_tap (both : Bool) (i : FaultInfo) : (s.logTo both i).tap = s.tap := by
  unfold State.logTo; dsimp only; split <;> rfl
@[simp] theorem State.logTo_porst (both : Bool) (i : FaultInfo) : (s.logTo both i).porst = s.porst := by
  unfold State.logTo; dsimp only; split <;> rfl
@[simp] theorem State.logTo_dstate (both : Bool) (i : FaultInfo) : (s.logTo both i).dstate = s.dstate := by
  unfold State.logTo; dsimp only; split <;> rfl
@[simp] theorem State.logTo_d2Pending (both : Bool) (i : FaultInfo) : (s.logTo both i).d2Pending = s.d2Pending := by
  unfold State.logTo; dsimp only; split <;> rfl
@[simp] theorem State.logTo_fatal (both : Bool) (i : FaultInfo) : (s.logTo both i).fatal = s.fatal := by
  unfold State.logTo; dsimp only; split <;> rfl
@[simp] theorem State.logTo_fatalAt (both : Bool) (i : FaultInfo) : (s.logTo both i).fatalAt = s.fatalAt := by
  unfold State.logTo; dsimp only; split <;> rfl
@[simp] theorem State.logTo_now (both : Bool) (i : FaultInfo) : (s.logTo both i).now = s.now := by
  unfold State.logTo; dsimp only; split <;> rfl
@[simp] theorem State.logTo_free (both : Bool) (i : FaultInfo) : (s.logTo both i).free = s.free := by
  unfold State.logTo; dsimp only; split <;> rfl
@[simp] theorem State.logTo_readBack (both : Bool) (i : FaultInfo) : (s.logTo both i).readBack = s.readBack := by
  unfold State.logTo; dsimp only; split <;> rfl

/-! Logging under the general routing. -/

@[simp] theorem State.log_pending (i : FaultInfo) : (s.log i).pending = s.pending := by
  simp [State.log]
@[simp] theorem State.log_mem (i : FaultInfo) : (s.log i).mem = s.mem := by
  simp [State.log]
@[simp] theorem State.log_cores (i : FaultInfo) : (s.log i).cores = s.cores := by
  simp [State.log]
@[simp] theorem State.log_spire (i : FaultInfo) : (s.log i).spire = s.spire := by
  simp [State.log]
@[simp] theorem State.log_edges (i : FaultInfo) : (s.log i).edges = s.edges := by
  simp [State.log]
@[simp] theorem State.log_bronze (i : FaultInfo) : (s.log i).bronze = s.bronze := by
  simp [State.log]
@[simp] theorem State.log_tap (i : FaultInfo) : (s.log i).tap = s.tap := by
  simp [State.log]
@[simp] theorem State.log_porst (i : FaultInfo) : (s.log i).porst = s.porst := by
  simp [State.log]
@[simp] theorem State.log_dstate (i : FaultInfo) : (s.log i).dstate = s.dstate := by
  simp [State.log]
@[simp] theorem State.log_d2Pending (i : FaultInfo) : (s.log i).d2Pending = s.d2Pending := by
  simp [State.log]
@[simp] theorem State.log_fatal (i : FaultInfo) : (s.log i).fatal = s.fatal := by
  simp [State.log]
@[simp] theorem State.log_fatalAt (i : FaultInfo) : (s.log i).fatalAt = s.fatalAt := by
  simp [State.log]
@[simp] theorem State.log_now (i : FaultInfo) : (s.log i).now = s.now := by
  simp [State.log]
@[simp] theorem State.log_free (i : FaultInfo) : (s.log i).free = s.free := by
  simp [State.log]
@[simp] theorem State.log_readBack (i : FaultInfo) : (s.log i).readBack = s.readBack := by
  simp [State.log]

/-! Counting without logging. -/

@[simp] theorem State.countOnly_pending (i : FaultInfo) : (s.countOnly i).pending = s.pending := by
  rfl
@[simp] theorem State.countOnly_mem (i : FaultInfo) : (s.countOnly i).mem = s.mem := by
  rfl
@[simp] theorem State.countOnly_cores (i : FaultInfo) : (s.countOnly i).cores = s.cores := by
  rfl
@[simp] theorem State.countOnly_spire (i : FaultInfo) : (s.countOnly i).spire = s.spire := by
  rfl
@[simp] theorem State.countOnly_edges (i : FaultInfo) : (s.countOnly i).edges = s.edges := by
  rfl
@[simp] theorem State.countOnly_bronze (i : FaultInfo) : (s.countOnly i).bronze = s.bronze := by
  rfl
@[simp] theorem State.countOnly_tap (i : FaultInfo) : (s.countOnly i).tap = s.tap := by
  rfl
@[simp] theorem State.countOnly_porst (i : FaultInfo) : (s.countOnly i).porst = s.porst := by
  rfl
@[simp] theorem State.countOnly_dstate (i : FaultInfo) : (s.countOnly i).dstate = s.dstate := by
  rfl
@[simp] theorem State.countOnly_d2Pending (i : FaultInfo) : (s.countOnly i).d2Pending = s.d2Pending := by
  rfl
@[simp] theorem State.countOnly_fatal (i : FaultInfo) : (s.countOnly i).fatal = s.fatal := by
  rfl
@[simp] theorem State.countOnly_fatalAt (i : FaultInfo) : (s.countOnly i).fatalAt = s.fatalAt := by
  rfl
@[simp] theorem State.countOnly_now (i : FaultInfo) : (s.countOnly i).now = s.now := by
  rfl
@[simp] theorem State.countOnly_free (i : FaultInfo) : (s.countOnly i).free = s.free := by
  rfl
@[simp] theorem State.countOnly_readBack (i : FaultInfo) : (s.countOnly i).readBack = s.readBack := by
  rfl

/-! Logging at a limited rate. -/

@[simp] theorem State.logLimited_pending (period : Nat) (both : Bool) (i : FaultInfo) : (s.logLimited period both i).pending = s.pending := by
  unfold State.logLimited; dsimp only; split
  · split <;> simp
  · simp
@[simp] theorem State.logLimited_mem (period : Nat) (both : Bool) (i : FaultInfo) : (s.logLimited period both i).mem = s.mem := by
  unfold State.logLimited; dsimp only; split
  · split <;> simp
  · simp
@[simp] theorem State.logLimited_cores (period : Nat) (both : Bool) (i : FaultInfo) : (s.logLimited period both i).cores = s.cores := by
  unfold State.logLimited; dsimp only; split
  · split <;> simp
  · simp
@[simp] theorem State.logLimited_spire (period : Nat) (both : Bool) (i : FaultInfo) : (s.logLimited period both i).spire = s.spire := by
  unfold State.logLimited; dsimp only; split
  · split <;> simp
  · simp
@[simp] theorem State.logLimited_edges (period : Nat) (both : Bool) (i : FaultInfo) : (s.logLimited period both i).edges = s.edges := by
  unfold State.logLimited; dsimp only; split
  · split <;> simp
  · simp
@[simp] theorem State.logLimited_bronze (period : Nat) (both : Bool) (i : FaultInfo) : (s.logLimited period both i).bronze = s.bronze := by
  unfold State.logLimited; dsimp only; split
  · split <;> simp
  · simp
@[simp] theorem State.logLimited_tap (period : Nat) (both : Bool) (i : FaultInfo) : (s.logLimited period both i).tap = s.tap := by
  unfold State.logLimited; dsimp only; split
  · split <;> simp
  · simp
@[simp] theorem State.logLimited_porst (period : Nat) (both : Bool) (i : FaultInfo) : (s.logLimited period both i).porst = s.porst := by
  unfold State.logLimited; dsimp only; split
  · split <;> simp
  · simp
@[simp] theorem State.logLimited_dstate (period : Nat) (both : Bool) (i : FaultInfo) : (s.logLimited period both i).dstate = s.dstate := by
  unfold State.logLimited; dsimp only; split
  · split <;> simp
  · simp
@[simp] theorem State.logLimited_d2Pending (period : Nat) (both : Bool) (i : FaultInfo) : (s.logLimited period both i).d2Pending = s.d2Pending := by
  unfold State.logLimited; dsimp only; split
  · split <;> simp
  · simp
@[simp] theorem State.logLimited_fatal (period : Nat) (both : Bool) (i : FaultInfo) : (s.logLimited period both i).fatal = s.fatal := by
  unfold State.logLimited; dsimp only; split
  · split <;> simp
  · simp
@[simp] theorem State.logLimited_fatalAt (period : Nat) (both : Bool) (i : FaultInfo) : (s.logLimited period both i).fatalAt = s.fatalAt := by
  unfold State.logLimited; dsimp only; split
  · split <;> simp
  · simp
@[simp] theorem State.logLimited_now (period : Nat) (both : Bool) (i : FaultInfo) : (s.logLimited period both i).now = s.now := by
  unfold State.logLimited; dsimp only; split
  · split <;> simp
  · simp
@[simp] theorem State.logLimited_free (period : Nat) (both : Bool) (i : FaultInfo) : (s.logLimited period both i).free = s.free := by
  unfold State.logLimited; dsimp only; split
  · split <;> simp
  · simp
@[simp] theorem State.logLimited_readBack (period : Nat) (both : Bool) (i : FaultInfo) : (s.logLimited period both i).readBack = s.readBack := by
  unfold State.logLimited; dsimp only; split
  · split <;> simp
  · simp

/-! A damaged word read changes the SRAM's marks and the Belfry. -/

@[simp] theorem State.eccRead_pending (u : Nat × Bool) : (s.eccRead u).pending = s.pending := by
  unfold State.eccRead; dsimp only; split
  · simp
  · split <;> simp
@[simp] theorem State.eccRead_cores (u : Nat × Bool) : (s.eccRead u).cores = s.cores := by
  unfold State.eccRead; dsimp only; split
  · simp
  · split <;> simp
@[simp] theorem State.eccRead_spire (u : Nat × Bool) : (s.eccRead u).spire = s.spire := by
  unfold State.eccRead; dsimp only; split
  · simp
  · split <;> simp
@[simp] theorem State.eccRead_edges (u : Nat × Bool) : (s.eccRead u).edges = s.edges := by
  unfold State.eccRead; dsimp only; split
  · simp
  · split <;> simp
@[simp] theorem State.eccRead_bronze (u : Nat × Bool) : (s.eccRead u).bronze = s.bronze := by
  unfold State.eccRead; dsimp only; split
  · simp
  · split <;> simp
@[simp] theorem State.eccRead_tap (u : Nat × Bool) : (s.eccRead u).tap = s.tap := by
  unfold State.eccRead; dsimp only; split
  · simp
  · split <;> simp
@[simp] theorem State.eccRead_porst (u : Nat × Bool) : (s.eccRead u).porst = s.porst := by
  unfold State.eccRead; dsimp only; split
  · simp
  · split <;> simp
@[simp] theorem State.eccRead_dstate (u : Nat × Bool) : (s.eccRead u).dstate = s.dstate := by
  unfold State.eccRead; dsimp only; split
  · simp
  · split <;> simp
@[simp] theorem State.eccRead_d2Pending (u : Nat × Bool) : (s.eccRead u).d2Pending = s.d2Pending := by
  unfold State.eccRead; dsimp only; split
  · simp
  · split <;> simp
@[simp] theorem State.eccRead_fatal (u : Nat × Bool) : (s.eccRead u).fatal = s.fatal := by
  unfold State.eccRead; dsimp only; split
  · simp
  · split <;> simp
@[simp] theorem State.eccRead_fatalAt (u : Nat × Bool) : (s.eccRead u).fatalAt = s.fatalAt := by
  unfold State.eccRead; dsimp only; split
  · simp
  · split <;> simp
@[simp] theorem State.eccRead_now (u : Nat × Bool) : (s.eccRead u).now = s.now := by
  unfold State.eccRead; dsimp only; split
  · simp
  · split <;> simp
@[simp] theorem State.eccRead_free (u : Nat × Bool) : (s.eccRead u).free = s.free := by
  unfold State.eccRead; dsimp only; split
  · simp
  · split <;> simp
@[simp] theorem State.eccRead_readBack (u : Nat × Bool) : (s.eccRead u).readBack = s.readBack := by
  unfold State.eccRead; dsimp only; split
  · simp
  · split <;> simp

/-- What folding a step over a list keeps, when every step keeps it. -/
theorem foldl_keeps {α β γ : Type} (f : α → β → α) (g : α → γ) (h : ∀ a b, g (f a b) = g a) (l : List β) (a : α) : g (l.foldl f a) = g a := by
  induction l generalizing a with
  | nil => rfl
  | cons b l ih => rw [List.foldl_cons, ih, h]

/-- A property that every step keeps holds after folding. -/
theorem foldl_holds {α β : Type} (f : α → β → α) (p : α → Prop) (h : ∀ a b, p a → p (f a b)) (l : List β) (a : α) (ha : p a) : p (l.foldl f a) := by
  induction l generalizing a with
  | nil => exact ha
  | cons b l ih => rw [List.foldl_cons]; exact ih _ (h a b ha)

/-! Reading bytes changes the SRAM's marks and damage and the Belfry. -/

@[simp] theorem State.demand_pending (a n : Nat) : (s.demand a n).pending = s.pending := by
  unfold State.demand
  exact (foldl_keeps State.eccRead State.pending (fun t u => State.eccRead_pending t u) _ _).trans rfl
@[simp] theorem State.demand_cores (a n : Nat) : (s.demand a n).cores = s.cores := by
  unfold State.demand
  exact (foldl_keeps State.eccRead State.cores (fun t u => State.eccRead_cores t u) _ _).trans rfl
@[simp] theorem State.demand_spire (a n : Nat) : (s.demand a n).spire = s.spire := by
  unfold State.demand
  exact (foldl_keeps State.eccRead State.spire (fun t u => State.eccRead_spire t u) _ _).trans rfl
@[simp] theorem State.demand_edges (a n : Nat) : (s.demand a n).edges = s.edges := by
  unfold State.demand
  exact (foldl_keeps State.eccRead State.edges (fun t u => State.eccRead_edges t u) _ _).trans rfl
@[simp] theorem State.demand_bronze (a n : Nat) : (s.demand a n).bronze = s.bronze := by
  unfold State.demand
  exact (foldl_keeps State.eccRead State.bronze (fun t u => State.eccRead_bronze t u) _ _).trans rfl
@[simp] theorem State.demand_tap (a n : Nat) : (s.demand a n).tap = s.tap := by
  unfold State.demand
  exact (foldl_keeps State.eccRead State.tap (fun t u => State.eccRead_tap t u) _ _).trans rfl
@[simp] theorem State.demand_porst (a n : Nat) : (s.demand a n).porst = s.porst := by
  unfold State.demand
  exact (foldl_keeps State.eccRead State.porst (fun t u => State.eccRead_porst t u) _ _).trans rfl
@[simp] theorem State.demand_dstate (a n : Nat) : (s.demand a n).dstate = s.dstate := by
  unfold State.demand
  exact (foldl_keeps State.eccRead State.dstate (fun t u => State.eccRead_dstate t u) _ _).trans rfl
@[simp] theorem State.demand_d2Pending (a n : Nat) : (s.demand a n).d2Pending = s.d2Pending := by
  unfold State.demand
  exact (foldl_keeps State.eccRead State.d2Pending (fun t u => State.eccRead_d2Pending t u) _ _).trans rfl
@[simp] theorem State.demand_fatal (a n : Nat) : (s.demand a n).fatal = s.fatal := by
  unfold State.demand
  exact (foldl_keeps State.eccRead State.fatal (fun t u => State.eccRead_fatal t u) _ _).trans rfl
@[simp] theorem State.demand_fatalAt (a n : Nat) : (s.demand a n).fatalAt = s.fatalAt := by
  unfold State.demand
  exact (foldl_keeps State.eccRead State.fatalAt (fun t u => State.eccRead_fatalAt t u) _ _).trans rfl
@[simp] theorem State.demand_now (a n : Nat) : (s.demand a n).now = s.now := by
  unfold State.demand
  exact (foldl_keeps State.eccRead State.now (fun t u => State.eccRead_now t u) _ _).trans rfl
@[simp] theorem State.demand_free (a n : Nat) : (s.demand a n).free = s.free := by
  unfold State.demand
  exact (foldl_keeps State.eccRead State.free (fun t u => State.eccRead_free t u) _ _).trans rfl
@[simp] theorem State.demand_readBack (a n : Nat) : (s.demand a n).readBack = s.readBack := by
  unfold State.demand
  exact (foldl_keeps State.eccRead State.readBack (fun t u => State.eccRead_readBack t u) _ _).trans rfl

/-! A performer's queue is part of its core. -/

@[simp] theorem State.modQ_pending (c : CoreId) (u : UnitId) (f : UnitQ → UnitQ) : (s.modQ c u f).pending = s.pending := by
  cases u <;> rfl
@[simp] theorem State.modQ_mem (c : CoreId) (u : UnitId) (f : UnitQ → UnitQ) : (s.modQ c u f).mem = s.mem := by
  cases u <;> rfl
@[simp] theorem State.modQ_spire (c : CoreId) (u : UnitId) (f : UnitQ → UnitQ) : (s.modQ c u f).spire = s.spire := by
  cases u <;> rfl
@[simp] theorem State.modQ_edges (c : CoreId) (u : UnitId) (f : UnitQ → UnitQ) : (s.modQ c u f).edges = s.edges := by
  cases u <;> rfl
@[simp] theorem State.modQ_bronze (c : CoreId) (u : UnitId) (f : UnitQ → UnitQ) : (s.modQ c u f).bronze = s.bronze := by
  cases u <;> rfl
@[simp] theorem State.modQ_blf (c : CoreId) (u : UnitId) (f : UnitQ → UnitQ) : (s.modQ c u f).blf = s.blf := by
  cases u <;> rfl
@[simp] theorem State.modQ_tap (c : CoreId) (u : UnitId) (f : UnitQ → UnitQ) : (s.modQ c u f).tap = s.tap := by
  cases u <;> rfl
@[simp] theorem State.modQ_porst (c : CoreId) (u : UnitId) (f : UnitQ → UnitQ) : (s.modQ c u f).porst = s.porst := by
  cases u <;> rfl
@[simp] theorem State.modQ_dstate (c : CoreId) (u : UnitId) (f : UnitQ → UnitQ) : (s.modQ c u f).dstate = s.dstate := by
  cases u <;> rfl
@[simp] theorem State.modQ_d2Pending (c : CoreId) (u : UnitId) (f : UnitQ → UnitQ) : (s.modQ c u f).d2Pending = s.d2Pending := by
  cases u <;> rfl
@[simp] theorem State.modQ_fatal (c : CoreId) (u : UnitId) (f : UnitQ → UnitQ) : (s.modQ c u f).fatal = s.fatal := by
  cases u <;> rfl
@[simp] theorem State.modQ_fatalAt (c : CoreId) (u : UnitId) (f : UnitQ → UnitQ) : (s.modQ c u f).fatalAt = s.fatalAt := by
  cases u <;> rfl
@[simp] theorem State.modQ_now (c : CoreId) (u : UnitId) (f : UnitQ → UnitQ) : (s.modQ c u f).now = s.now := by
  cases u <;> rfl
@[simp] theorem State.modQ_free (c : CoreId) (u : UnitId) (f : UnitQ → UnitQ) : (s.modQ c u f).free = s.free := by
  cases u <;> rfl
@[simp] theorem State.modQ_readBack (c : CoreId) (u : UnitId) (f : UnitQ → UnitQ) : (s.modQ c u f).readBack = s.readBack := by
  cases u <;> rfl

/-! Freezing a unit changes its core alone. -/

theorem State.freezeUnit_changes_cores (c : CoreId) (u : UnitId) (cause : FreezeCause) (discard : Bool) (desc : Option Nat) :
    s.freezeUnit c u cause discard desc = { s with cores := (s.freezeUnit c u cause discard desc).cores } := by
  cases u <;> cases desc <;> simp only [State.freezeUnit] <;> first | rfl | (split <;> rfl)
@[simp] theorem State.freezeUnit_pending (c : CoreId) (u : UnitId) (cause : FreezeCause) (discard : Bool) (desc : Option Nat) : (s.freezeUnit c u cause discard desc).pending = s.pending := by
  rw [State.freezeUnit_changes_cores]
@[simp] theorem State.freezeUnit_mem (c : CoreId) (u : UnitId) (cause : FreezeCause) (discard : Bool) (desc : Option Nat) : (s.freezeUnit c u cause discard desc).mem = s.mem := by
  rw [State.freezeUnit_changes_cores]
@[simp] theorem State.freezeUnit_spire (c : CoreId) (u : UnitId) (cause : FreezeCause) (discard : Bool) (desc : Option Nat) : (s.freezeUnit c u cause discard desc).spire = s.spire := by
  rw [State.freezeUnit_changes_cores]
@[simp] theorem State.freezeUnit_edges (c : CoreId) (u : UnitId) (cause : FreezeCause) (discard : Bool) (desc : Option Nat) : (s.freezeUnit c u cause discard desc).edges = s.edges := by
  rw [State.freezeUnit_changes_cores]
@[simp] theorem State.freezeUnit_bronze (c : CoreId) (u : UnitId) (cause : FreezeCause) (discard : Bool) (desc : Option Nat) : (s.freezeUnit c u cause discard desc).bronze = s.bronze := by
  rw [State.freezeUnit_changes_cores]
@[simp] theorem State.freezeUnit_blf (c : CoreId) (u : UnitId) (cause : FreezeCause) (discard : Bool) (desc : Option Nat) : (s.freezeUnit c u cause discard desc).blf = s.blf := by
  rw [State.freezeUnit_changes_cores]
@[simp] theorem State.freezeUnit_tap (c : CoreId) (u : UnitId) (cause : FreezeCause) (discard : Bool) (desc : Option Nat) : (s.freezeUnit c u cause discard desc).tap = s.tap := by
  rw [State.freezeUnit_changes_cores]
@[simp] theorem State.freezeUnit_porst (c : CoreId) (u : UnitId) (cause : FreezeCause) (discard : Bool) (desc : Option Nat) : (s.freezeUnit c u cause discard desc).porst = s.porst := by
  rw [State.freezeUnit_changes_cores]
@[simp] theorem State.freezeUnit_dstate (c : CoreId) (u : UnitId) (cause : FreezeCause) (discard : Bool) (desc : Option Nat) : (s.freezeUnit c u cause discard desc).dstate = s.dstate := by
  rw [State.freezeUnit_changes_cores]
@[simp] theorem State.freezeUnit_d2Pending (c : CoreId) (u : UnitId) (cause : FreezeCause) (discard : Bool) (desc : Option Nat) : (s.freezeUnit c u cause discard desc).d2Pending = s.d2Pending := by
  rw [State.freezeUnit_changes_cores]
@[simp] theorem State.freezeUnit_fatal (c : CoreId) (u : UnitId) (cause : FreezeCause) (discard : Bool) (desc : Option Nat) : (s.freezeUnit c u cause discard desc).fatal = s.fatal := by
  rw [State.freezeUnit_changes_cores]
@[simp] theorem State.freezeUnit_fatalAt (c : CoreId) (u : UnitId) (cause : FreezeCause) (discard : Bool) (desc : Option Nat) : (s.freezeUnit c u cause discard desc).fatalAt = s.fatalAt := by
  rw [State.freezeUnit_changes_cores]
@[simp] theorem State.freezeUnit_now (c : CoreId) (u : UnitId) (cause : FreezeCause) (discard : Bool) (desc : Option Nat) : (s.freezeUnit c u cause discard desc).now = s.now := by
  rw [State.freezeUnit_changes_cores]
@[simp] theorem State.freezeUnit_free (c : CoreId) (u : UnitId) (cause : FreezeCause) (discard : Bool) (desc : Option Nat) : (s.freezeUnit c u cause discard desc).free = s.free := by
  rw [State.freezeUnit_changes_cores]
@[simp] theorem State.freezeUnit_readBack (c : CoreId) (u : UnitId) (cause : FreezeCause) (discard : Bool) (desc : Option Nat) : (s.freezeUnit c u cause discard desc).readBack = s.readBack := by
  rw [State.freezeUnit_changes_cores]

/-! Refusing a descriptor changes its core and the Belfry. -/

@[simp] theorem State.refuse_pending (c : CoreId) (u : UnitId) (off : Nat) : (s.refuse c u off).pending = s.pending := by
  simp [State.refuse]
@[simp] theorem State.refuse_mem (c : CoreId) (u : UnitId) (off : Nat) : (s.refuse c u off).mem = s.mem := by
  simp [State.refuse]
@[simp] theorem State.refuse_spire (c : CoreId) (u : UnitId) (off : Nat) : (s.refuse c u off).spire = s.spire := by
  simp [State.refuse]
@[simp] theorem State.refuse_edges (c : CoreId) (u : UnitId) (off : Nat) : (s.refuse c u off).edges = s.edges := by
  simp [State.refuse]
@[simp] theorem State.refuse_bronze (c : CoreId) (u : UnitId) (off : Nat) : (s.refuse c u off).bronze = s.bronze := by
  simp [State.refuse]
@[simp] theorem State.refuse_tap (c : CoreId) (u : UnitId) (off : Nat) : (s.refuse c u off).tap = s.tap := by
  simp [State.refuse]
@[simp] theorem State.refuse_porst (c : CoreId) (u : UnitId) (off : Nat) : (s.refuse c u off).porst = s.porst := by
  simp [State.refuse]
@[simp] theorem State.refuse_dstate (c : CoreId) (u : UnitId) (off : Nat) : (s.refuse c u off).dstate = s.dstate := by
  simp [State.refuse]
@[simp] theorem State.refuse_d2Pending (c : CoreId) (u : UnitId) (off : Nat) : (s.refuse c u off).d2Pending = s.d2Pending := by
  simp [State.refuse]
@[simp] theorem State.refuse_fatal (c : CoreId) (u : UnitId) (off : Nat) : (s.refuse c u off).fatal = s.fatal := by
  simp [State.refuse]
@[simp] theorem State.refuse_fatalAt (c : CoreId) (u : UnitId) (off : Nat) : (s.refuse c u off).fatalAt = s.fatalAt := by
  simp [State.refuse]
@[simp] theorem State.refuse_now (c : CoreId) (u : UnitId) (off : Nat) : (s.refuse c u off).now = s.now := by
  simp [State.refuse]
@[simp] theorem State.refuse_free (c : CoreId) (u : UnitId) (off : Nat) : (s.refuse c u off).free = s.free := by
  simp [State.refuse]
@[simp] theorem State.refuse_readBack (c : CoreId) (u : UnitId) (off : Nat) : (s.refuse c u off).readBack = s.readBack := by
  simp [State.refuse]

/-! Logging 0x703 changes its core and the Belfry. -/

@[simp] theorem State.logFrozen_pending (c : CoreId) (mask : Nat) : (s.logFrozen c mask).pending = s.pending := by
  simp [State.logFrozen]
@[simp] theorem State.logFrozen_mem (c : CoreId) (mask : Nat) : (s.logFrozen c mask).mem = s.mem := by
  simp [State.logFrozen]
@[simp] theorem State.logFrozen_spire (c : CoreId) (mask : Nat) : (s.logFrozen c mask).spire = s.spire := by
  simp [State.logFrozen]
@[simp] theorem State.logFrozen_edges (c : CoreId) (mask : Nat) : (s.logFrozen c mask).edges = s.edges := by
  simp [State.logFrozen]
@[simp] theorem State.logFrozen_bronze (c : CoreId) (mask : Nat) : (s.logFrozen c mask).bronze = s.bronze := by
  simp [State.logFrozen]
@[simp] theorem State.logFrozen_tap (c : CoreId) (mask : Nat) : (s.logFrozen c mask).tap = s.tap := by
  simp [State.logFrozen]
@[simp] theorem State.logFrozen_porst (c : CoreId) (mask : Nat) : (s.logFrozen c mask).porst = s.porst := by
  simp [State.logFrozen]
@[simp] theorem State.logFrozen_dstate (c : CoreId) (mask : Nat) : (s.logFrozen c mask).dstate = s.dstate := by
  simp [State.logFrozen]
@[simp] theorem State.logFrozen_d2Pending (c : CoreId) (mask : Nat) : (s.logFrozen c mask).d2Pending = s.d2Pending := by
  simp [State.logFrozen]
@[simp] theorem State.logFrozen_fatal (c : CoreId) (mask : Nat) : (s.logFrozen c mask).fatal = s.fatal := by
  simp [State.logFrozen]
@[simp] theorem State.logFrozen_fatalAt (c : CoreId) (mask : Nat) : (s.logFrozen c mask).fatalAt = s.fatalAt := by
  simp [State.logFrozen]
@[simp] theorem State.logFrozen_now (c : CoreId) (mask : Nat) : (s.logFrozen c mask).now = s.now := by
  simp [State.logFrozen]
@[simp] theorem State.logFrozen_free (c : CoreId) (mask : Nat) : (s.logFrozen c mask).free = s.free := by
  simp [State.logFrozen]
@[simp] theorem State.logFrozen_readBack (c : CoreId) (mask : Nat) : (s.logFrozen c mask).readBack = s.readBack := by
  simp [State.logFrozen]

/-! Freezing the units of a mask changes their core alone. -/

theorem State.noteStop_changes_cores (c : CoreId) (mask : Nat) : s.noteStop c mask = { s with cores := (s.noteStop c mask).cores } := by
  unfold State.noteStop
  split <;> rfl
@[simp] theorem State.freezeMask_pending (c : CoreId) (mask : Nat) (cause : FreezeCause) : (s.freezeMask c mask cause).pending = s.pending := by
  unfold State.freezeMask
  exact (foldl_keeps _ State.pending (fun t n => by split <;> simp) _ _).trans (by rw [State.noteStop_changes_cores])
@[simp] theorem State.freezeMask_mem (c : CoreId) (mask : Nat) (cause : FreezeCause) : (s.freezeMask c mask cause).mem = s.mem := by
  unfold State.freezeMask
  exact (foldl_keeps _ State.mem (fun t n => by split <;> simp) _ _).trans (by rw [State.noteStop_changes_cores])
@[simp] theorem State.freezeMask_spire (c : CoreId) (mask : Nat) (cause : FreezeCause) : (s.freezeMask c mask cause).spire = s.spire := by
  unfold State.freezeMask
  exact (foldl_keeps _ State.spire (fun t n => by split <;> simp) _ _).trans (by rw [State.noteStop_changes_cores])
@[simp] theorem State.freezeMask_edges (c : CoreId) (mask : Nat) (cause : FreezeCause) : (s.freezeMask c mask cause).edges = s.edges := by
  unfold State.freezeMask
  exact (foldl_keeps _ State.edges (fun t n => by split <;> simp) _ _).trans (by rw [State.noteStop_changes_cores])
@[simp] theorem State.freezeMask_bronze (c : CoreId) (mask : Nat) (cause : FreezeCause) : (s.freezeMask c mask cause).bronze = s.bronze := by
  unfold State.freezeMask
  exact (foldl_keeps _ State.bronze (fun t n => by split <;> simp) _ _).trans (by rw [State.noteStop_changes_cores])
@[simp] theorem State.freezeMask_blf (c : CoreId) (mask : Nat) (cause : FreezeCause) : (s.freezeMask c mask cause).blf = s.blf := by
  unfold State.freezeMask
  exact (foldl_keeps _ State.blf (fun t n => by split <;> simp) _ _).trans (by rw [State.noteStop_changes_cores])
@[simp] theorem State.freezeMask_tap (c : CoreId) (mask : Nat) (cause : FreezeCause) : (s.freezeMask c mask cause).tap = s.tap := by
  unfold State.freezeMask
  exact (foldl_keeps _ State.tap (fun t n => by split <;> simp) _ _).trans (by rw [State.noteStop_changes_cores])
@[simp] theorem State.freezeMask_porst (c : CoreId) (mask : Nat) (cause : FreezeCause) : (s.freezeMask c mask cause).porst = s.porst := by
  unfold State.freezeMask
  exact (foldl_keeps _ State.porst (fun t n => by split <;> simp) _ _).trans (by rw [State.noteStop_changes_cores])
@[simp] theorem State.freezeMask_dstate (c : CoreId) (mask : Nat) (cause : FreezeCause) : (s.freezeMask c mask cause).dstate = s.dstate := by
  unfold State.freezeMask
  exact (foldl_keeps _ State.dstate (fun t n => by split <;> simp) _ _).trans (by rw [State.noteStop_changes_cores])
@[simp] theorem State.freezeMask_d2Pending (c : CoreId) (mask : Nat) (cause : FreezeCause) : (s.freezeMask c mask cause).d2Pending = s.d2Pending := by
  unfold State.freezeMask
  exact (foldl_keeps _ State.d2Pending (fun t n => by split <;> simp) _ _).trans (by rw [State.noteStop_changes_cores])
@[simp] theorem State.freezeMask_fatal (c : CoreId) (mask : Nat) (cause : FreezeCause) : (s.freezeMask c mask cause).fatal = s.fatal := by
  unfold State.freezeMask
  exact (foldl_keeps _ State.fatal (fun t n => by split <;> simp) _ _).trans (by rw [State.noteStop_changes_cores])
@[simp] theorem State.freezeMask_fatalAt (c : CoreId) (mask : Nat) (cause : FreezeCause) : (s.freezeMask c mask cause).fatalAt = s.fatalAt := by
  unfold State.freezeMask
  exact (foldl_keeps _ State.fatalAt (fun t n => by split <;> simp) _ _).trans (by rw [State.noteStop_changes_cores])
@[simp] theorem State.freezeMask_now (c : CoreId) (mask : Nat) (cause : FreezeCause) : (s.freezeMask c mask cause).now = s.now := by
  unfold State.freezeMask
  exact (foldl_keeps _ State.now (fun t n => by split <;> simp) _ _).trans (by rw [State.noteStop_changes_cores])
@[simp] theorem State.freezeMask_free (c : CoreId) (mask : Nat) (cause : FreezeCause) : (s.freezeMask c mask cause).free = s.free := by
  unfold State.freezeMask
  exact (foldl_keeps _ State.free (fun t n => by split <;> simp) _ _).trans (by rw [State.noteStop_changes_cores])
@[simp] theorem State.freezeMask_readBack (c : CoreId) (mask : Nat) (cause : FreezeCause) : (s.freezeMask c mask cause).readBack = s.readBack := by
  unfold State.freezeMask
  exact (foldl_keeps _ State.readBack (fun t n => by split <;> simp) _ _).trans (by rw [State.noteStop_changes_cores])

/-! Doing something for each core keeps what each keeps. -/

@[simp] theorem State.haltAll_pending (cause : FreezeCause) : (s.haltAll cause).pending = s.pending := by
  unfold State.haltAll State.forCores
  refine foldl_keeps _ State.pending (fun t n => ?_) _ _
  split <;> simp
@[simp] theorem State.haltAll_mem (cause : FreezeCause) : (s.haltAll cause).mem = s.mem := by
  unfold State.haltAll State.forCores
  refine foldl_keeps _ State.mem (fun t n => ?_) _ _
  split <;> simp
@[simp] theorem State.haltAll_spire (cause : FreezeCause) : (s.haltAll cause).spire = s.spire := by
  unfold State.haltAll State.forCores
  refine foldl_keeps _ State.spire (fun t n => ?_) _ _
  split <;> simp
@[simp] theorem State.haltAll_edges (cause : FreezeCause) : (s.haltAll cause).edges = s.edges := by
  unfold State.haltAll State.forCores
  refine foldl_keeps _ State.edges (fun t n => ?_) _ _
  split <;> simp
@[simp] theorem State.haltAll_bronze (cause : FreezeCause) : (s.haltAll cause).bronze = s.bronze := by
  unfold State.haltAll State.forCores
  refine foldl_keeps _ State.bronze (fun t n => ?_) _ _
  split <;> simp
@[simp] theorem State.haltAll_tap (cause : FreezeCause) : (s.haltAll cause).tap = s.tap := by
  unfold State.haltAll State.forCores
  refine foldl_keeps _ State.tap (fun t n => ?_) _ _
  split <;> simp
@[simp] theorem State.haltAll_porst (cause : FreezeCause) : (s.haltAll cause).porst = s.porst := by
  unfold State.haltAll State.forCores
  refine foldl_keeps _ State.porst (fun t n => ?_) _ _
  split <;> simp
@[simp] theorem State.haltAll_dstate (cause : FreezeCause) : (s.haltAll cause).dstate = s.dstate := by
  unfold State.haltAll State.forCores
  refine foldl_keeps _ State.dstate (fun t n => ?_) _ _
  split <;> simp
@[simp] theorem State.haltAll_d2Pending (cause : FreezeCause) : (s.haltAll cause).d2Pending = s.d2Pending := by
  unfold State.haltAll State.forCores
  refine foldl_keeps _ State.d2Pending (fun t n => ?_) _ _
  split <;> simp
@[simp] theorem State.haltAll_fatal (cause : FreezeCause) : (s.haltAll cause).fatal = s.fatal := by
  unfold State.haltAll State.forCores
  refine foldl_keeps _ State.fatal (fun t n => ?_) _ _
  split <;> simp
@[simp] theorem State.haltAll_fatalAt (cause : FreezeCause) : (s.haltAll cause).fatalAt = s.fatalAt := by
  unfold State.haltAll State.forCores
  refine foldl_keeps _ State.fatalAt (fun t n => ?_) _ _
  split <;> simp
@[simp] theorem State.haltAll_now (cause : FreezeCause) : (s.haltAll cause).now = s.now := by
  unfold State.haltAll State.forCores
  refine foldl_keeps _ State.now (fun t n => ?_) _ _
  split <;> simp
@[simp] theorem State.haltAll_free (cause : FreezeCause) : (s.haltAll cause).free = s.free := by
  unfold State.haltAll State.forCores
  refine foldl_keeps _ State.free (fun t n => ?_) _ _
  split <;> simp
@[simp] theorem State.haltAll_readBack (cause : FreezeCause) : (s.haltAll cause).readBack = s.readBack := by
  unfold State.haltAll State.forCores
  refine foldl_keeps _ State.readBack (fun t n => ?_) _ _
  split <;> simp

/-! A bell line changes its core alone. -/

@[simp] theorem State.fireBell_pending (c : CoreId) (line : Nat) : (s.fireBell c line).pending = s.pending := by
  rfl
@[simp] theorem State.fireBell_mem (c : CoreId) (line : Nat) : (s.fireBell c line).mem = s.mem := by
  rfl
@[simp] theorem State.fireBell_spire (c : CoreId) (line : Nat) : (s.fireBell c line).spire = s.spire := by
  rfl
@[simp] theorem State.fireBell_edges (c : CoreId) (line : Nat) : (s.fireBell c line).edges = s.edges := by
  rfl
@[simp] theorem State.fireBell_bronze (c : CoreId) (line : Nat) : (s.fireBell c line).bronze = s.bronze := by
  rfl
@[simp] theorem State.fireBell_blf (c : CoreId) (line : Nat) : (s.fireBell c line).blf = s.blf := by
  rfl
@[simp] theorem State.fireBell_tap (c : CoreId) (line : Nat) : (s.fireBell c line).tap = s.tap := by
  rfl
@[simp] theorem State.fireBell_porst (c : CoreId) (line : Nat) : (s.fireBell c line).porst = s.porst := by
  rfl
@[simp] theorem State.fireBell_dstate (c : CoreId) (line : Nat) : (s.fireBell c line).dstate = s.dstate := by
  rfl
@[simp] theorem State.fireBell_d2Pending (c : CoreId) (line : Nat) : (s.fireBell c line).d2Pending = s.d2Pending := by
  rfl
@[simp] theorem State.fireBell_fatal (c : CoreId) (line : Nat) : (s.fireBell c line).fatal = s.fatal := by
  rfl
@[simp] theorem State.fireBell_fatalAt (c : CoreId) (line : Nat) : (s.fireBell c line).fatalAt = s.fatalAt := by
  rfl
@[simp] theorem State.fireBell_now (c : CoreId) (line : Nat) : (s.fireBell c line).now = s.now := by
  rfl
@[simp] theorem State.fireBell_free (c : CoreId) (line : Nat) : (s.fireBell c line).free = s.free := by
  rfl
@[simp] theorem State.fireBell_readBack (c : CoreId) (line : Nat) : (s.fireBell c line).readBack = s.readBack := by
  rfl

/-! A counter operation changes its core and the Belfry. -/

@[simp] theorem State.cntOp_pending (c : CoreId) (n : Fin 64) (op : CntOp) : (s.cntOp c n op).pending = s.pending := by
  unfold State.cntOp; dsimp only; repeat' split
  all_goals simp
@[simp] theorem State.cntOp_mem (c : CoreId) (n : Fin 64) (op : CntOp) : (s.cntOp c n op).mem = s.mem := by
  unfold State.cntOp; dsimp only; repeat' split
  all_goals simp
@[simp] theorem State.cntOp_spire (c : CoreId) (n : Fin 64) (op : CntOp) : (s.cntOp c n op).spire = s.spire := by
  unfold State.cntOp; dsimp only; repeat' split
  all_goals simp
@[simp] theorem State.cntOp_edges (c : CoreId) (n : Fin 64) (op : CntOp) : (s.cntOp c n op).edges = s.edges := by
  unfold State.cntOp; dsimp only; repeat' split
  all_goals simp
@[simp] theorem State.cntOp_bronze (c : CoreId) (n : Fin 64) (op : CntOp) : (s.cntOp c n op).bronze = s.bronze := by
  unfold State.cntOp; dsimp only; repeat' split
  all_goals simp
@[simp] theorem State.cntOp_tap (c : CoreId) (n : Fin 64) (op : CntOp) : (s.cntOp c n op).tap = s.tap := by
  unfold State.cntOp; dsimp only; repeat' split
  all_goals simp
@[simp] theorem State.cntOp_porst (c : CoreId) (n : Fin 64) (op : CntOp) : (s.cntOp c n op).porst = s.porst := by
  unfold State.cntOp; dsimp only; repeat' split
  all_goals simp
@[simp] theorem State.cntOp_dstate (c : CoreId) (n : Fin 64) (op : CntOp) : (s.cntOp c n op).dstate = s.dstate := by
  unfold State.cntOp; dsimp only; repeat' split
  all_goals simp
@[simp] theorem State.cntOp_d2Pending (c : CoreId) (n : Fin 64) (op : CntOp) : (s.cntOp c n op).d2Pending = s.d2Pending := by
  unfold State.cntOp; dsimp only; repeat' split
  all_goals simp
@[simp] theorem State.cntOp_fatal (c : CoreId) (n : Fin 64) (op : CntOp) : (s.cntOp c n op).fatal = s.fatal := by
  unfold State.cntOp; dsimp only; repeat' split
  all_goals simp
@[simp] theorem State.cntOp_fatalAt (c : CoreId) (n : Fin 64) (op : CntOp) : (s.cntOp c n op).fatalAt = s.fatalAt := by
  unfold State.cntOp; dsimp only; repeat' split
  all_goals simp
@[simp] theorem State.cntOp_now (c : CoreId) (n : Fin 64) (op : CntOp) : (s.cntOp c n op).now = s.now := by
  unfold State.cntOp; dsimp only; repeat' split
  all_goals simp
@[simp] theorem State.cntOp_free (c : CoreId) (n : Fin 64) (op : CntOp) : (s.cntOp c n op).free = s.free := by
  unfold State.cntOp; dsimp only; repeat' split
  all_goals simp
@[simp] theorem State.cntOp_readBack (c : CoreId) (n : Fin 64) (op : CntOp) : (s.cntOp c n op).readBack = s.readBack := by
  unfold State.cntOp; dsimp only; repeat' split
  all_goals simp

/-! A refused access changes its core, the Belfry and Spire's count of mismatched keys. -/

theorem State.countKey_changes_spire : s.countKey = { s with spire := s.countKey.spire } := rfl
@[simp] theorem State.countKey_pending : s.countKey.pending = s.pending := rfl
@[simp] theorem State.countKey_mem : s.countKey.mem = s.mem := rfl
@[simp] theorem State.countKey_edges : s.countKey.edges = s.edges := rfl
@[simp] theorem State.countKey_bronze : s.countKey.bronze = s.bronze := rfl
@[simp] theorem State.countKey_tap : s.countKey.tap = s.tap := rfl
@[simp] theorem State.countKey_porst : s.countKey.porst = s.porst := rfl
@[simp] theorem State.countKey_dstate : s.countKey.dstate = s.dstate := rfl
@[simp] theorem State.countKey_d2Pending : s.countKey.d2Pending = s.d2Pending := rfl
@[simp] theorem State.countKey_fatal : s.countKey.fatal = s.fatal := rfl
@[simp] theorem State.countKey_fatalAt : s.countKey.fatalAt = s.fatalAt := rfl
@[simp] theorem State.countKey_now : s.countKey.now = s.now := rfl
@[simp] theorem State.countKey_free : s.countKey.free = s.free := rfl
@[simp] theorem State.countKey_readBack : s.countKey.readBack = s.readBack := rfl
@[simp] theorem State.countKey_cores : s.countKey.cores = s.cores := rfl
@[simp] theorem State.countKey_blf : s.countKey.blf = s.blf := rfl


@[simp] theorem State.refusedAccess_pending (c : CoreId) (u : UnitId) (desc : Option Nat) (a : Nat) (v : Verdict) : (s.refusedAccess c u desc a v).pending = s.pending := by
  cases v <;> simp [State.refusedAccess]
@[simp] theorem State.refusedAccess_mem (c : CoreId) (u : UnitId) (desc : Option Nat) (a : Nat) (v : Verdict) : (s.refusedAccess c u desc a v).mem = s.mem := by
  cases v <;> simp [State.refusedAccess]
/-- A key mismatch counts in SPR_DROP_KEY; nothing else of Spire changes (R19). -/
theorem State.refusedAccess_spire (c : CoreId) (u : UnitId) (desc : Option Nat) (a : Nat) (v : Verdict) :
    (s.refusedAccess c u desc a v).spire = if v = .key then s.countKey.spire else s.spire := by
  cases v <;> simp [State.refusedAccess]
@[simp] theorem State.refusedAccess_edges (c : CoreId) (u : UnitId) (desc : Option Nat) (a : Nat) (v : Verdict) : (s.refusedAccess c u desc a v).edges = s.edges := by
  cases v <;> simp [State.refusedAccess]
@[simp] theorem State.refusedAccess_bronze (c : CoreId) (u : UnitId) (desc : Option Nat) (a : Nat) (v : Verdict) : (s.refusedAccess c u desc a v).bronze = s.bronze := by
  cases v <;> simp [State.refusedAccess]
@[simp] theorem State.refusedAccess_tap (c : CoreId) (u : UnitId) (desc : Option Nat) (a : Nat) (v : Verdict) : (s.refusedAccess c u desc a v).tap = s.tap := by
  cases v <;> simp [State.refusedAccess]
@[simp] theorem State.refusedAccess_porst (c : CoreId) (u : UnitId) (desc : Option Nat) (a : Nat) (v : Verdict) : (s.refusedAccess c u desc a v).porst = s.porst := by
  cases v <;> simp [State.refusedAccess]
@[simp] theorem State.refusedAccess_dstate (c : CoreId) (u : UnitId) (desc : Option Nat) (a : Nat) (v : Verdict) : (s.refusedAccess c u desc a v).dstate = s.dstate := by
  cases v <;> simp [State.refusedAccess]
@[simp] theorem State.refusedAccess_d2Pending (c : CoreId) (u : UnitId) (desc : Option Nat) (a : Nat) (v : Verdict) : (s.refusedAccess c u desc a v).d2Pending = s.d2Pending := by
  cases v <;> simp [State.refusedAccess]
@[simp] theorem State.refusedAccess_fatal (c : CoreId) (u : UnitId) (desc : Option Nat) (a : Nat) (v : Verdict) : (s.refusedAccess c u desc a v).fatal = s.fatal := by
  cases v <;> simp [State.refusedAccess]
@[simp] theorem State.refusedAccess_fatalAt (c : CoreId) (u : UnitId) (desc : Option Nat) (a : Nat) (v : Verdict) : (s.refusedAccess c u desc a v).fatalAt = s.fatalAt := by
  cases v <;> simp [State.refusedAccess]
@[simp] theorem State.refusedAccess_now (c : CoreId) (u : UnitId) (desc : Option Nat) (a : Nat) (v : Verdict) : (s.refusedAccess c u desc a v).now = s.now := by
  cases v <;> simp [State.refusedAccess]
@[simp] theorem State.refusedAccess_free (c : CoreId) (u : UnitId) (desc : Option Nat) (a : Nat) (v : Verdict) : (s.refusedAccess c u desc a v).free = s.free := by
  cases v <;> simp [State.refusedAccess]
@[simp] theorem State.refusedAccess_readBack (c : CoreId) (u : UnitId) (desc : Option Nat) (a : Nat) (v : Verdict) : (s.refusedAccess c u desc a v).readBack = s.readBack := by
  cases v <;> simp [State.refusedAccess]

/-! ### The SRAM -/

/-- Reading a damaged word keeps the canonical form and every byte (R235). -/
theorem State.eccRead_keeps (u : Nat × Bool) (h : s.mem.wf = true) : (s.eccRead u).mem.wf = true ∧ ∀ a, (s.eccRead u).mem.byteAt a = s.mem.byteAt a := by
  unfold State.eccRead; dsimp only; split
  · exact ⟨Memory.mark_wf _ _ _ _ h, fun _ => rfl⟩
  · split <;> simp [h]

/-- Reading bytes keeps the canonical form and every byte. -/
theorem State.demand_keeps (a n : Nat) (h : s.mem.wf = true) : (s.demand a n).mem.wf = true ∧ ∀ b, (s.demand a n).mem.byteAt b = s.mem.byteAt b := by
  have h0 := (Memory.wf_iff _).mp h
  refine foldl_holds State.eccRead (fun t => t.mem.wf = true ∧ ∀ b, t.mem.byteAt b = s.mem.byteAt b)
    (fun t u ht => ⟨(State.eccRead_keeps t u ht.1).1, fun b => ((State.eccRead_keeps t u ht.1).2 b).trans (ht.2 b)⟩) _ _ ⟨?_, fun _ => rfl⟩
  rw [State.setMem_mem, Memory.wf_iff]; exact ⟨h0.1, h0.2.1, h0.2.2.1, h0.2.2.2.filter _⟩

/-- Reading bytes of which no word is damaged changes nothing. -/
theorem State.demand_clean (a n : Nat) (h : ∀ u ∈ s.mem.upsets, u.1 < a / 8 ∨ a / 8 + wordSpan a n ≤ u.1) : s.demand a n = s := by
  have none : ∀ u ∈ s.mem.upsets, (decide (a / 8 ≤ u.1) && decide (u.1 < a / 8 + wordSpan a n)) = false := by
    intro u hu; have := h u hu; rw [Bool.and_eq_false_iff]; simp only [decide_eq_false_iff_not]; omega
  have e1 : s.mem.upsets.filter (fun u => decide (a / 8 ≤ u.1) && decide (u.1 < a / 8 + wordSpan a n)) = [] := by
    rw [List.filter_eq_nil_iff]; intro u hu; rw [none u hu]; decide
  have e2 : s.mem.upsets.filter (fun u => !(decide (a / 8 ≤ u.1) && decide (u.1 < a / 8 + wordSpan a n))) = s.mem.upsets := by
    rw [List.filter_eq_self]; intro u hu; rw [none u hu]; rfl
  unfold State.demand; dsimp only; rw [e1, e2]; rfl

/-- Storing bytes keeps the canonical form. -/
theorem State.store_wf (a : Nat) (bs : List Byte) (f : Nat → Bool) (h : s.mem.wf = true) : (s.store a bs f).mem.wf = true :=
  Memory.store_wf _ _ _ _ h

/-- A byte after a store. -/
theorem State.store_byteAt (a : Nat) (bs : List Byte) (f : Nat → Bool) (h : s.mem.wf = true) (b : Nat) :
    (s.store a bs f).mem.byteAt b = if a ≤ b ∧ b < a + bs.length then bs.getD (b - a) 0 else s.mem.byteAt b := Memory.byteAt_store _ _ _ _ h b

/-! ### Numbers and bytes -/

@[simp] theorem length_leBytes (n k : Nat) : (leBytes n k).length = k := by
  induction k generalizing n with
  | zero => rfl
  | succ k ih => simp [leBytes, ih]

/-- Bytes spell the number they were written from. -/
theorem leNat_leBytes (n k : Nat) : leNat (leBytes n k) = n % 256 ^ k := by
  induction k generalizing n with
  | zero => simp [leBytes, leNat, Nat.mod_one]
  | succ k ih =>
    rw [leBytes, leNat, ih, BitVec.toNat_ofNat, show (256 : Nat) ^ (k + 1) = 256 * 256 ^ k by ring, Nat.mod_mul]

/-! ### The fault log -/

/-- The record an occurrence leaves in the log, with its number (R393). -/
theorem State.log_newest (i : FaultInfo) : (s.log i).blf.newest = s.blf.newest + 1 := by
  have w : ∀ (b : Belfry) (r : FaultRec), (b.write r).newest = b.newest + 1 := by
    intro b r; unfold Belfry.write; dsimp only; split
    · rfl
    · split <;> rfl
  unfold State.log State.logTo; dsimp only; split
  · exact w _ _
  · exact w _ _

/-- The ring's newest record is the occurrence's. -/
theorem State.log_record (i : FaultInfo) : (s.log i).blf.logRing[logSlot (s.blf.newest + 1)] = { s.recordOf i with number := s.blf.newest + 1 } := by
  have w : ∀ (b : Belfry) (r : FaultRec), (b.write r).logRing = upd b.logRing (logSlot (b.newest + 1)) fun _ => { r with number := b.newest + 1 } := by
    intro b r; unfold Belfry.write; dsimp only; split
    · rfl
    · split <;> rfl
  have r : (s.log i).blf.logRing = upd s.blf.logRing (logSlot (s.blf.newest + 1)) fun _ => { s.recordOf i with number := s.blf.newest + 1 } := by
    unfold State.log State.logTo; dsimp only; split
    · exact w _ _
    · exact w _ _
  simp only [r]; exact upd_same _ _ _

/-! ### Freezing and counters -/

/-- A unit frozen: its queue's freeze is the merged one (R400). -/
theorem State.frozen_freezeUnit (c : CoreId) (u : UnitId) (cause : FreezeCause) (discard : Bool) (desc : Option Nat) :
    (s.freezeUnit c u cause discard desc).frozen c u = mergeFreeze (s.frozen c u) cause discard := by
  cases u <;> cases desc <;> simp only [State.freezeUnit] <;> (try split) <;> simp [State.frozen, Core.unitQ, State.modQ]

/-- Freezing a unit of one core leaves every other core. -/
theorem State.core_freezeUnit_other (c d : CoreId) (u : UnitId) (cause : FreezeCause) (discard : Bool) (desc : Option Nat) (h : d ≠ c) :
    (s.freezeUnit c u cause discard desc).core d = s.core d := by
  cases u <;> cases desc <;> simp only [State.freezeUnit] <;> (try split) <;>
    simp [State.modQ, State.modEng, State.modVec, State.modMov, State.modSeq, State.core_modCore_other, h]

/-- The value a counter operation leaves (R243). -/
theorem State.cntOp_cnt (c : CoreId) (n : Fin 64) (op : CntOp) :
    ((s.cntOp c n op).core c).cnt = upd (s.core c).cnt n fun _ => BitVec.ofNat 16 (op.apply ((s.core c).cnt[n]).toNat).1 := by
  have core : ∀ (t : State) (i : FaultInfo), (t.log i).core c = t.core c := fun t i => by simp [State.core]
  have bell : ∀ (t : State) (l : Nat), ((t.fireBell c l).core c).cnt = (t.core c).cnt := fun t l => by simp [State.fireBell]
  unfold State.cntOp; dsimp only
  repeat' split
  all_goals simp [bell, core]

/-- A counter operation leaves every other core. -/
theorem State.cntOp_other (c d : CoreId) (n : Fin 64) (op : CntOp) (h : d ≠ c) : (s.cntOp c n op).core d = s.core d := by
  have core : ∀ (t : State) (i : FaultInfo), (t.log i).core d = t.core d := fun t i => by simp [State.core]
  have bell : ∀ (t : State) (l : Nat), (t.fireBell c l).core d = t.core d := fun t l => State.core_modCore_other _ _ _ _ h
  unfold State.cntOp; dsimp only
  repeat' split
  all_goals simp [bell, core, State.core_modCore_other _ _ _ _ h]

end Sys2Proof.Machine
end

