-- ==== Sys2Proof/WellFormed.lean ====
section
/-! DEFINITION. Which operands a command of the block may carry: the ranges the rules give what reaches the die from outside. Operands with a
range given by their type (a core, a counter, a semaphore) need no check. -/

namespace Sys2Proof

/-- No two modules of a list are the same (one report, test or flit for each module). -/
def distinctModules : List (Fin 20) → Bool
  | [] => true
  | m :: r => !r.contains m && distinctModules r

/-- A register access is of 1, 2, 4 or 8 bytes (R15, R18). -/
def accessWidth (w : Nat) : Bool := w == 1 || w == 2 || w == 4 || w == 8

/-- An instruction code of the TAP that Table PHY-8 gives to another row. -/
def otherTapCode (c : Byte) : Bool := c == 0 || c == 1 || c == 2 || c == 3 || c == 4 || c == 0x10

/-- The ranges of a command's operands. -/
def Instr.wf : Instr → Bool
  | .registerWrite _ _ w _ => accessWidth w
  | .rcRead _ _ w => accessWidth w
  | .loReadCapture _ _ w => accessWidth w
  | .answerWaitTimeout _ _ tag => decide (tag < 4096)
  | .routerHop port _ (some _) => match port with
    | .edge _ => true
    | _ => false
  | .semTake _ _ lease => decide (lease.toNat ≤ 60000)
  | .semRenew _ _ lease => decide (lease.toNat ≤ 60000)
  | .semBreak _ _ lease => decide (lease.toNat ≤ 60000)
  | .scrubLine _ strikes => strikes.all fun x => x.addr % 8 == 0
  | .sbExchange _ peers => distinctModules (peers.map (·.m))
  | .mbInit _ tests => distinctModules (tests.map (·.m))
  | .mbTrain _ eyes => decide (eyes.length ≤ 4)
  | .flit _ flits => distinctModules (flits.map (·.m))
  | .fastLoop _ choice => choice.length == 16 && choice.all fun k => decide (1 ≤ k.toNat ∧ k.toNat ≤ 16)
  | .thermalThrottle readings => readings.length == 40
  | .porstRelease aged => decide (aged.length ≤ 16)
  | .i3cPrivateWrite bytes => !bytes.isEmpty
  | .i3cPrivateRead n => decide (n ≤ 256)
  | .bypass code => !otherTapCode code
  | .laneMargining _ _ eyes _ => decide (eyes.length ≤ 68)
  | .imageLoader _ bytes => decide (bytes.length ≤ 0x60000)
  | _ => true

end Sys2Proof
end

