-- ==== Sys2Proof/Tests/Slice0.lean ====
section
/-! SUPPORT. Ill-formed terms that the well-formedness check refuses, concrete states that meet the hypotheses of the statements, and single
steps whose results are worked out from the rules cited. -/

namespace Sys2Proof.Tests

set_option Elab.async false

open Sys2Proof.Machine Sys2Proof.Claims

/-! ### States to test on -/

/-- A die out of reset, at site (1, 1) with a die beyond every edge and every core present. -/
def up : State :=
  ({ State.reset with porst := false, cores := Vector.replicate 16 (Core.reset true 40) } : State).modBlf fun b =>
    { b with shadow := ((Vector.replicate 256 0).set 0 0x49).set 1 0x249 }

/-- … whose core 0 is awake and belongs to key 5. -/
def awake : State := up.modCore 0 fun k => { k with cstate := .c0, owner := some 5 }

/-- The next state of a command, tested. -/
def gives (i : Instr) (s : State) (f : State → Bool) : Bool :=
  match exec i s with
  | .next t => f t
  | _ => false

/-- An unmet wait on counter 3 for the value 1. -/
def waiting : Wait :=
  { kind := .header, counter := 3, thresh := 1, desc := 0, timeout := 1000, own := false, began := 0, elapsed := 0, woken := true, expired := false }

/-! ### Well-formedness refuses each ill-formed operand -/

/-- A packet that reaches core 0 of die 0. -/
def packet : Packet :=
  { vc := 0, epoch := false, amode := false, opcode := 0, len := 0, pkey := 5, destDie := 0, destCore := 0, destUnit := 0, destRank := 0, mc := false,
    spec := false, turned := false, down := false, escP := false, srcDie := 1, srcCore := 2, srcUnit := 5, tag := 9, hops := 0, window := 0,
    sigCnt := 3, sigInc := 1, offset := 0, seq := 0, aux := 0, poison := 0, payload := [] }

/-- A module's report in SB_EXCHANGE. -/
def report (m : Fin 20) : ModulePeer :=
  { m := m, dieId := 1, x := 1, y := 0, edge := 3, module := 0, att := 0, repairTx := 0, repairRx := 0, ucieRate := none }

/-- A module test without a failure. -/
def clean (m : Fin 20) : LaneTest :=
  let d : DirTest := { lanes := [], clk := false, vld := false, vldSpare := false, trk := false, trkSpare := false }
  { m := m, tx := d, rx := d, ucie := none }

/-- A flit of zeros. -/
def idleFlit (m : Fin 20) : FlitIn := { m := m, bits := 0, off := false }

theorem test_wf_register_width : Instr.wf (.registerWrite .campanile 0 3 0) = false := by decide
theorem test_wf_rc_width : Instr.wf (.rcRead .campanile 0 16) = false := by decide
theorem test_wf_lo_width : Instr.wf (.loReadCapture .campanile 0 0) = false := by decide
theorem test_wf_tag : Instr.wf (.answerWaitTimeout 0 .mover 4096) = false := by decide
theorem test_wf_hop_port : Instr.wf (.routerHop .loc .req (some packet)) = false := by decide
theorem test_wf_hop_mgmt : Instr.wf (.routerHop .mgmt .mgt (some packet)) = false := by decide
theorem test_wf_take : Instr.wf (.semTake .A 0 60001) = false := by decide
theorem test_wf_renew : Instr.wf (.semRenew .A 0 60001) = false := by decide
theorem test_wf_break : Instr.wf (.semBreak .B 0 60001) = false := by decide
theorem test_wf_strike : Instr.wf (.scrubLine 0 [{ addr := 12, double := false }]) = false := by decide
theorem test_wf_reports : Instr.wf (.sbExchange 0 [report 3, report 3]) = false := by decide
theorem test_wf_tests : Instr.wf (.mbInit 0 [clean 3, clean 4, clean 3]) = false := by decide
theorem test_wf_eyes : Instr.wf (.mbTrain 0 (List.replicate 5 { rate := 3, pass := 0 })) = false := by decide
theorem test_wf_flits : Instr.wf (.flit 0 [idleFlit 7, idleFlit 7]) = false := by decide
theorem test_wf_levels : Instr.wf (.fastLoop { power := 0, current := 0, nextPower := 0, nextCurrent := 0 } (List.replicate 15 16)) = false := by decide
theorem test_wf_level_0 : Instr.wf (.fastLoop { power := 0, current := 0, nextPower := 0, nextCurrent := 0 } (List.replicate 16 0)) = false := by decide
theorem test_wf_level_17 : Instr.wf (.fastLoop { power := 0, current := 0, nextPower := 0, nextCurrent := 0 } (List.replicate 16 17)) = false := by decide
theorem test_wf_readings : Instr.wf (.thermalThrottle (List.replicate 39 0)) = false := by decide
theorem test_wf_aged : Instr.wf (.porstRelease (List.replicate 17 0)) = false := by decide
theorem test_wf_i3c_write : Instr.wf (.i3cPrivateWrite []) = false := by decide
theorem test_wf_i3c_read : Instr.wf (.i3cPrivateRead 257) = false := by decide
theorem test_wf_bypass : Instr.wf (.bypass 0x10) = false := by decide
theorem test_wf_margins : Instr.wf (.laneMargining 0 0 (List.replicate 69 0) false) = false := by decide
theorem test_wf_image : Instr.wf (.imageLoader .image (List.replicate 0x60001 0)) = false := by
  show decide ((List.replicate 0x60001 (0 : Byte)).length ≤ 0x60000) = false
  rw [List.length_replicate]; decide
theorem test_wf_accepts : Instr.wf (.routerHop (.edge 0) .req (some packet)) = true := by decide

/-! ### Number formats (03) -/

/-- 3/4 of a unit, to be rounded to a whole one: O1 and O2 have an exact value that is no multiple of the unit. -/
theorem witness_rounding : ({ neg := false, m := 3, e := -2, sticky := false } : Exact).sticky = false
    ∧ exactSize { neg := false, m := 3, e := -2, sticky := false } = ((0 : ℤ) + (3 / 4 : ℚ)) * (2 : ℚ) ^ (0 : Int) := by
  refine ⟨rfl, ?_⟩
  norm_num [exactSize]

/-- The half that ties to even: 1/2 rounds to 0, 3/2 to 2 (R79). -/
theorem test_round_ties : (roundAt .rne 0 { neg := false, m := 1, e := -1, sticky := false } 0).1 = 0
    ∧ (roundAt .rne 0 { neg := false, m := 3, e := -1, sticky := false } 0).1 = 2 := by decide

/-- 2^128 overflows FP32 to infinity with OF and NX, and saturates to the largest value under SAT (Table NUM-4). -/
theorem test_overflow : roundTo .fp32 .rne 0 false true { neg := false, m := 1, e := 128, sticky := false } = (0x7F800000, 0x0A)
    ∧ (roundTo .fp32 .rne 0 true true { neg := false, m := 1, e := 128, sticky := false }).1 = 0x7F7FFFFF := by decide +kernel

/-- 2^−130 is kept as a subnormal, or flushed with FLUSH, UF and NX under SUBN = 0 (R84, R85). -/
theorem test_tiny : roundTo .fp32 .rne 0 false true { neg := true, m := 1, e := -130, sticky := false } = (0x80080000, 0)
    ∧ roundTo .fp32 .rne 0 false false { neg := true, m := 1, e := -130, sticky := false } = (0x80000000, 0x1C) := by decide +kernel

/-- +∞ − ∞ is the canonical NaN with NV; MAX prefers the number to a NaN, and +0 to −0 (R88, R94). -/
theorem test_add_invalid : fAdd .fp32 true 0x7F800000 0xFF800000 = (0x7FC00000, 1) := by decide +kernel
theorem test_max_zeros : fMaxMin true .fp32 true 0x80000000 0 = (0, 0) ∧ fMaxMin true .fp32 true 0x7FC00000 0x3F800000 = (0x3F800000, 0) := by
  decide +kernel

/-! ### The vector engine (07) -/

/-- An instruction word of Table VEC-1. -/
def insOf (op vd va vb vc fmt rm imm : Nat) : Nat :=
  op * 2 ^ 56 + vd * 2 ^ 51 + va * 2 ^ 46 + vb * 2 ^ 41 + vc * 2 ^ 36 + fmt * 2 ^ 32 + rm * 2 ^ 28 + imm

/-- A register with `a` in lane 0 and `b` in lane 1. -/
def lanes (a b : Word) : VReg := { VReg.zero with lane := (VReg.zero.lane.set 0 a).set 1 b }

/-- The vector engine of core 0 runs at Cupola offset 64, where the word `w` stands, with VL = 2: v1 holds 1.0 and 2.0, v2 holds 1.5 and 3.0. -/
def vecAt (w : Nat) : State :=
  (awake.modVec 0 fun v => { v with
    running := true, pc := 64, vl := 2
    a := (v.a.set 1 0x1000).set 2 64
    v := (v.v.set 1 (lanes 0x3F800000 0x40000000)).set 2 (lanes 0x3FC00000 0x40400000) }).put (coreBase 0 + 64) (leBytes w 8)

/-- Its vector engine. -/
abbrev State.vec0 (s : Machine.State) : VecEngine := (s.core 0).vec

/-- What the hypotheses of a vector row's completion ask of a state. -/
def runsB (s : State) (w : Nat) : Bool :=
  s.powered && (s.core 0).live && (s.core 0).vec.running && (s.core 0).vec.q.freeze.isNone && decide ((s.core 0).vec.pc < cupolaEnd)
    && s.insWord 0 == w && !(decodeIns w).fieldsBad && !(decodeIns w).operandsBad

/-- … it is that. -/
theorem runs_of {s : State} {w : Nat} (h : runsB s w = true) : Runs s 0 (decodeIns w) := by
  simp [runsB] at h
  exact ⟨⟨h.1.1.1.1.1.1.1, h.1.1.1.1.1.1.2, h.1.1.1.1.1.2, h.1.1.1.1.2, h.1.1.1.2, by rw [h.1.1.2]⟩, h.1.2, h.2⟩

/-- One well-formed word of every row of Table VEC-2. -/
def words : List Nat :=
  [insOf 0x00 0 0 0 0 0 0 0, insOf 0x01 0 0 0 0 0 0 0, insOf 0x02 0 1 0 0 0 0 0, insOf 0x03 3 0 0 0 0 0 0xABCD, insOf 0x04 3 0 0 0 0 0 0x1234,
    insOf 0x05 3 1 0 0 0 0 8, insOf 0x06 0 1 0 0 0 0 0xFFFFFFF, insOf 0x07 3 1 0 0 0 0 0, insOf 0x10 3 1 2 0 0 0 0, insOf 0x11 1 1 2 0 0 0 0,
    insOf 0x12 3 1 2 0 0 0 0, insOf 0x13 1 1 2 0 0 0 0, insOf 0x20 3 1 2 0 0 0 0, insOf 0x21 3 1 2 0 0 0 0, insOf 0x22 3 1 2 0 0 0 0,
    insOf 0x23 3 1 2 1 0 0 0, insOf 0x24 3 1 2 0 0 0 0, insOf 0x25 3 1 2 0 0 0 0, insOf 0x26 3 1 0 0 0 0 0, insOf 0x27 3 1 0 0 0 0 0,
    insOf 0x28 3 1 0 0 0 0 0]
  ++ [insOf 0x30 3 1 2 0 0 0 0, insOf 0x31 3 1 2 0 0 0 0, insOf 0x32 3 1 2 0 0 0 0, insOf 0x33 3 1 2 0 0 0 0, insOf 0x34 3 1 2 4 0 0 0,
    insOf 0x40 3 1 0 0 0 0 0, insOf 0x41 3 1 0 0 0 0 0, insOf 0x42 3 1 0 0 0 0 0, insOf 0x43 3 1 0 0 0 0 0, insOf 0x50 3 1 0 0 0 0 0,
    insOf 0x51 3 1 0 0 0 0 0, insOf 0x52 3 1 0 0 0 0 0, insOf 0x53 3 1 0 4 0 0 0, insOf 0x54 4 1 0 0 0 0 0, insOf 0x55 4 8 0 0 0 0 0,
    insOf 0x56 4 8 0 0 0 0 0, insOf 0x58 3 1 4 0 0 0 0x21, insOf 0x60 3 1 0 0 1 0 0,
    insOf 0x60 3 1 2 0 2 4 0x20, insOf 0x61 3 1 2 4 2 0 0, insOf 0x61 3 1 2 4 2 0 0x200]

/-- Every row of the vector engine runs somewhere: the hypotheses of O3 to O6. -/
theorem witness_vector_rows : (words.all fun w => runsB (vecAt w) w) = true := by decide +kernel

/-- … which are a `Runs` of the statements, here for ADD. -/
theorem witness_runs : Runs (vecAt (insOf 0x20 3 1 2 0 0 0 0)) 0 (decodeIns (insOf 0x20 3 1 2 0 0 0 0)) := runs_of (by decide +kernel)

/-- A load whose active elements are aligned and inside Cupola, for LD, LDS, ST and STS alike; a misaligned one; one past the end. -/
theorem witness_reaches : Reaches (State.vec0 (vecAt (insOf 0x10 3 1 2 0 0 0 0))) (decodeIns (insOf 0x10 3 1 2 0 0 0 0)) false
    ∧ Reaches (State.vec0 (vecAt (insOf 0x12 3 1 2 0 0 0 0))) (decodeIns (insOf 0x12 3 1 2 0 0 0 0)) true := by
  unfold Reaches; decide +kernel
theorem witness_reaches_not : ¬ Reaches (State.vec0 (vecAt (insOf 0x10 3 1 2 0 0 0 2))) (decodeIns (insOf 0x10 3 1 2 0 0 0 2)) false
    ∧ ¬ Reaches (State.vec0 (vecAt (insOf 0x10 3 1 2 0 0 0 0x5FEFFC))) (decodeIns (insOf 0x10 3 1 2 0 0 0 0x5FEFFC)) false := by
  unfold Reaches; decide +kernel

/-- What Table VEC-4 refuses: a reserved opcode, an IMM where none is allowed, equal vd and vc of ACCSQ; a branch to −8, where one to 0 is taken. -/
theorem witness_vector_refusals : opUse (decodeIns (insOf 0x0F 0 0 0 0 0 0 0)).op = none ∧ (decodeIns (insOf 0 0 0 0 0 0 0 1)).fieldsBad = true
    ∧ (decodeIns (insOf 0x53 3 1 0 3 0 0 0)).operandsBad = true := by decide +kernel
theorem test_branch_edges :
    gives (.bnz 0) (vecAt (insOf 0x06 0 1 0 0 0 0 0xFFFFFF7)) (fun t => (t.core 0).vec.q.freeze.isSome && t.blf.newest == 0) = true
    ∧ gives (.bnz 0) (vecAt (insOf 0x06 0 1 0 0 0 0 0xFFFFFF8)) (fun t => (t.core 0).vec.pc == 0 && (t.core 0).vec.adr 1 == 0xFFF) = true := by
  decide +kernel
theorem witness_pc_outside : cupolaEnd ≤ (State.vec0 ((vecAt 0).modVec 0 fun v => { v with pc := 0x600000 })).pc := by decide +kernel

/-- 1.0 + 1.5 = 2.5 and 2.0 + 3.0 = 5.0; the inactive lane 2 stays 0. -/
theorem test_add : gives (.add 0) (vecAt (insOf 0x20 3 1 2 0 0 0 0)) (fun t =>
    ((t.core 0).vec.reg 3).part 4 0 == 0x40200000 && ((t.core 0).vec.reg 3).part 4 1 == 0x40A00000 && ((t.core 0).vec.reg 3).part 4 2 == 0
      && (t.core 0).vec.pc == 72) = true := by decide +kernel
/-- 1.0 × 1.5 + 1.0 = 2.5. -/
theorem test_fma : fFma .fp32 true 0x3F800000 0x3FC00000 0x3F800000 = (0x40200000, 0) := by decide +kernel
/-- 1/2 is 0.5; 2^1 is 2; log₂ 2 is 1 (R445). -/
theorem test_recip : fSpecial .recip .fp32 true 0x40000000 = (0x3F000000, 0) := by decide +kernel
theorem test_exp2 : fSpecial .exp2 .fp32 true 0x3F800000 = (0x40000000, 0) := by decide +kernel
theorem test_log2 : fSpecial .log2 .fp32 true 0x40000000 = (0x3F800000, 0) := by decide +kernel
/-- 1.0 + 2.0 = 3.0 in lane 0. -/
theorem test_rsum : gives (.rsum 0) (vecAt (insOf 0x50 3 1 0 0 0 0 0)) (fun t => ((t.core 0).vec.reg 3).part 4 0 == 0x40400000) = true := by decide +kernel
/-- FP32 1.0 and 2.0 become FP16 0x3C00 and 0x4000 (Table NUM-1). -/
theorem test_cvt : gives (.cvt 0) (vecAt (insOf 0x60 3 1 0 0 1 0 0)) (fun t => ((t.core 0).vec.reg 3).part 2 0 == 0x3C00
    && ((t.core 0).vec.reg 3).part 2 1 == 0x4000) = true := by decide +kernel
/-- A store writes its lanes at a1 = 0x1000, little-endian. -/
theorem test_st : gives (.st 0) (vecAt (insOf 0x11 2 1 2 0 0 0 0)) (fun t => t.mem.load (coreBase 0 + 0x1000) 8
    == [0, 0, 0xC0, 0x3F, 0, 0, 0x40, 0x40]) = true := by decide +kernel
/-- LIL writes the low half. -/
theorem test_lil : gives (.lil 0) (vecAt (insOf 0x03 1 0 0 0 0 0 0xABCD)) (fun t => (t.core 0).vec.adr 1 == 0xABCD) = true := by decide +kernel

/-! ### Counters, waits and registers (09, 01) -/

/-- A master of the owning partition may write the first and the last counter register and CORE_BELL_RING. -/
theorem witness_counters : MasterMay awake (.unit 0 .vec) (coreBase 0 + 0xF10000) true ∧ MasterMay awake (.unit 0 .vec) (coreBase 0 + 0xF100FC) true
    ∧ MasterMay awake (.unit 0 .vec) (coreBase 0 + 0xF10318) true := by
  unfold MasterMay; decide +kernel

/-- A subtraction below 0 stops at 0 with UNDER, and logs 0x602 while CNT_CTRL enables it (R243). -/
theorem test_counter_under : gives (.coreCntSub (.unit 0 .vec) 0 3 1) awake (fun t =>
    (t.core 0).cnt[3] == 0 && (t.core 0).under == 8 && (lastRecord t).code == 0x602) = true := by decide +kernel

/-- Core 0 with the descriptor `d` in ring slot 0 and its ring enabled. -/
def ring (d : Nat) : State := (awake.modSeq 0 fun q => { q with enable := true, tail := 1 }).put (coreBase 0) (leBytes d 64)

/-- A WAIT on counter 3 for 1 that subtracts 1 (Table TIL-13): TYPE, WAIT_CNT, WAIT_THRESH and DEC. -/
def waitD : Nat := 0x30 + 3 * 2 ^ 24 + 2 ^ 48

/-- `ring waitD` with the sequencer in the wait `w` and counter 3 holding `n`. -/
def inWait (w : Wait) (n : BitVec 16) : State :=
  ((ring waitD).modSeq 0 fun q => { q with wait := some w }).modCore 0 fun k => { k with cnt := k.cnt.set 3 n }

/-- Each clause of the retests is met: unmet waits of the sequencer, the mover and an engine; a met header wait and a met WAIT. -/
theorem witness_retest :
    ((inWait waiting 0).powered && ((inWait waiting 0).core 0).live && waiting.woken && !met (inWait waiting 0) 0 waiting
      && met (inWait waiting 1) 0 waiting && ((inWait waiting 1).nextDesc 0).isSome
      && met (inWait { waiting with kind := .waitDesc } 1) 0 { waiting with kind := .waitDesc }
      && (((awake.modQ 0 .mover fun q => { q with wait := some waiting }).core 0).mov.q.wait == some waiting)
      && (((awake.modQ 0 (.eng 2) fun q => { q with wait := some waiting }).eng 0 2).q.wait == some waiting)) = true := by decide +kernel

/-- A WAIT of the sequencer, a LOADB to be staged that expires before its engine's queue head, and a chain wait can all expire. -/
theorem witness_timeout :
    waitOf (inWait waiting 0) 0 .seq none = some waiting
    ∧ waitOf (awake.modEng 0 1 fun x => { x with
        stageWait := some { waiting with elapsed := 10 }, q := { x.q with wait := some waiting } }) 0 (.eng 1) none = some { waiting with elapsed := 10 }
    ∧ waitOf (awake.modGroup 0 1 7 fun x => { x with wait := some { waiting with kind := .chainRecv } }) 0 (.eng 1) (some 7)
        = some { waiting with kind := .chainRecv } := by decide +kernel
theorem test_timeout : gives (.waitTimeout 0 .seq none) (inWait waiting 0) (fun t =>
    (lastRecord t).code == 0x601 && (lastRecord t).address == 3 && t.now == 1000 && (t.core 0).seq.freeze.isSome) = true := by decide +kernel

/-- A REMOTE_WRITE packet of the mover with TAG 4095 that has not been answered. -/
def unanswered : State := awake.modCore 0 fun k => { k with outst := [
  { unit := 5, pkt := { packet with tag := 4095, srcCore := 0 }, loc := 0, spec := false, due := 1, began := 0, elapsed := 7, timeout := 1000, desc := 0,
    off := 0x80, failed := false }] }
theorem witness_answer_wait : ((unanswered.core 0).outst.find? fun o => o.unit.toNat == unitNum .mover && o.pkt.tag.toNat == 4095).isSome = true := by
  decide +kernel
theorem test_answer_wait : gives (.answerWaitTimeout 0 .mover 4095) unanswered (fun t =>
    (lastRecord t).code == 0x601 && (lastRecord t).address == 4223 && (lastRecord t).detail == 0x80 && t.now == 993 && (t.core 0).outst.isEmpty) = true := by
  decide +kernel

/-- A two-byte write of a core's register, reachable and without effect (R15). -/
theorem witness_width : ((region (coreBase 0 + 0xF00014)).isRegs && (awake.regRead ((coreBase 0 + 0xF00014) / 4 * 4)).isSome
    && !awake.gated (region (coreBase 0 + 0xF00014)) && (awake.core 0).present && awake.acts (.unit 0 .seq)) = true := by decide +kernel

/-- The registers of the statements are open to the owner. -/
theorem witness_registers : ([0xF00008, 0xF0000C, 0xF00014, 0xF00000, 0xF20010, 0xF10300, 0xF4300C, 0xF43004, 0xF1031C].all fun o =>
      awake.acts (.netif 0) && awake.judge (.netif 0) (coreBase 0 + o) true == .ok)
    && ([0xF30100, 0xF43010, 0xF20020, 0xF20024].all fun o => awake.judge (.netif 0) (coreBase 0 + o) false == .ok) = true := by decide +kernel

/-- A tail past the ring of 64 slots is rejected; the last slot is accepted (R160). -/
theorem test_tail_edges :
    gives (.seqTailWrite .campanile 0 64) awake (fun t => (t.core 0).seq.tailRej && (t.core 0).seq.tail == 0) = true
    ∧ gives (.seqTailWrite .campanile 0 63) awake (fun t => !(t.core 0).seq.tailRej && (t.core 0).seq.tail == 63) = true := by decide +kernel
/-- LOG2 = 17 is stored as 6, 16 as itself (R162). -/
theorem test_log2_clamp :
    gives (.seqRingConfigWrite .campanile 0 .size 17) awake (fun t => (t.core 0).seq.log2 == 6) = true
    ∧ gives (.seqRingConfigWrite .campanile 0 .size 16) awake (fun t => (t.core 0).seq.log2 == 16) = true := by decide +kernel
/-- Source j of seed 1 is 1 + j × 0x9E3779B9 (R80). -/
theorem test_seed : gives (.vecSrSeedWrite .campanile 0 1) awake (fun t => (t.core 0).vec.sr[1] == 0x9E3779BA) = true := by decide +kernel

/-- Each verdict of a refused access arises: a reserved address, a sleeping core, a foreign key, a register region closed to writes. -/
theorem witness_refusals :
    awake.judge (.unit 0 .vec) (coreBase 0 + 0x600000) false = .reserved
    ∧ (awake.modCore 1 fun k => { k with owner := some 5 }).judge (.unit 0 .vec) (coreBase 1 + 0xF10000) true = .coreState 4
    ∧ awake.judge (.unit 0 .vec) (coreBase 1 + 0xF10000) true = .key ∧ awake.judge (.unit 0 .vec) 0x0200000000 true = .readOnly := by decide +kernel
theorem test_foreign_key : gives (.registerWrite (.unit 0 .vec) (BitVec.ofNat 40 (coreBase 1 + 0xF10000)) 4 1) awake (fun t =>
    (lastRecord t).code == 0x201 && (t.core 0).vec.q.freeze.isSome && (t.core 1).cnt[0] == 0) = true := by decide +kernel

/-! ### Tile programs and the sequencer (06) -/

/-- The next descriptor of core 0, of type `code`, meets what the statements about the sequencer's own descriptors ask, its predicate saying
`run`. -/
def ownB (s : State) (code : Nat) (run : Bool) : Bool :=
  match s.nextDesc 0 with
  | some n => s.powered && s.seqReady 0 && dType n.d == code && (dPerformer n.d).isNone && !descBad n.seg n.d && s.maskSays 0 n.d == .run
      && (s.core 0).predRuns n.d == run && (s.core 0).seq.waitMet.isNone && (s.core 0).seq.loop.isNone
      && decide (dWaitThresh n.d = 0 ∨ dWaitThresh n.d ≤ cntAt s 0 (dWaitCnt n.d))
  | none => false

/-- A byte of a descriptor. -/
def at_ (i v : Nat) : Nat := v * 256 ^ i

/-- A HALT, a FENCE of the mover, a PHASE, a SIGNAL that adds 5 to counter 3, a WAIT, JUMPs of the four modes, a REPEAT of one slot. -/
def haltD : Nat := 0x44
def fenceD : Nat := 0x43 + at_ 8 0x20
def phaseD : Nat := 0x42 + at_ 5 7
def signalD : Nat := 0x31 + at_ 10 3 + at_ 12 5
def jumpD (mode target : Nat) : Nat := 0x40 + at_ 8 mode + at_ 12 target
def repeatD : Nat := 0x41 + at_ 8 2 + at_ 10 1 + at_ 12 1 + at_ 14 1

/-- The ring with a REPEAT and its one body slot, both handed over; in a segment at offset 0x1000 for JUMP modes 2 and 3. -/
def ring2 (d body : Nat) : State := ((ring d).modSeq 0 fun q => { q with tail := 2 }).put (coreBase 0 + 64) (leBytes body 64)
def segment (d : Nat) : State := ((ring 0).modSeq 0 fun q => { q with segment := some 0x1000 }).put (coreBase 0 + 0x1000) (leBytes d 64)
def masked (d : Nat) : Nat := d + at_ 2 0x43

/-- O14 to O16: every own descriptor acts somewhere, and is skipped somewhere (here for counter 3, which is 0). -/
theorem witness_own :
    (ownB ((ring waitD).modCore 0 fun k => { k with cnt := k.cnt.set 3 1 }) 0x30 true && ownB (ring signalD) 0x31 true && ownB (ring phaseD) 0x42 true && ownB (ring fenceD) 0x43 true
      && ownB (ring haltD) 0x44 true && ownB (ring (jumpD 0 3)) 0x40 true && ownB (ring (jumpD 1 0x1000)) 0x40 true
      && ownB (segment (jumpD 2 0xFFFFFFFF)) 0x40 true && ownB (segment (jumpD 3 0)) 0x40 true && ownB (ring2 repeatD signalD) 0x41 true
      && [masked signalD, masked (jumpD 0 3), masked phaseD, masked fenceD, masked haltD].all fun d => ownB (ring d) (d % 256) false) = true := by
  decide +kernel
theorem witness_own_stops :
    ((ring (jumpD 2 1)).nextDesc 0).any (fun n => descBad n.seg n.d) = true
    ∧ ((ring waitD).nextDesc 0).any (fun n => decide (cntAt (ring waitD) 0 (dWaitCnt n.d) < dWaitThresh n.d)) = true
    ∧ ((ring2 repeatD signalD).nextDesc 0).any (fun n => !(ring2 repeatD signalD).bodyBad 0 n) = true
    ∧ ((ring2 repeatD (jumpD 0 1)).nextDesc 0).any (fun n => (ring2 repeatD (jumpD 0 1)).bodyBad 0 n) = true := by decide +kernel

/-- A met WAIT subtracts DEC, here 1 from 4 (R181). -/
theorem test_wait : gives (.wait 0) ((ring (waitD + at_ 8 1)).modCore 0 fun k => { k with cnt := k.cnt.set 3 4 }) (fun t => (t.core 0).cnt[3] == 3 && (t.core 0).seq.retired == 1
    && (t.core 0).seq.head == 1) = true := by decide +kernel
theorem test_wait_sleeps : gives (.wait 0) (ring waitD) (fun t => (t.core 0).seq.wait.isSome && (t.core 0).seq.retired == 0) = true := by
  decide +kernel
/-- A local SIGNAL adds 5 (R182). -/
theorem test_signal : gives (.signal 0 .dispatch) (ring signalD) (fun t => (t.core 0).cnt[3] == 5 && (t.core 0).seq.head == 1) = true := by decide +kernel
/-- PHASE enters phase 7 (R186). -/
theorem test_phase : gives (.phase 0) (ring phaseD) (fun t => (t.core 0).seq.phase == 7) = true := by decide +kernel
/-- JUMP by 3 with 1 slot handed over skips 3 more once they come; −1 in a segment goes back one descriptor (R183). -/
theorem test_jump_ring : gives (.jump 0) (ring (jumpD 0 3)) (fun t => (t.core 0).seq.head == 1 && (t.core 0).seq.loopSkip == 3) = true := by decide +kernel
theorem test_jump_back : gives (.jump 0) (segment (jumpD 2 0xFFFFFFFF)) (fun t => (t.core 0).seq.segment == some 0xFC0) = true := by decide +kernel
/-- A REPEAT releases its own slot and its body's (R184). -/
theorem test_repeat : gives (.repeatDesc 0) (ring2 repeatD signalD) (fun t => (t.core 0).seq.head == 2 && (t.core 0).seq.loop.isSome) = true := by
  decide +kernel

/-- A descriptor for each queued row of Table TIL-3. -/
def queuedD : List Nat :=
  [1, 2] ++ ((List.range 8).map fun op => 3 + at_ 8 op) ++ [0x10, 0x20, 0x21, 0x22, 0x23, 0x24, 0x25, 0x26, 0x31 + at_ 9 1]

/-- O13: each row dispatches its own. -/
theorem witness_queued : (((queuedRows 0).zip queuedD).all fun x => x.1.2.1 (BitVec.ofNat 512 x.2)) && queuedD.length == 19
    && (ring 0x20).seqReady 0 && ((ring 0x20).nextDesc 0).isSome = true := by decide +kernel
theorem test_dispatch : gives (.move 0 .dispatch) (ring 0x20) (fun t => (t.core 0).mov.q.queue.length == 1 && (t.core 0).seq.head == 1) = true := by
  decide +kernel

/-! ### Queues, the matrix engines and the groups (02, 04, 06) -/

/-- A queued descriptor, numbered 4, from Cupola offset 0x80. -/
def entry (d : Nat) : QEntry :=
  { id := 4, bits := BitVec.ofNat 512 d, off := 0x80, maskSkip := false, runs := none, subn := true, zgate := true, taken := .no, inSegment := false }

/-- … once started. -/
def started (d : Nat) (p : Progress) : Active :=
  { entry := entry d, progress := p, null := false, steps := 0, promoted := 0, poisonLogged := false, boundsLogged := false }

/-- Core 0 with an entry at the head of a unit's queue; with a started descriptor. -/
def headed (u : UnitId) (en : QEntry) : State := awake.modQ 0 u fun q => { q with queue := [en] }
def running (u : UnitId) (d : Nat) (p : Progress) : State := awake.modQ 0 u fun q => { q with active := [started d p] }

/-- A LOADB of one FP16 element at 0x100; a STREAM of one row of it from 0x200; a MOVE of 16 bytes from Cupola 0x1008 to 0x2008; the header wait for
counter 3 to reach 1. -/
def loadbD : Nat := 1 + at_ 9 1 + at_ 12 1 + at_ 14 1 + at_ 16 0x100 + at_ 20 64
def streamD : Nat := 2 + at_ 10 1 + at_ 12 1 + at_ 14 1 + at_ 20 0x200 + at_ 24 16
def moveD : Nat := 0x20 + at_ 16 (coreBase 0 + 0x1008) + at_ 24 (coreBase 0 + 0x2008) + at_ 32 16 + at_ 36 1
def waits (d : Nat) : Nat := d + 3 * 2 ^ 24 + 2 ^ 48

/-- The staged tile of `loadbD`: 1.0 at row 0, column 0. -/
def tile : Tile :=
  { geom := 0, scaleMode := 0, subn := true, colMax := some 0 :: List.replicate 31 none, rowMax := some 0 :: List.replicate 31 none,
    zeroMap := 0, flushed := false, poisoned := false, area := none, k := 1, n := 1, installed := false }

/-- … in the array of engine 1 of core 0, with `streamD` entering steps; A is 2.0. -/
def streaming : State :=
  ((running (.eng 1) streamD .started).modEng 0 1 fun x => { x with
    slots := x.slots.set 2 (some { tile with installed := true })
    array := some { slot := 2, tile := { tile with installed := true }, vals := [0x00, 0x3C], area := [], scales := [] } }).put (coreBase 0 + 0x200) [0x00, 0x40]

/-- A step in flight whose chunk is 3 × 2^−1. -/
def step1 : FlightStep :=
  { id := 0, slot := 2, group := 0, row0 := 0, a := [[(0x4000, 0x7F)]], orient := false, subn := true, zgate := true, flushed := false, poisoned := false,
    poisonAt := 0, overflow := false, chunks := [[{ q := 3, unit := -1, side := 0, inexact := false }]], desc := 4 }
def inFlight (f : FlightStep) : State := streaming.modEng 0 1 fun x => { x with flight := [f] }

/-- What `Head` and one clause of QueueHeadsStartInOrder ask of a queue head. -/
def headB (s : State) (u : UnitId) (en : QEntry) (reached runs bad : Bool) : Bool :=
  s.powered && (s.core 0).live && (s.frozen 0 u).isNone && ((s.core 0).unitQ u).queue == [en]
    && decide (dWaitThresh en.bits ≤ cntAt s 0 (dWaitCnt en.bits)) == reached && mayRun s 0 en == runs && descBad en.inSegment en.bits == bad

/-- O17: an unmet head, a null one, a refused one, ones that start, a staged and a skipped LOADB, a STREAM that fits. -/
theorem witness_heads :
    (headB (headed .mover (entry (waits moveD))) .mover (entry (waits moveD)) false true false
      && headB (headed .mover (entry (masked moveD))) .mover (entry (masked moveD)) true false false
      && headB (headed .mover (entry 0x20)) .mover (entry 0x20) true true true
      && headB (headed .mover (entry moveD)) .mover (entry moveD) true true false
      && headB (headed (.eng 1) (entry 3)) (.eng 1) (entry 3) true true false
      && headB (headed (.eng 1) { entry loadbD with taken := .staged 2 }) (.eng 1) { entry loadbD with taken := .staged 2 } true true false
      && headB (headed (.eng 1) { entry loadbD with taken := .skipped }) (.eng 1) { entry loadbD with taken := .skipped } true true false
      && ((streaming.modQ 0 (.eng 1) fun _ => { UnitQ.empty with queue := [entry streamD] }).eng 0 1).streamFree (BitVec.ofNat 512 streamD)
      && !(streaming.eng 0 1).streamUnfit (BitVec.ofNat 512 streamD)) = true := by decide +kernel
theorem test_head_starts : gives (.headerWaitMet 0 .mover) (headed .mover (entry moveD)) (fun t =>
    (t.core 0).mov.q.queue.isEmpty && (t.core 0).mov.q.active.length == 1) = true := by decide +kernel
theorem test_head_refused : gives (.headerWaitMet 0 .mover) (headed .mover (entry 0x20)) (fun t =>
    (lastRecord t).code == 0x502 && (lastRecord t).detail == 0x80 && (t.core 0).mov.q.freeze.isSome) = true := by decide +kernel

/-- Retirement of a complete descriptor with its completion signal to counter 5; of a FENCE and of a HALT (R169, R187, R188). -/
def signals (d : Nat) : Nat := d + 0x100 + 5 * 2 ^ 34
theorem test_retire : gives (.descriptorRetire 0 .mover) (running .mover (signals moveD) .done) (fun t =>
    (t.core 0).cnt[5] == 1 && (t.core 0).seq.retired == 1 && (t.core 0).mov.q.active.isEmpty) = true := by decide +kernel
theorem test_retire_fence : gives (.descriptorRetire 0 .seq) (awake.modSeq 0 fun q => { q with fencing := some { entry := entry fenceD, marks := none, failed := false } })
    (fun t => (t.core 0).seq.fencing.isNone && (t.core 0).seq.head == 1) = true := by decide +kernel
theorem test_retire_halt : gives (.descriptorRetire 0 .seq) (awake.modSeq 0 fun q => { q with halting := some (entry haltD) })
    (fun t => (t.core 0).seq.halted && (t.core 0).seq.head == 1) = true := by decide +kernel
theorem witness_fence_marks :
    let s := (awake.modSeq 0 fun q => { q with fencing := some { entry := entry (0x43 + at_ 8 0x40), marks := none, failed := false } }).modMov 0 fun m =>
      { m with fenceDests := [(7, false)] }
    ((s.core 0).live && bitOf (dBits (entry (0x43 + at_ 8 0x40)).bits 8 0 7) 6 && (s.core 0).mov.fenceDests.length == 1) = true := by decide +kernel

/-- The head LOADB of engine 1 may be staged in slot 0. -/
def toStage (d : Nat) : State := (headed (.eng 1) (entry d)).put (coreBase 0 + 0x100) [0x00, 0x3C]
theorem witness_stage_head : StageHead (toStage loadbD) 0 1 (entry loadbD) := ⟨by decide +kernel, by decide +kernel, by decide +kernel, by decide +kernel,
  Or.inr (by decide +kernel)⟩
theorem witness_stage : (mayRun (toStage loadbD) 0 (entry loadbD) && !loadbBad (entry loadbD).bits && ((toStage loadbD).eng 0 1).freeSlot 0 == some 0
    && !mayRun (toStage (masked loadbD)) 0 (entry (masked loadbD)) && loadbBad (entry 1).bits) = true := by decide +kernel
theorem test_stage : gives (.loadbStaging 0 1) (toStage loadbD) (fun t => t.mem.load (slotBase 0 1 0) 2 == [0x00, 0x3C]
    && ((t.eng 0 1).slots[0]).isSome) = true := by decide +kernel

/-- TILE_INSTALL with and without steps still to enter, STEP_ENTRY, and STEP_REPLAY with its tile in the array and with another one. -/
theorem witness_steps :
    (let s := (awake.modEng 0 1 fun x => { x with slots := x.slots.set 2 (some tile), toInstall := [2] })
     (s.eng 0 1).toInstall == [2] && (s.eng 0 1).slots[2] == some tile && (s.eng 0 1).q.feeding.isNone && (streaming.eng 0 1).q.feeding.isSome)
    && (let x := streaming.eng 0 1
        x.q.goesOn && x.q.feeding == some (started streamD .started) && x.array.isSome && !x.holdsEntry 0 0 1
          && !x.q.writesAhead (started streamD .started) [0])
    && (let x := (inFlight { step1 with overflow := true, chunks := [] }).eng 0 1
        (x.flight.find? (·.overflow)).isSome && x.array.any (·.slot == 2))
    && (let x := (inFlight { step1 with overflow := true, chunks := [], slot := 3 }).modEng 0 1 fun x => { x with slots := x.slots.set 3 (some tile) }
        ((x.eng 0 1).flight.find? (·.overflow)).isSome && ((x.eng 0 1).slots[3]).isSome && (x.eng 0 1).array.any (·.slot == 2)) = true := by decide +kernel
theorem test_replay_restores : gives (.stepReplay 0 1) ((inFlight { step1 with overflow := true, chunks := [], slot := 3 }).modEng 0 1 fun x =>
    { x with slots := x.slots.set 3 (some tile) }) (fun t => (t.eng 0 1).restore == .restoring && (t.eng 0 1).array.any (·.slot == 3)
      && (t.eng 0 1).toInstall == [2]) = true := by decide +kernel
theorem witness_promotion : ((inFlight step1).eng 0 1).flight.find? (fun f => !f.overflow) = some step1 ∧ ((inFlight step1).eng 0 1).slots[2] ≠ none
    ∧ ∀ r ∈ step1.chunks, r.length ≤ 32 := by decide +kernel
/-- 3 × 2^−1 promoted into +0 is 1.5, and the STREAM of one step is complete (R111). -/
theorem test_promotion : gives (.promotion 0 1) (inFlight step1) (fun t => t.mem.load (groupBase 0 1 0) 4 == [0, 0, 0xC0, 0x3F]
    && (t.eng 0 1).flight.isEmpty && (t.group 0 1 0).promoted == 1 && (t.eng 0 1).q.active.all (·.progress == .done)) = true := by decide +kernel

/-- The conditions of full headroom and of chunks hold of empty tiles and rows. -/
theorem witness_headroom : Staged .fp16 El.zero ∧ tile.geom.toNat < 3 := ⟨Or.inl rfl, by decide⟩

/-- ACC descriptors on group 0 with FMT 0, one row and one column at 0x400. -/
def accD (op : Nat) : Nat := 3 + at_ 8 op + (if op = 2 then at_ 11 2 else 0) + at_ 12 1 + at_ 14 1 + at_ 16 0x400 + at_ 20 128

/-- Engine 1 with the started ACC `op`, group 0 in state `g`. -/
def accAt (op : Nat) (g : GState) (p : Progress) : State := (running (.eng 1) (accD op) p).modGroup 0 1 0 fun x => { x with state := g }

/-- Every ACC operation can be ready, on a closed group and on an open one. -/
theorem witness_acc (op : Nat) (g : GState) (h : op < 8) : AccReady (accAt op g .started) 0 1 op (started (accD op) .started) := by
  refine ⟨by rfl, ?_, by cases g <;> rfl, ?_, ?_, rfl, [], [], ?_, by simp⟩
  · cases g <;> interval_cases op <;> decide +kernel
  · interval_cases op <;> decide +kernel
  · interval_cases op <;> decide +kernel
  · cases g <;> rfl
theorem witness_acc_good : ((List.range 8).all fun op => !accBad (BitVec.ofNat 512 (accD op)) 1) = true
    ∧ Closing (accAt 4 .closing .epilogue) 0 1 (started (accD 4) .epilogue) := by
  refine ⟨by decide +kernel, ?_⟩
  unfold Closing; decide +kernel
theorem test_close : gives (.close 0 (.perform 1)) ((accAt 4 .closing .epilogue).put (groupBase 0 1 0) [0, 0, 0x80, 0x3F]) (fun t =>
    t.mem.load (coreBase 0 + 0x400) 4 == [0, 0, 0x80, 0x3F] && (t.group 0 1 0).state == .closed) = true := by decide +kernel
theorem test_open_refused : gives (.openZero 0 (.perform 1)) (accAt 0 .opened .started) (fun t =>
    (lastRecord t).code == 0x502 && (t.eng 0 1).q.freeze.isSome) = true := by decide +kernel

/-! ### The mover (05, 06) -/

/-- A VEC program at 0x40; a COMPRESS of a 4 × 2 FP16 tile; a SCATTER and a GATHER of one row of 16 bytes to one expert; remote operations of 16 bytes
from Cupola 0x1008; a remote SIGNAL. -/
def vecD : Nat := 0x10 + at_ 8 0x40
def compressD (dir : Nat) : Nat := 0x26 + at_ 8 dir + at_ 9 1 + at_ 12 4 + at_ 14 2 + at_ 16 0x2000 + at_ 20 64 + at_ 24 0x4000 + at_ 28 0x5000 + at_ 40 0x6000 + at_ 44 1
def routeD (kind : Nat) : Nat := kind + at_ 8 1 + at_ 10 1 + at_ 12 1 + at_ 16 0x1000 + at_ 20 0x1100 + at_ 24 16 + at_ 28 0x1200 + at_ 36 0x1300 + at_ 40 0x1400 + at_ 44 0x1500
def remoteD (kind : Nat) : Nat := kind + at_ 12 0x93 + at_ 14 3 + at_ 20 (coreBase 0 + 0x1008) + at_ 28 16 + at_ 32 1
def remoteSignalD : Nat := 0x31 + at_ 9 1 + at_ 10 3 + at_ 12 2 + at_ 16 0x93 + at_ 18 3

/-- What `UnitReady` asks of the vector engine or the mover. -/
def readyB (s : State) (u : UnitId) (code : Nat) (a : Active) : Bool :=
  s.powered && (s.core 0).live && (s.frozen 0 u).isNone && dType a.entry.bits == code && a.progress == .started && ((s.core 0).unitQ u).active == [a]

theorem ready_of {s : State} {u : UnitId} {code : Nat} {a : Active} (h : readyB s u code a = true) : UnitReady s 0 u code a := by
  simp [readyB] at h
  exact ⟨h.1.1.1.1.1, h.1.1.1.1.2, h.1.1.1.2, h.1.1.2, h.1.2, [], [], h.2, by simp, by simp⟩

/-- Every descriptor of the vector engine and the mover can be ready to be performed. -/
theorem witness_units : (readyB (running .vec vecD .started) .vec 0x10 (started vecD .started)
    && ([(moveD, 0x20), (compressD 0, 0x26), (compressD 1, 0x26), (routeD 0x21, 0x21), (routeD 0x22, 0x22), (remoteD 0x23, 0x23), (remoteD 0x24, 0x24),
        (remoteD 0x25, 0x25), (remoteSignalD, 0x31)].all fun x => readyB (running .mover x.1 .started) .mover x.2 (started x.1 .started))
    && !compressBad (BitVec.ofNat 512 (compressD 0)) && !compressBad (BitVec.ofNat 512 (compressD 1)) && !routeBad true (BitVec.ofNat 512 (routeD 0x22))
    && !routeBad false (BitVec.ofNat 512 (routeD 0x21))) = true := by decide +kernel
theorem witness_move_granted : ∀ b, b < 16 → awake.verdict (awake.core 0).owner (coreBase 0 + 0x2008 + b) true = .ok
    ∧ region (coreBase 0 + 0x2008 + b) = .cupola 0 := by decide +kernel
theorem witness_move_reserved : awake.verdict (awake.core 0).owner (coreBase 0 + 0x600000) false = .reserved := by decide +kernel
theorem witness_apart : Apart [(0x4000, 2048), (0x5000, 256), (0, 0), (0x6000, 4)] ∧ Fits [(0x4000, 2048), (0x5000, 256), (0, 0), (0x6000, 4)]
    ∧ Apart [(0x2000, 64 * 64), (0x6000, 4)] := by
  unfold Apart Fits; decide
/-- A MOVE copies its bytes (R223); overlapping rows leave only their destination open. -/
theorem test_move : gives (.move 0 .perform) ((running .mover moveD .started).put (coreBase 0 + 0x1008) [1, 2, 3]) (fun t =>
    t.mem.load (coreBase 0 + 0x2008) 3 == [1, 2, 3] && (t.core 0).mov.q.active.all (·.progress == .done)) = true := by decide +kernel
/-- The expert of entry 0 has no slot, so its choice is dropped: DROP bit 0, slot 0xFFFF (R151). -/
theorem test_scatter_drops : gives (.scatter 0 .perform) (running .mover (routeD 0x22) .started) (fun t =>
    t.mem.load (coreBase 0 + 0x1300) 1 == [1] && t.mem.load (coreBase 0 + 0x1400) 2 == [0xFF, 0xFF] && (t.core 0).mov.dropCount == 1) = true := by
  decide +kernel
/-- A remote write hands one item to the mover's work (R179). -/
theorem test_remote_write : gives (.remoteWrite 0 .perform) (running .mover (remoteD 0x23) .started) (fun t =>
    (t.core 0).mov.work.map (fun w => (w.dest, w.window, w.rowBytes)) == [(0x93, 3, 16)]) = true := by decide +kernel

/-- Two marked descriptors behind an unmet WAIT may be read early: a MOVE of this Cupola and a REMOTE_READ (R189). -/
def early (d : Nat) : State := (((ring waitD).modSeq 0 fun q => { q with tail := 2, wait := some { waiting with kind := .waitDesc } }).put (coreBase 0 + 64)
  (leBytes (d + 0x1000) 64))
theorem witness_prefetch : ([moveD, remoteD 0x24].all fun d => ((early d).prefetchTarget 0 (.ahead 0)).any fun x =>
    dBits x.1 1 4 1 == 1 && !descBad false x.1 && x.2.1 == 64) = true := by decide +kernel
theorem test_prefetch : gives (.prefetch 0 (.ahead 0)) ((early moveD).put (coreBase 0 + 0x1008) [1, 2]) (fun t =>
    (t.core 0).mov.buffer.map (fun b => (b.bytes.take 3, b.remaining)) == [([1, 2, 0], 0)]) = true := by decide +kernel
/-- Data held early for a started REMOTE_READ. -/
theorem witness_held_early : let b : PrefetchData := { id := 0, off := 0x80, bits := BitVec.ofNat 512 (remoteD 0x24), after := 0, forId := some 4, bytes := List.replicate 16 7, poison := List.replicate 16 false, remaining := 0, refused := false }
    (((running .mover (remoteD 0x24) .started).modMov 0 fun m => { m with buffer := [b] }).core 0).mov.buffer.find? (fun b => b.forId == some 4) = some b := by
  decide +kernel

/-! ### Spire and windows (08, 10) -/

/-- The die of `awake` past boot, every port admitting key 5; window 3 lets key 5 do everything in 1 KiB of Dome slice 0 from 0x1000, window 4 in the
groups of engine 1 of core 0; edge 1 carries traffic. -/
def net : State :=
  let w : Window := { Window.reset with base := 0x1000, len64 := 15, pkey := 5, valid := true, rd := true, wr := true, sig := true, specOk := true }
  ((awake.modSpire fun x => { x with
      bootMode := false, keys := Vector.replicate 6 (Vector.replicate 8 0x10005)
      windows := (x.windows.set 3 w).set 4 { w with base := BitVec.ofNat 40 (groupBase 0 1 0), len64 := 127 }
      route := Vector.replicate 2 ((Vector.replicate 64 0).set 10 0x171) }).modBlf fun b => { b with sliceOwner := b.sliceOwner.set 0 (some 5) }).modEdge 1 fun x =>
    { x with state := 6, on := 1 }

/-- A packet waiting at a port; a request, or an answer, waiting at LOCAL. -/
def queued (port : SpirePort) (p : Packet) : State := net.modSpire fun x => x.modBuf port p.cls fun _ => [p]
def requested (p : Packet) : State := net.modSpire fun x => { x with localReq := [p] }
def answered (p : Packet) : State := net.modSpire fun x => { x with localRsp := [p] }

/-- Requests to window 3 of this die, die 9: 16 bytes to write, the same with a signal, to read, a signal, a block of a chain to window 4. -/
def writeP : Packet := { packet with opcode := 1, len := 1, destDie := 9, destUnit := 7, window := 3, offset := 32, payload := List.replicate 16 7 }
def signalledP : Packet := { writeP with opcode := 2 }
def readP : Packet := { writeP with opcode := 3, payload := [] }
def signalP : Packet := { writeP with opcode := 5, len := 0, payload := [] }
def chainP : Packet := { writeP with opcode := 6, len := 32, window := 4, offset := 512, payload := List.replicate 512 1 }

/-- What `OnTurn` and the key and form checks ask. -/
def turnB (s : State) (port : SpirePort) (p : Packet) : Bool :=
  s.powered && s.dstate == .up && s.spire.buf port p.cls == [p] && !bitOf s.blf.fenced.toNat p.srcDie.toNat && !s.outranked p.cls (s.fate port p)
    && !p.malformed && s.keyOk port p

/-- O26: a packet for LOCAL, for MGMT, for an edge of this die, one that leaves by the table and one with its 63rd hop, a stranded one, one refused for its
key, a mark. -/
theorem witness_hops :
    (turnB (queued (.edge 0) writeP) (.edge 0) writeP && turnB (queued (.edge 0) { writeP with opcode := 4, vc := 1 }) (.edge 0) { writeP with opcode := 4, vc := 1 }
      && turnB (queued .loc { writeP with opcode := 0x10, vc := 2, pkey := 0, destUnit := 8 }) .loc { writeP with opcode := 0x10, vc := 2, pkey := 0, destUnit := 8 }
      && turnB (queued .mgmt { writeP with opcode := 0x11, vc := 2, pkey := 0, destUnit := 13 }) .mgmt { writeP with opcode := 0x11, vc := 2, pkey := 0, destUnit := 13 }
      && turnB (queued (.edge 3) { writeP with destDie := 10 }) (.edge 3) { writeP with destDie := 10 } && net.carries 1 && !net.carries 0
      && turnB (queued (.edge 3) { writeP with destDie := 10, hops := 63 }) (.edge 3) { writeP with destDie := 10, hops := 63 }
      && turnB (queued (.edge 3) { writeP with destDie := 11 }) (.edge 3) { writeP with destDie := 11 }
      && !(queued (.edge 3) { writeP with pkey := 6 }).keyOk (.edge 3) { writeP with pkey := 6 } && (queued (.edge 3) writeP).mgmtRoom .mgt) = true := by
  decide +kernel
theorem witness_goes : Goes net { writeP with destDie := 10 } 1 { writeP with destDie := 10 } ∧ Goes net { writeP with destDie := 10, vc := 3 } 3 { writeP with destDie := 10, vc := 3, down := true } = False
    ∧ Stranded net { writeP with destDie := 11 } := by
  unfold Goes Stranded; decide +kernel
/-- PORT = 1 sends it east with HOPS 1; an answer without a valid entry is dropped and counted (R266, R271). -/
theorem test_hop_east : gives (.routerHop (.edge 3) .req none) (queued (.edge 3) { writeP with destDie := 10 }) (fun t =>
    ((t.edges[1]).outq[0]).map (·.hops) == [1] && t.spire.exits[0] == 0) = true := by decide +kernel
theorem test_hop_stranded : gives (.routerHop (.edge 3) .rsp none) (queued (.edge 3) { writeP with opcode := 4, vc := 1, destDie := 11 }) (fun t =>
    t.spire.dropRoute == 1 && (nextRecord net t).code == 0x203 && (t.spire.buf (.edge 3) .rsp).isEmpty) = true := by decide +kernel
theorem witness_fenced : bitOf (net.modBlf fun b => { b with fenced := 2 }).blf.fenced.toNat writeP.srcDie.toNat = true := by decide +kernel
theorem witness_mark : turnB (queued (.edge 3) { writeP with opcode := 0x21, vc := 2, pkey := 0, destUnit := 8 }) (.edge 3)
    { writeP with opcode := 0x21, vc := 2, pkey := 0, destUnit := 8 } = true := by decide +kernel
/-- A multicast packet at its input port, copied to edge 1 and LOCAL; and one whose entry is not valid. -/
theorem witness_mcast : let p : Packet := { writeP with mc := true, aux := 2 }
    let s := (queued (.edge 3) p).modSpire fun x => { x with mcast := Vector.replicate 2 ((Vector.replicate 16 0).set 2 0x00050127) }
    (turnB s (.edge 3) p && bitOf (s.mcastEntry p) 0 && field (s.mcastEntry p) 1 3 == 3 && field (s.mcastEntry p) 16 16 == 5 && bitOf (s.mcastEntry p) 5
      && bitOf (s.mcastEntry p) 8 && !bitOf (s.mcastEntry { p with aux := 3 }) 0) = true := by decide +kernel

/-- The mover's first work item: 16 bytes of Cupola to core 3 of die 9. -/
def item (k : NetKind) : NetItem :=
  { kind := k, dest := 0x93, window := 3, offset := 0, loc := coreBase 0 + 0x1008, rowBytes := 16, rows := 1, localPitch := 0, remotePitch := 0, signal := false, sigCnt := 0,
    sigInc := 0, group := 0, spec := false, row := 0, pos := 0, seq := 0, desc := 4, off := 0x80 }
def sending (k : NetKind) : State := net.modMov 0 fun m => { m with work := [item k] }
theorem witness_mover_sends (k : NetKind) (h : k = .write ∨ k = .read ∨ k = .signal ∨ k = .mcast ∨ k = .fence) : MoverSends (sending k) 0 (item k) := by
  rcases h with rfl | rfl | rfl | rfl | rfl <;>
    exact ⟨by decide +kernel, by decide +kernel, by decide +kernel, by decide +kernel, ⟨[], rfl⟩, ⟨_, rfl, by decide +kernel⟩, by decide +kernel, ⟨0, by decide +kernel⟩⟩
theorem test_injection : gives (.packetInjection (.unit 0 .mover)) (sending .write) (fun t =>
    (t.spire.buf .loc .req).map (fun p => (p.op, p.len, p.destDie, p.destCore, p.pkey)) == [(1, 1, 9, 3, 5)] && (t.core 0).mov.work.isEmpty
      && (t.core 0).outst.length == 1) = true := by decide +kernel
/-- An outstanding entry of the mover's descriptor 4 whose request is `p`. -/
def outstanding (spec : Bool) (p : Packet) : Outst :=
  { unit := 5, pkt := p, loc := coreBase 0 + 0x1008, spec := spec, due := 1, began := 0, elapsed := 0, timeout := 1000, desc := 4, off := 0x80, failed := false }
/-- With 256 entries in use the item waits. -/
theorem witness_no_entries : let s := (sending .write).modCore 0 fun k => { k with outst := List.replicate 256 (outstanding false packet) }
    s.mayInject 0 (s.itemPacket 0 (item .write)) = false := by decide +kernel
/-- A CLOSE_CHAIN under way, block 0 due; over the die NoC with LOCAL = 1. -/
def chaining (loc : Nat) : State := ((net.modQ 0 (.eng 1) fun q => { q with active := [started (accD 5 + loc * 2 ^ 85) .busy] }).modGroup 0 1 0 fun g =>
  { g with state := .closing, wait := some { waiting with kind := .chainSend }, resend := 1 })
theorem witness_chain_sends : ([0, 1].all fun l => ((chaining l).eng 0 1).nextChain == some (0, 0) && (((chaining l).eng 0 1).chainDesc 0).isSome
    && ((((chaining l).eng 0 1).chainDesc 0).any fun a => dBits a.entry.bits 10 5 1 == l)) = true := by decide +kernel
theorem test_chain_resend : gives (.accChainResend 0 1 0 0) (chaining 1) (fun t => (t.group 0 1 0).resend == 0 && (t.group 0 1 0).sent == 1
    && t.spire.nocQ.map (fun p => (p.op, p.len)) == [(6, 32)]) = true := by decide +kernel
theorem witness_campanile_reads : let s := net.modBlf fun b => { b with campWork := [item (.mirror 5)] }
    (s.powered && !s.fatal && s.localRoom .req && decide (s.outstanding < 4096)) = true := by decide +kernel

/-- Each request arrives at LOCAL and passes window 3, or window 4 for a chain. -/
theorem witness_arrives : ([(1, writeP), (2, signalledP), (3, readP), (5, signalP), (6, chainP), (0x20, { signalP with opcode := 0x20 })].all fun x =>
    let s := requested x.2
    s.powered && s.dstate == .up && s.spire.localReq == [x.2] && x.2.op == x.1 && s.localRoom .rsp && !x.2.amode) = true := by decide +kernel
theorem witness_passes : Passes net writeP 0x1020 3 ∧ Passes net chainP (groupBase 0 1 0 + 512) 4 := by
  refine ⟨⟨by decide +kernel, by decide +kernel, by decide +kernel, ?_, ?_, by decide +kernel, ?_, by decide +kernel, by decide +kernel, by decide +kernel, by decide +kernel, by decide +kernel⟩,
    ⟨by decide +kernel, by decide +kernel, by decide +kernel, ?_, ?_, by decide +kernel, ?_, by decide +kernel, by decide +kernel, by decide +kernel, by decide +kernel, by decide +kernel⟩⟩
  · unfold Window.holds; decide +kernel
  · unfold Window.holds; decide +kernel
  · show (net.spire.windows[(3 : Fin 256)]).wr = true; decide +kernel
  · unfold Window.holds; decide +kernel
  · unfold Window.holds; decide +kernel
  · show (net.spire.windows[(4 : Fin 256)]).wr = true; decide +kernel
theorem test_write : gives .write (requested writeP) (fun t => t.mem.load 0x1020 2 == [7, 7] && (t.spire.buf .loc .rsp).map (fun q => (q.op, q.tag)) == [(4, 9)]
    && t.spire.localReq.isEmpty) = true := by decide +kernel
theorem test_write_closed_window : gives .write (requested { writeP with window := 9 }) (fun t => (t.spire.buf .loc .rsp).map (fun q => (q.op, q.aux)) == [(0x3F, 1)]
    && (lastRecord t).code == 0x202) = true := by decide +kernel
theorem test_signal_held : gives .signalPacket (requested signalP) (fun t => t.spire.heldSigs.map (fun h => (h.core, h.counter, h.inc)) == [(0, 3, 1)]) = true := by
  decide +kernel
theorem test_held_signal : gives .heldSignalPerform (net.modSpire fun x => { x with heldSigs := [{ core := 0, counter := 3, inc := 2, srcDie := 1, srcUnit := 5, srcCore := 2 }] })
    (fun t => (t.core 0).cnt[3] == 2 && t.spire.heldSigs.isEmpty) = true := by decide +kernel
/-- The last byte of the window, and one past it. -/
theorem witness_window_edges : Passes net { writeP with offset := 1008 } 0x13F0 3 ∧ ¬ Passes net { writeP with offset := 1009 } 0x13F1 3 := by
  refine ⟨⟨by decide +kernel, by decide +kernel, by decide +kernel, ?_, ?_, by decide +kernel, ?_, by decide +kernel, by decide +kernel, by decide +kernel, by decide +kernel, by decide +kernel⟩,
    fun h => absurd h.2.1 (by decide +kernel)⟩
  · unfold Window.holds; decide +kernel
  · unfold Window.holds; decide +kernel
  · show (net.spire.windows[(3 : Fin 256)]).wr = true; decide +kernel
/-- A chain's block before its group waits is NACKed NOT_WAITING; after, it lands (R123). -/
theorem test_chain_early : gives .accChain (requested chainP) (fun t => (t.spire.buf .loc .rsp).map (fun q => (q.op, q.aux)) == [(0x3F, 4)]) = true := by decide +kernel
theorem test_chain_lands : gives .accChain ((requested chainP).modGroup 0 1 0 fun g => { g with state := .waitChain, arrived := 0xFFFD }) (fun t =>
    (t.group 0 1 0).state == .opened && t.mem.load (groupBase 0 1 0 + 512) 1 == [1]) = true := by decide +kernel

/-- An answer to the mover's request with TAG 9. -/
def answerP (op : Nat) (aux : BitVec 16) : Packet := { packet with opcode := BitVec.ofNat 6 op, vc := 1, destDie := 9, destUnit := 5, aux := aux }
def expecting (op : Nat) (spec : Bool) (p : Packet) : State := ((answered p).modQ 0 .mover fun q => { q with active := [started (remoteD 0x24) .busy] }).modCore 0 fun k =>
  { k with outst := [outstanding spec { packet with opcode := BitVec.ofNat 6 op }] }
/-- O28: an answer, a NACK and a returned mark that find their entry; a mark of a later generation; a notice. -/
theorem witness_answers : ([(4, 3, false), (4, 1, false), (0x3F, 3, false), (0x3F, 3, true), (0x20, 0x20, false)].all fun x =>
    let p := answerP x.1 2
    let s := expecting x.2.1 x.2.2 p
    s.powered && s.dstate == .up && s.spire.localRsp == [p] && (((s.core 0).outst.find? fun o => o.unit == p.destUnit && o.pkt.tag == p.tag).any fun o => o.spec == x.2.2)) = true := by
  decide +kernel
theorem test_read_rsp : gives .readRsp (expecting 3 false { answerP 4 0 with len := 1, payload := List.replicate 16 9 }) (fun t =>
    t.mem.load (coreBase 0 + 0x1008) 2 == [9, 9] && (t.core 0).outst.isEmpty) = true := by decide +kernel
theorem test_nack : gives .nack (expecting 1 false (answerP 0x3F 2)) (fun t => (lastRecord t).code == 0x201 && (t.core 0).mov.q.freeze.isSome
    && (t.core 0).seq.faultDesc == 0x80) = true := by decide +kernel
theorem test_epoch_mark : gives .epochMark (net.modSpire fun x => { x with loaded := 3, markQ := [(0, { packet with epoch := true, aux := 1 })] }) (fun t =>
    t.spire.cur && t.spire.gen == 1 && t.spire.lock && t.spire.loaded == 0) = true := by decide +kernel
/-- A generation 32,767 ahead is later, 32,768 ahead is not (R286). -/
theorem test_epoch_edges :
    gives .epochMark (net.modSpire fun x => { x with loaded := 3, markQ := [(0, { packet with epoch := true, aux := 32767 })] }) (fun t => t.spire.cur) = true
    ∧ gives .epochMark (net.modSpire fun x => { x with loaded := 3, markQ := [(0, { packet with epoch := true, aux := 32768 })] }) (fun t => !t.spire.cur) = true := by
  decide +kernel
theorem test_notice : gives .violationNotice (net.modSpire fun x => { x with mgmtQ := [{ packet with opcode := 0x11, vc := 2, len := 2, payload := leBytes ({ writeP with srcDie := 9, srcCore := 0 } : Packet).header 32 }] })
    (fun t => (t.core 0).mov.q.freeze.map (·.cause) == some .violation && t.spire.mgmtQ.isEmpty) = true := by decide +kernel

/-! ### The Parapet edges (11) -/

/-- Edge 1 in a training state with module 0 usable; ACTIVE on module 0, or on modules 0 and 1, with credits. -/
def training (st : BitVec 4) : State := up.modEdge 1 fun x => { x with state := st, usable := 1 }
def active (on : BitVec 20) : State := up.modEdge 1 fun x => { (x.initCredits 0) with state := 6, on := on }

/-- The peer beyond edge 1 of die 9: die 10 at (2, 1), its edge 3, module 19. -/
def peer : ModulePeer := { report 0 with dieId := 10, x := 2, y := 1, edge := 3, module := 19, att := 1 }

/-- O29: a training edge in each state, a peer that meets R301 and one that does not, sound words, a test that a module stands and one of five lanes that it
does not, a rate with a module and none. -/
theorem witness_training : ((training 1).powered && (training 1).dstate == .up && !(training 1).fatal && !(training 2).ucie 1 && (training 2).edges[1].mayUse.getLsbD 0) = true
    ∧ meets (training 2) 1 peer ∧ ¬ meets (training 2) 1 { peer with module := 18 } := by
  refine ⟨by decide +kernel, ?_, ?_⟩
  · exact ⟨by decide, by decide +kernel⟩
  · exact fun h => absurd h.1 (by decide)
theorem witness_ucie : (up.modBlf fun b => { b with shadow := b.shadow.set 1 0x2249 }).ucie 1 = true := by decide +kernel
theorem witness_lanes : sound 0x7FFFFFFF 0x7FFFFFFF = False ∧ sound 0x0FFFFFFF 0x0FFFFFFF ∧ stands 0x0FFFFFFF (clean 0).tx
    ∧ ¬ stands 0x0FFFFFFF { (clean 0).tx with lanes := [0, 1, 2, 3, 67] } := by
  unfold sound stands; decide +kernel
theorem witness_rates : 0 < product (training 4) 1 [{ rate := 2, pass := 1 }] 2 ∧ ∀ r : Fin 4, product (training 4) 1 [] r = 0 := by decide +kernel
theorem test_detect : gives (.sbDetect 1) (training 1) (fun t => (t.edges[1]).state == 2 && (t.edges[1]).pll) = true := by decide +kernel
theorem test_exchange : gives (.sbExchange 1 [peer]) (training 2) (fun t => (t.edges[1]).state == 3 && (t.edges[1]).usable == 1
    && (t.edges[1]).sbOut.length == 20) = true := by decide +kernel
theorem test_exchange_refused : gives (.sbExchange 1 [{ peer with module := 18 }]) (training 2) (fun t => (t.edges[1]).state == 8 && (t.edges[1]).reason == 2) = true := by
  decide +kernel
/-- A failed lane 5 makes logical lane 5 travel on physical lane 6 (R306). -/
theorem test_init_lane : gives (.mbInit 1 [{ clean 0 with tx := { (clean 0).tx with lanes := [5] } }]) ((training 3).modEdge 1 fun x =>
    { x with mapTx := Vector.replicate 20 0x0FFFFFFF, mapRx := Vector.replicate 20 0x0FFFFFFF }) (fun t =>
    ((t.edges[1]).lanesTx[0])[5]? == some 6 && ((t.edges[1]).lanesRx[0])[5]? == some 5 && (lastRecord t).code == 0x302) = true := by decide +kernel
theorem test_train : gives (.mbTrain 1 [{ rate := 2, pass := 1 }, { rate := 3, pass := 0 }]) (training 4) (fun t => (t.edges[1]).state == 5 && (t.edges[1]).rate == 2) = true := by
  decide +kernel
theorem test_link : gives (.linkInit 1) (training 5) (fun t => (t.edges[1]).state == 6 && (t.edges[1]).credits.toList == [128, 128, 32, 32, 32]) = true := by decide +kernel
/-- A retrain passes 7, 4, 5 and ends in 6, or goes DOWN with reason 4 (R313). -/
def retraining (st : BitVec 4) : State := (active 3).modEdge 1 fun x => { x with state := st, retraining := true }
theorem test_retrain_ends : gives (.retrain 1 { ok := true, off := 0 }) (retraining 5) (fun t => (t.edges[1]).state == 6 && (t.edges[1]).on == 3) = true
    ∧ gives (.retrain 1 { ok := true, off := 2 }) (retraining 5) (fun t => (t.edges[1]).on == 1 && (t.edges[1]).offRetry == 2) = true := by decide +kernel
theorem test_retrain_fails : gives (.retrain 1 { ok := false, off := 0 }) (retraining 5) (fun t => (t.edges[1]).state == 8 && (t.edges[1]).reason == 4) = true := by decide +kernel

/-- An idle flit that reports nothing, a data flit with sequence number 0 and the packet `writeP`, a bad one; ACK 1023 names nothing held. -/
def ctl (data seq ack nak cls : Nat) : Nat := data + seq * 2 + ack * 2 ^ 11 + nak * 2 ^ 21 + cls * 2 ^ 22
def silent : FlitIn := makeFlit 0 (ctl 0 0 1023 0 5) []
def carrying (seq : Nat) : FlitIn := makeFlit 0 (ctl 1 seq 1023 0 5) writeP.bytes
def badFlit (m : Fin 20) : FlitIn := { m := m, bits := 1, off := false }

/-- The check value of the CRC-32 of IEEE 802.3. -/
theorem test_crc : crc32 [0x31, 0x32, 0x33, 0x34, 0x35, 0x36, 0x37, 0x38, 0x39] = 0xCBF43926 := by decide +kernel
theorem witness_receives : ((active 1).powered && (active 1).dstate == .up && (active 1).edges[1].state == 6 && (active 1).edges[1].on != 0 && (active 1).edges[1].active == [0]
    && (List.finRange 20).all fun m => decide ((active 1).edges[1].bad[m] < (active 1).edges[1].thresh.toNat)) = true := by decide +kernel
theorem witness_slots : goodFlit [silent] 0 = some silent ∧ control silent = ctl 0 0 1023 0 5 ∧ goodFlit [carrying 0] 0 = some (carrying 0)
    ∧ control (carrying 0) = ctl 1 0 1023 0 5 ∧ goodFlit [badFlit 0] 0 = none := by decide +kernel
theorem witness_silent : Silent (active 1).edges[1] [silent] := by
  refine ⟨⟨ctl 0 0 1023 0 5, ⟨?_, ⟨0, silent, by decide +kernel, by decide +kernel, by decide +kernel⟩⟩, by decide, by decide +kernel, ?_⟩, by simp [NoneAsked]; rfl⟩
  · intro m hm
    have h : m = 0 := by
      have e : (active 1).edges[1].active = [0] := by decide +kernel
      rw [e] at hm; simpa using hm
    subst h; exact ⟨silent, by decide +kernel, by decide +kernel⟩
  · intro m hm f hf
    have h : m = 0 := by
      have e : (active 1).edges[1].active = [0] := by decide +kernel
      rw [e] at hm; simpa using hm
    subst h
    have e : goodFlit [silent] 0 = some silent := by decide +kernel
    rw [e] at hf; cases hf; decide +kernel
/-- The slot next in sequence is taken and its packet arrives; a later one is asked for again; a repeated one is not (R311). -/
theorem test_flit_in : gives (.flit 1 [carrying 0]) (active 1) (fun t => (t.edges[1]).rxLast == 0 && (t.spire.buf (.edge 1) .req).length == 1) = true := by decide +kernel
theorem test_flit_gap : gives (.flit 1 [carrying 1]) (active 1) (fun t => (t.edges[1]).rxLast == 1023 && (t.edges[1]).rxNak) = true := by decide +kernel
/-- The 65th bad flit in a window, of module 0 of two, and of the only module (R312). -/
def stormy (on : BitVec 20) : State := (active on).modEdge 1 fun x => { x with bad := x.bad.set 0 64 }
theorem test_storm : gives (.flit 1 [badFlit 0, makeFlit 1 (ctl 0 0 1023 0 5) []]) (stormy 3) (fun t => (t.edges[1]).on == 2 && (t.edges[1]).offReq == 1 && (t.edges[1]).state == 6
    && (nextRecord (stormy 3) t).code == 0x301 && (recordAt (stormy 3) t 2).code == 0x303) = true := by decide +kernel
theorem test_storm_last : gives (.flit 1 [badFlit 0]) (stormy 1) (fun t => (t.edges[1]).state == 8 && (t.edges[1]).reason == 3) = true := by decide +kernel
theorem witness_storm_edge : (stormy 3).edges[1].bad[0] = (stormy 3).edges[1].thresh.toNat ∧ (active 1).edges[1].bad[0] < 64 := by decide +kernel

/-- An edge with a response and a request to send sends the response's slot first (R291); without either it idles. -/
def loaded : State := (active 1).modEdge 1 fun x => { x with outq := (x.outq.set 0 [writeP]).set 1 [answerP 4 0] }
theorem witness_sends : (loaded.edges[1]).resendAt.isNone && decide ((loaded.edges[1]).replayBuf.length < 64) && (loaded.edges[1]).txStream.isEmpty
    && decide (((answerP 4 0).size + 63) / 64 ≤ (loaded.edges[1]).credits[1]) && (loaded.edges[1]).canSend 0
    && (List.finRange 5).all (fun v => !((active 1).edges[1]).canSend v) = true := by decide +kernel
theorem test_send : gives (.flit 1 [silent]) loaded (fun t => (t.edges[1]).replayBuf.map (fun x => (x.seq, x.ends.length)) == [(0, 2)] && (t.edges[1]).txSeq == 1
    && ((t.edges[1]).replayBuf.all fun x => x.bytes.take 32 == (answerP 4 0).bytes.take 32)) = true := by decide +kernel
/-- Held slots: of a replay under way, of an acknowledgement, of a NAK, of a timeout. -/
def holding1 (sent : Nat) : State := (active 1).modEdge 1 fun x =>
  { x with replayBuf := [{ seq := 0, sentAt := sent, bytes := [1], ends := [(1, writeP)] }], txSeq := 1, slotCount := 300 }
theorem test_ack : gives (.flit 1 [makeFlit 0 (ctl 0 0 0 0 5) []]) (holding1 0) (fun t => (t.edges[1]).replayBuf.isEmpty && t.spire.exits[0] == 1) = true := by decide +kernel
theorem test_nak : gives (.flit 1 [makeFlit 0 (ctl 0 0 1023 1 5) []]) (holding1 0) (fun t => (t.edges[1]).replays == 1 && (t.edges[1]).replayBuf.length == 1) = true := by
  decide +kernel
theorem test_replay_timeout : gives (.replayTimeout 1) (holding1 44) (fun t => (t.edges[1]).resendAt == some 0) = true
    ∧ gives (.replayTimeout 1) (holding1 45) (fun t => (t.edges[1]).resendAt == none) = true := by decide +kernel
theorem test_replay_retrains : gives (.replayTimeout 1) ((holding1 0).modEdge 1 fun x => { x with resendCount := 16 }) (fun t => (t.edges[1]).state == 7) = true := by decide +kernel
theorem test_window_end : gives (.retryWindowEnd 1 0) (stormy 1) (fun t => (t.edges[1]).bad[0] == 0 && t.now == 100000) = true := by decide +kernel
theorem test_credit_timeout : gives (.creditTimeout 1 .req) ((active 1).modEdge 1 fun x => { x with credits := x.credits.set 0 0 }) (fun t =>
    t.spire.down == 2 && t.now == 100000 && (lastRecord t).code == 0x204 && field (lastRecord t).detail.toNat 0 5 == 1) = true := by decide +kernel

/-! ### Bronze (12) -/

/-- Core 2 asleep with a bell pending; waking; core 0 idle for C2_AFTER of 5 µs; a drained die on its way to D2. -/
def asleep (st : CState) : State := up.modCore 2 fun k => { k with cstate := st, bellPend := true }
def wakes (st : CState) : State := up.modCore 2 fun k => { k with cstate := st, waking := true, cnt := k.cnt.set 1 7 }
def idle : State := (awake.modSeq 0 fun q => { q with wait := some waiting }).modBrz fun b => { b with c2After := 5 }
def draining : State := { awake with d2Pending := true }

theorem witness_sleep : ((asleep .c2).powered && ((asleep .c2).core 2).here && ((asleep .c3).core 2).bellPend && decide (rampFrom (asleep .c3) ≤ (asleep .c3).now)
    && ((List.finRange 16).all fun d => d == 2 || !awaits (asleep .c3) d) && ((wakes .c3).core 2).waking && (idle.core 0).inC1 && !(idle.core 0).onChain
    && idle.bronze.c2After != 0 && (idle.core 0).c1Key == (idle.core 0).seq.issued && idle.spire.heldSigs.isEmpty && draining.drained
    && decide ((draining.port .A).phase ≠ .awaitD2 ∧ (draining.port .B).phase ≠ .awaitD2)) = true := by decide +kernel
theorem witness_sleep_wf : up.wf ∧ (asleep .c2).wf := by constructor <;> rfl
theorem test_bell_wake : gives (.bellWake 2) (asleep .c3) (fun t => (t.core 2).waking && (t.core 2).rampAt == some 0 && (t.core 2).pll && t.bronze.lastRamp == some 0) = true := by
  decide +kernel
/-- 500 ns after another ramp, not 490 ns (R326). -/
theorem test_ramp_gap :
    gives (.bellWake 2) ({ asleep .c3 with now := 50 }.modBrz fun b => { b with lastRamp := some 0 }) (fun t => (t.core 2).rampAt == some 50) = true
    ∧ gives (.bellWake 2) ({ asleep .c3 with now := 49 }.modBrz fun b => { b with lastRamp := some 0 }) (fun t => (t.core 2).rampAt == none && (t.core 2).waking) = true := by
  decide +kernel
theorem test_core_wake : gives (.coreWake 2 true) (wakes .c3) (fun t => decide ((t.core 2).cstate = .c0) && (t.core 2).cnt[1] == 7 && t.now == 200) = true := by decide +kernel
theorem test_rail_short : gives (.coreWake 2 false) (wakes .c4) (fun t => (t.core 2).short && (lastRecord t).code == 0x402 && (lastRecord t).detail == 4) = true := by
  decide +kernel
theorem test_idle : gives (.idleTimeout 0) idle (fun t => decide ((t.core 0).cstate = .c2) && t.now == 500 && !(t.core 0).pll) = true := by decide +kernel
theorem test_d2 : gives .d2Entry draining (fun t => decide (t.dstate = .d2) && decide ((t.core 0).cstate = .c4) && (t.core 0).owner == some 5) = true := by decide +kernel
theorem witness_await_d2 : (((draining.modPort .A fun q => { q with phase := .awaitD2, executing := some 0 }).port .A).executing) = some 0 := by decide +kernel

/-- Core 0 at step 20 whose levels over the last 10 ms were all `k`, with `mv` on VDD_ENG. -/
def ran (k : BitVec 5) (mv : Nat) : State := (awake.modCore 0 fun x => { x with freq := 20, kHist := [(k, 10000)] }).modBrz fun b => { b with vddMv := mv }
def tryIt : FreqTry := { core := 0, power := 320, current := 300000 }

theorem witness_frequency : (decide (levelCount ((ran 13 850).core 0) = 10000) && !fixed (ran 13 850) && decide (levelSum ((ran 13 850).core 0) < 140000)
    && decide (levelSum ((ran 14 850).core 0) = 140000) && decide (levelSum ((ran 16 850).core 0) = 160000) && decide (((ran 16 850).core 0).freq < ((ran 16 850).core 0).ceiling)
    && !heated (ran 16 850) 0 && decide (tryIt.power ≤ powerTop (ran 16 850).bronze)) = true := by decide +kernel
theorem witness_needs : Needs (ran 16 850) (fun d => if d = 0 then 21 else ((ran 16 850).core d).freq.toNat) 850 := by
  unfold Needs present; decide +kernel
theorem test_step_down : gives (.frequencyStep tryIt) (ran 13 850) (fun t => (t.core 0).freq == 19 && (t.core 0).kHist.isEmpty) = true := by decide +kernel
theorem test_step_up : gives (.frequencyStep tryIt) (ran 16 850) (fun t => (t.core 0).freq == 21) = true
    ∧ gives (.frequencyStep tryIt) (ran 16 849) (fun t => (t.core 0).freq == 20 && t.bronze.voltTarget == 850) = true := by decide +kernel
theorem test_avs_err : gives .avsErr ((ran 16 750).modBrz fun b => { b with voltTarget := 850 }) (fun t => t.bronze.avsErr && t.now == 50000 && (t.core 0).freq == 0) = true := by
  decide +kernel
theorem test_avs_retry : gives (.avsRetry true) ((ran 16 750).modBrz fun b => { b with voltTarget := 850, avsErr := true }) (fun t => !t.bronze.avsErr && t.bronze.vddMv == 850) = true := by
  decide +kernel
theorem test_droop : gives (.droopTrip 0 1) awake (fun t => (t.core 0).droop && t.bronze.droopCount == 1) = true := by decide +kernel
theorem test_stretch : gives (.stretchRelease 0) (awake.modCore 0 fun k => { k with droop := true }) (fun t => !(t.core 0).droop && t.now == 10) = true := by decide +kernel
/-- fmax 1.10 GHz may age to 1.025 GHz, step 25, and no further than 92 %: 1.012 GHz (R353). -/
theorem witness_ageing : 92 * (1100 + 25 * up.fmaxCode 0) ≤ 100 * (400 + 25 * (26 - 1)) ∧ ¬ 92 * (1100 + 25 * up.fmaxCode 0) ≤ 100 * (400 + 25 * (25 - 1)) := by decide +kernel
theorem test_ageing : gives (.fmaxAgeing 0) (awake.modCore 0 fun k => { k with fmaxEff := 26, ceiling := 28, freq := 28 }) (fun t => (t.core 0).fmaxEff == 25 && (t.core 0).freq == 25
    && (t.core 0).ceiling == 25) = true := by decide +kernel

/-- A prediction of 320 W keeps the excursion rule, of 320 1/16 W breaks it (Table PWR-4). -/
def predict (p : Nat) : Prediction := { power := p, current := 0, nextPower := p, nextCurrent := 0 }
theorem witness_excursion : ¬ Excursion up.bronze 5120 ∧ Excursion up.bronze 5121 ∧ ¬ Breaks up.bronze 4000 0 := by
  unfold Breaks Excursion OverCurrent PowerPasses; decide +kernel
theorem test_excursion : gives (.fastLoop (predict 5121) (List.replicate 16 16)) awake (fun t => t.bronze.peakCount == 1 && (lastRecord t).code == 0x404
    && t.now == 100) = true := by decide +kernel
theorem test_level : gives (.fastLoop (predict 100) (List.replicate 16 9)) awake (fun t => (t.core 0).k == 9 && (t.core 0).kHist == [(9, 1)]) = true := by decide +kernel
theorem test_vdd_sample : gives (.vddEngSample 800 1000) awake (fun t => t.bronze.energyTotal == 8 && t.now == 1000 && t.bronze.vddMv == 800) = true := by decide +kernel

/-- The cap rises by RAMP from 100 W to 120 W; a die below P(i − 1) − RAMP fills it with ballast where an engine may, or is short (R337, R338, R341). -/
def interval (lim : BitVec 6) : State := (awake.modCore 0 fun k => { k with owner := some 5 }).modBrz fun b => { b with effective := 100, target := 250, p1ms := 1000, ballastLimit := lim }
theorem witness_ballast : MayBallast (interval 63) 0 0 := ⟨by unfold present; decide +kernel, by decide +kernel, by decide +kernel, by decide +kernel, by decide +kernel, by decide +kernel⟩
theorem test_interval : gives (.intervalEnd 500) (interval 63) (fun t => t.bronze.effective == 120 && t.bronze.p1ms == 680 && !t.bronze.rampShort) = true
    ∧ gives (.intervalEnd 500) (interval 0) (fun t => t.bronze.p1ms == 500 && t.bronze.rampShort) = true := by decide +kernel
theorem test_cap : gives (.intervalEnd 3000) (interval 0) (fun t => t.bronze.p1ms == 1320 && t.bronze.limiter == 4) = true := by decide +kernel

theorem test_alert : gives .pwrAlertN awake (fun t => (t.core 0).k == 1 && (t.core 0).freq == 0 && (lastRecord t).code == 0x401 && t.bronze.alertHold) = true := by decide +kernel
theorem test_alert_ends : gives .alertHoldRelease (awake.modBrz fun b => { b with alertHold := true, alertSince := 7 }) (fun t => !t.bronze.alertHold && t.now == 100007) = true := by
  decide +kernel
/-- 100.0 °C throttles core 3, 99.9 °C does not; with safe values 96.0 °C does (R346, R358). -/
theorem test_throttle : gives (.thermalThrottle ((List.replicate 40 0).set 6 800)) up (fun t => (t.core 3).k == 15 && t.bronze.hot == 8) = true
    ∧ gives (.thermalThrottle ((List.replicate 40 0).set 6 799)) up (fun t => (t.core 3).k == 16) = true := by decide +kernel
theorem test_throttle_safe : gives (.thermalThrottle ((List.replicate 40 0).set 6 768)) (up.modBrz fun b => { b with calInvalid := true }) (fun t => t.bronze.hot == 8) = true := by
  decide +kernel
theorem test_trip : gives (.thermalTrip 4 920) awake (fun t => t.bronze.thermtrip && t.fatal && (lastRecord t).code == 0x403 && (lastRecord t).detail == 4
    && (t.core 0).vec.q.freeze.isSome && (t.edges[0]).state != 9) = true := by decide +kernel
theorem test_fatal_off : gives .fatalEdgeOff { awake with fatal := true, fatalAt := 5 } (fun t => (t.edges[0]).state == 9 && t.now == 10005) = true := by decide +kernel

/-! ### Mailboxes, semaphores and commands (13) -/

/-- Port A is bound to the host interface at die 2, edge 1, and Onaune is ready. -/
def ready : State := (awake.modPort .A fun q => { q with bind := 0x142 }).modBlf fun b => { b with stage := 5 }

theorem witness_bound : Bound ready .A ∧ Bound ready .B = False := by unfold Bound; decide +kernel
theorem witness_tail : ((0 : BitVec 4) - (ready.port .A).cmdHead).toNat < ((3 : Word).setWidth 4 - (ready.port .A).cmdHead).toNat := by decide +kernel
theorem test_tail : gives (.blfPortCmdTailWrite .A 3) ready (fun t => (t.port .A).cmdTail == 3 && (t.port .A).stamps.length == 3) = true := by decide +kernel
theorem test_tail_back : gives (.blfPortCmdTailWrite .A 1) (ready.modPort .A fun q => { q with cmdTail := 3 }) (fun t => (t.port .A).cmdTail == 3 && t.blf.mgtReject == 1
    && (lastRecord t).code == 0x701) = true := by decide +kernel
theorem test_port_reset : gives (.portReset .A) (ready.modPort .A fun q => { q with cmdTail := 3 }) (fun t => (t.port .A).cmdTail == 0 && (t.port .A).resetting) = true := by decide +kernel

/-- A packet of the holder that writes at offset `o`; one of another source; a read that reaches Campanile. -/
def mgtP (o : BitVec 32) (word : Nat) : Packet :=
  { packet with vc := 2, opcode := 0x10, pkey := 0, len := 1, destDie := 9, destUnit := 8, srcDie := 2, srcUnit := 13, offset := o, payload := leBytes word 16 }
def mgtIn (p : Packet) : State := ready.modSpire fun x => { x with mgmtQ := [p] }
theorem witness_holder : let k := mgtP 0xC00 3
    (k.op == 0x10 && k.payload.length == 16 * k.len.toNat && k.srcDie.toNat == field (ready.port .A).bind.toNat 0 6 && k.srcUnit.toNat == 12 + field (ready.port .A).bind.toNat 6 2
      && k.offset.toNat % 16 == 0 && !k.poisoned && { k with poison := 1 }.poisoned) = true := by decide +kernel
theorem test_mgmt_tail : gives .mgmt (mgtIn (mgtP 0xC00 3)) (fun t => (t.port .A).cmdTail == 3 && t.spire.mgmtQ.isEmpty) = true := by decide +kernel
theorem test_mgmt_slot : gives .mgmt (mgtIn (mgtP 0x40 0xAB)) (fun t => (t.port .A).cmdSlots[1] == 0xAB) = true := by decide +kernel
theorem test_mgmt_foreign : gives .mgmt (mgtIn { mgtP 0xC00 3 with srcUnit := 12 }) (fun t => (t.port .A).cmdTail == 0 && t.blf.mgtReject == 1) = true := by decide +kernel
theorem test_mgmt_request : gives .mgmt (mgtIn { readP with destUnit := 8 }) (fun t => (t.spire.buf .mgmt .rsp).map (fun n => (n.op, n.aux)) == [(0x3F, 1)]
    && (lastRecord t).code == 0x202) = true := by decide +kernel

theorem witness_sem : Bound ready .A ∧ (1000 : BitVec 16).toNat ≤ 60000 := by unfold Bound; decide +kernel
theorem test_sem_take : gives (.semTake .A 2 0) ready (fun t => (t.blf.sems[2]).owner == 1 && (t.blf.sems[2]).lease == 1000) = true
    ∧ gives (.semTake .A 2 60001) ready (fun t => (t.blf.sems[2]).owner == 0 || decide ((t.blf.sems[2]).lease.toNat ≤ 60000)) = true := by decide +kernel

/-- Semaphore 2 belongs to port B, its lease lapsed or not. -/
def others (lapsed : Bool) : State := ready.modBlf fun b => { b with sems := b.sems.set 2 { owner := 2, lapsed := lapsed, lease := 5, ends := 500000 } }
theorem test_sem_busy : gives (.semTake .A 2 0) (others false) (fun t => (t.blf.sems[2]).owner == 2) = true ∧ gives (.semTake .A 2 0) (others true) (fun t => (t.blf.sems[2]).owner == 2) = true := by
  decide +kernel
theorem test_sem_break : gives (.semBreak .A 2 0) (others false) (fun t => (t.blf.sems[2]).owner == 2) = true ∧ gives (.semBreak .A 2 0) (others true) (fun t => (t.blf.sems[2]).owner == 1) = true := by
  decide +kernel
theorem test_sem_renew : gives (.semRenew .B 2 7) ((others true).modPort .B fun q => { q with bind := 0x142 }) (fun t => !(t.blf.sems[2]).lapsed && (t.blf.sems[2]).lease == 7) = true := by decide +kernel
theorem test_sem_release : gives (.semRelease .B 2) ((others false).modPort .B fun q => { q with bind := 0x142 }) (fun t => (t.blf.sems[2]).owner == 0) = true := by decide +kernel
theorem test_sem_lapse : gives (.semLeaseLapse 2) (others false) (fun t => (t.blf.sems[2]).lapsed && t.now == 500000 && (t.port .A).waiting.length == 1) = true := by decide +kernel

/-- A command slot: its code, its FLAGS and arguments at their byte numbers (Table ONA-3). -/
def slot (code flags : Nat) (args : List (Nat × Nat)) : BitVec 512 :=
  BitVec.ofNat 512 ((args.map fun x => at_ x.1 x.2).sum + code + at_ 2 flags + at_ 3 9 + at_ 4 56 + at_ 6 255)
/-- Port A has handed over a command; … is executing one, and owns semaphores 0 to 3. -/
def handed (cmd : BitVec 512) : State := ready.modPort .A fun q => { q with cmdTail := 1, cmdSlots := q.cmdSlots.set 0 cmd }
def owning (s : State) : State := s.modBlf fun b =>
  { b with sems := (List.range 4).foldl (fun v i => v.set! i { owner := 1, lapsed := false, lease := 1000, ends := 100000000 }) b.sems }
def does (s : State) (cmd : BitVec 512) : State := (owning s).modPort .A fun q => { q with bind := 0x142, executing := some cmd, phase := .running }
/-- The statuses of what waits for port A, events aside; its events' codes. -/
def statuses (t : State) : List Nat := ((t.port .A).waiting.filter (!·.event)).map fun w => field w.bits.toNat 0 16
def results (t : State) (i n : Nat) : Nat := (((t.port .A).waiting.filter (!·.event)).map fun w => field w.bits.toNat (64 + 8 * i) (8 * n)).headD 0
def events (t : State) (p : CtlPort) : List Nat := ((t.port p).waiting.filter (·.event)).map fun w => field w.bits.toNat 32 16

theorem witness_may_take : MayTake (handed (slot 0x0601 0 [])) .A (slot 0x0601 0 []) := by unfold MayTake; decide +kernel
theorem test_take : gives (.commandTake .A) (handed (slot 0x0601 0 [])) (fun t => (t.port .A).executing == some (slot 0x0601 0 []) && (t.port .A).cmdHead == 1) = true
    ∧ gives (.commandTake .A) (handed (slot 0x0FFF 0 [])) (fun t => statuses t == [7]) = true := by decide +kernel
theorem test_take_malformed : gives (.commandTake .A) (handed (slot 0x0601 2 [])) (fun t => statuses t == [6] && (t.port .A).frozen && (t.port .A).cause == 1) = true := by decide +kernel
/-- A waiting response; … whose event was lost first. -/
def answering (lost : Word) : State := ready.modPort .A fun q => { q with waiting := [{ bits := 0x55, event := false }], lostSince := lost }
theorem test_response : gives (.responseWrite .A) (answering 0) (fun t => (t.port .A).rspTail == 1 && (t.port .A).rspSlots[0] == 0x55 && (t.spire.buf .mgmt .mgt).length == 1) = true
    ∧ gives (.responseWrite .A) (answering 3) (fun t => field ((t.port .A).rspSlots[0]).toNat 32 16 == 7 && (t.port .A).waiting.length == 1) = true := by decide +kernel
theorem witness_response : ready.mgmtRoom .mgt = true ∧ ((answering 3).port .A).bind.getLsbD 8 = true ∧ slotIs (((handed 0).port .A).cmdSlots[0]) 0 0 0 0 0 [] := by
  unfold slotIs; decide +kernel

/-- Every row's command runs and passes its semaphore and FLAGS. -/
theorem witness_cleared : (commandRows.all fun r => slotCode (slot r.1 0 []) == r.1 && ((does ready (slot r.1 0 [])).port .A).executing == some (slot r.1 0 [])
    && refusedBy (does ready (slot r.1 0 [])) .A (markOf (slot r.1 0 []) r.2.2.1) == none) = true := by decide +kernel
theorem witness_running : Cleared (does ready (slot 0x0601 0 [])) .A 0x0601 (slot 0x0601 0 []) := by
  refine ⟨by unfold Running; decide +kernel, .getCap, none, false, by simp [commandRows], by decide +kernel, .inl (by decide +kernel)⟩
theorem witness_refused : refusedBy (others false) .A (some (true, 2)) = some 1 ∧ refusedBy ready .A (some (true, 2)) = some 3
    ∧ refusedBy ((others true).modBlf fun b => { b with sems := b.sems.set 2 { owner := 1, lapsed := true, lease := 5, ends := 0 } }) .A (some (true, 2)) = some 4 := by decide +kernel
def notOwning (cmd : BitVec 512) : State := ready.modPort .A fun q => { q with executing := some cmd, phase := .running }
theorem test_denied : gives (.createPartition .A) (notOwning (slot 0x0200 0 [(8, 5)])) (fun t => statuses t == [3] && (t.port .A).frozen && (t.port .A).cause == 2) = true := by decide +kernel
theorem test_no_option : gives (.getCap .A) (notOwning (slot 0x0601 1 [])) (fun t => statuses t == [2] && !(t.port .A).frozen) = true := by decide +kernel

/-! ### What the commands do -/

/-- The bulk reference: window 3 of `net`, which lies at 0x1000, from its start, for `n` bytes (R374). -/
def bulk (n : Nat) : List (Nat × Nat) := [(52, 3), (56, 0), (60, n)]
theorem witness_bulk : ((List.range 16).all fun i => decide ((does net (slot 0x0607 0 (bulk 16))).judge .campanile (0x1000 + i) true = .ok)
      && decide ((does net (slot 0x0607 0 (bulk 16))).judge .campanile (0x1000 + i) false = .ok) && decide (region (0x1000 + i) ≠ .lantern 0) && !net.mem.marked ((0x1000 + i) / 8)) = true
    ∧ net.spire.windows[3].valid = true ∧ net.spire.windows[3].base.toNat = 0x1000 ∧ net.mem.upsets = [] := by decide +kernel

theorem test_identity : gives (.getIdentity .A) (does ready (slot 0x0100 0 [])) (fun t => statuses t == [0] && results t 0 4 == 0xB0010909) = true := by decide +kernel
theorem witness_masks : Mask 5 16 (fun i => i = 0 ∨ i = 2) := by unfold Mask; decide +kernel
theorem test_state : gives (.getState .A) (does ready (slot 0x0101 0 [])) (fun t => statuses t == [0] && results t 0 2 == 0 && results t 2 2 == 0xFFFF && results t 4 2 == 1) = true := by decide +kernel
theorem test_no_bulk : gives (.getFuses .A) (does ready (slot 0x0102 0 [])) (fun t => statuses t == [2]) = true := by decide +kernel
theorem test_subscribe : gives (.subscribeTelemetry .A) (does ready (slot 0x0103 0 [(8, 1), (9, 100)])) (fun t => statuses t == [0] && (t.port .A).decimate == 100) = true
    ∧ gives (.subscribeTelemetry .A) (does ready (slot 0x0103 0 [(8, 0), (9, 101)])) (fun t => statuses t == [2]) = true := by decide +kernel
theorem test_windows : gives (.listWindows .A) (does net (slot 0x0302 0 [])) (fun t => statuses t == [0] && results t 0 32 == 0x18 && results t 32 1 == 2) = true := by decide +kernel

def part (k : BitVec 16) : Partition := { pkey := k, amode := false, port := .A }
/-- The partition with key 5 holds core 0; the one with key 6, core 1. -/
def two : State := (ready.modBlf fun b => { b with partitions := [part 5, part 6] }).modCore 1 fun k => { k with owner := some 6, cstate := .c0 }
theorem test_create : gives (.createPartition .A) (does ready (slot 0x0200 0 [(8, 7), (10, 1), (11, 1)])) (fun t => t.blf.partitions == [{ pkey := 7, amode := true, port := .B }]) = true
    ∧ gives (.createPartition .A) (does two (slot 0x0200 0 [(8, 6)])) (fun t => statuses t == [8] && t.blf.partitions.length == 2) = true := by decide +kernel
theorem test_destroy : gives (.destroyPartition .A) (does two (slot 0x0201 0 [(8, 6)])) (fun t => (t.frozen 1 .vec).isSome && (t.frozen 0 .vec).isNone && t.blf.clears.length == 1) = true := by decide +kernel
theorem witness_assign : (two.blf.partitions.any fun x => x.pkey == 6) = true ∧ two.dstate = .up ∧ (two.core 1).owner = some 6 ∧ (two.core 2).clearing = false ∧ (two.core 2).bist = false := by
  decide +kernel
theorem test_assign : gives (.assignCores .A) (does two (slot 0x0202 0 [(8, 5), (10, 5), (12, 1)])) (fun t => (t.core 2).owner == some 5 && (t.core 2).waking && !(t.core 0).waking
    && t.blf.sliceOwner[0] == some 5) = true := by decide +kernel
theorem test_assign_moves : gives (.assignCores .A) (does two (slot 0x0202 0 [(8, 5), (10, 2)])) (fun t => (t.core 1).owner == some 6 && (t.frozen 1 .vec).isSome && t.blf.clears.length == 1) = true
    ∧ gives (.assignCores .A) (does (two.modCore 2 fun k => { k with clearing := true }) (slot 0x0202 0 [(8, 5), (10, 4)])) (fun t => (t.core 2).owner == none && statuses t == []) = true := by
  decide +kernel
theorem test_keys : gives (.setPortKeys .A) (does ready (slot 0x0203 0 [(8, 4), (12, 0x10005)])) (fun t => (t.spire.keys[4])[0] == 0x10005 && (t.spire.keys[3])[0] == 0) = true := by decide +kernel
/-- A window of the partition with key 5, whose slice 0 it is. -/
def placedW : Window := { Window.reset with base := 0x2000, len64 := 1, pkey := 5, valid := true, rd := true }
theorem witness_placed : Placed net placedW := by
  refine ⟨by decide +kernel, by decide +kernel, .inl ⟨by decide +kernel, ?_⟩⟩
  decide +kernel
theorem test_open : gives (.openWindow .A) (does net (slot 0x0300 0 [(8, 7), (9, 1), (12, 5), (16, 0x2000), (24, 1)])) (fun t => t.spire.windows[7] == placedW) = true
    ∧ gives (.openWindow .A) (does net (slot 0x0300 0 [(8, 7), (9, 1), (12, 6), (16, 0x2000), (24, 1)])) (fun t => statuses t == [2] && !t.spire.windows[7].valid) = true := by decide +kernel
theorem test_close_window : gives (.closeWindow .A) (does net (slot 0x0301 0 [(8, 3)])) (fun t => !t.spire.windows[3].valid && statuses t == [0]) = true := by decide +kernel

/-- Core 1 and slice 0 leave key 6; the interfaces are quiet, or the zeroing has begun. -/
def clearOf (z : Bool) : Clear := { pkey := 6, cores := 2, slices := 0, zeroing := z, port := some .A, destroy := true }
def clearing (z : Bool) : State := (does two (slot 0x0201 0 [(8, 6)])).modBlf fun b => { b with clears := [clearOf z], ports := b.ports.set 0 { b.ports[0] with phase := .awaitClear } }
theorem witness_clear : (clearing true).blf.clears = [clearOf true] ∧ (clearing true).mem = Memory.empty ∧ ((clearing true).port .A).phase = .awaitClear ∧ ((clearing true).port .B).phase ≠ .awaitClear
    ∧ ((clearing false).core 1).outst = [] ∧ (clearing false).spire.nocQ = [] ∧ (clearing false).spire.heldSigs = [] := by decide +kernel
theorem test_tenant_clear : gives (.tenantClear 6) (clearing false) (fun t => (t.core 1).owner == none && (t.core 1).clearing && (t.core 1).freq == 24) = true
    ∧ gives (.tenantClear 6) ((clearing false).modCore 1 fun k => { k with outst := [outstanding false packet] }) (fun t => (t.core 1).owner == some 6) = true := by decide +kernel
theorem test_zeroed : gives (.zeroingDone (.core 1)) (clearing true) (fun t => decide ((t.core 1).cstate = .c4) && t.blf.partitions == [part 5] && statuses t == [0] && t.blf.clears.isEmpty) = true := by
  decide +kernel

/-! ### Tables, links, power and core commands -/

/-- An epoch that may turn, both tables loaded. -/
def loaded3 : State := net.modSpire fun x => { x with loaded := 3 }
theorem witness_loadable : Loadable net 1 ∧ ¬ Loadable net 0 ∧ RouteEntry 0x171 ∧ ¬ RouteEntry 0x106 := by unfold Loadable RouteEntry; decide +kernel
theorem witness_fetches : Fetches (net.put 0x1000 [1, 2]) (slot 0x0607 0 (bulk 2)) 0x1000 2 [1, 2] := by
  have h : (net.put 0x1000 [1, 2]).mem.upsets = [] := by decide +kernel
  refine ⟨⟨by decide +kernel, by decide +kernel, by decide +kernel, by decide +kernel, by decide +kernel, ?_, ?_⟩, ?_, by decide +kernel, by decide +kernel⟩
  · intro i hi; rw [h] at hi; cases hi
  · intro i hi c hc
    have : i = 0 ∨ i = 1 := by omega
    rcases this with rfl | rfl <;> simp [region] at hc
  · intro i hi; rw [h] at hi; cases hi
theorem test_mcast : gives (.mcastGroup .A) (does net (slot 0x0404 0 [(8, 1), (9, 3), (12, 0x81)])) (fun t => (t.spire.mcast[1])[3] == 0x81 && (t.spire.mcast[0])[3] == 0) = true
    ∧ gives (.mcastGroup .A) (does net (slot 0x0404 0 [(8, 0), (9, 3), (12, 0x81)])) (fun t => statuses t == [8]) = true := by decide +kernel
theorem test_load_route : gives (.loadRouteTable .A) (does net (slot 0x0400 0 [(8, 2)])) (fun t => statuses t == [2]) = true
    ∧ gives (.loadRankTable .A) (does net (slot 0x0401 0 [(8, 1)])) (fun t => statuses t == [2]) = true := by decide +kernel
theorem test_flip_command : gives (.epochFlip .A) (does loaded3 (slot 0x0402 0 [])) (fun t => t.spire.cur && t.spire.lock && t.spire.gen == 1 && t.spire.loaded == 0 && results t 0 4 == 0x10001) = true
    ∧ gives (.epochFlip .A) (does net (slot 0x0402 0 [])) (fun t => !t.spire.cur && statuses t == [8]) = true := by decide +kernel
theorem test_epoch_status : gives (.epochStatus .A) (does (loaded3.modSpire fun x => { x with lock := true }) (slot 0x0403 1 [])) (fun t => !t.spire.lock && results t 0 2 == 0xC) = true
    ∧ gives (.epochStatus .A) (does (loaded3.modSpire fun x => { x with lock := true, held := Vector.replicate 2 1 }) (slot 0x0403 1 [])) (fun t => t.spire.lock && statuses t == [4]) = true := by
  decide +kernel
theorem witness_marks : Marks (net.modEdge 1 fun x => { x with state := 6 }) 1 := by unfold Marks; decide +kernel

def linked : State := ready.modEdge 1 fun x => { x with state := 6, on := 3, replays := 7 }
theorem test_link_status : gives (.linkStatus .A) (does linked (slot 0x0500 0 [(8, 1)])) (fun t => results t 4 4 == 3 && results t 20 4 == 7 && (t.edges[1]).replays == 0) = true := by decide +kernel
theorem test_link_retrain : gives (.linkRetrain .A) (does linked (slot 0x0501 0 [(8, 1)])) (fun t => (t.edges[1]).state == 7 && decide ((t.port .A).phase = .awaitRetrain 1)) = true
    ∧ gives (.linkRetrain .A) (does linked (slot 0x0501 0 [(8, 0)])) (fun t => statuses t == [4]) = true := by decide +kernel
theorem test_module_disable : gives (.moduleDisable .A) (does linked (slot 0x0502 0 [(8, 1), (12, 1)])) (fun t => (t.edges[1]).on == 2 && (t.edges[1]).offCmd == 1) = true
    ∧ gives (.moduleDisable .A) (does linked (slot 0x0502 0 [(8, 1), (12, 3)])) (fun t => (t.edges[1]).on == 3 && statuses t == [8]) = true := by decide +kernel
theorem test_lane_report : gives (.laneReport .A) (does linked (slot 0x0503 0 [(8, 1)])) (fun t => statuses t == [2]) = true := by decide +kernel

theorem test_set_cap : gives (.setCap .A) (does ready (slot 0x0600 0 [(8, 80)])) (fun t => t.bronze.target == 80 && results t 0 3 == 0x14E650) = true
    ∧ gives (.setCap .A) (does ready (slot 0x0600 0 [(8, 79)])) (fun t => t.bronze.target == 250 && statuses t == [2]) = true := by decide +kernel
theorem test_get_cap : gives (.getCap .A) (does ready (slot 0x0601 0 [])) (fun t => results t 0 6 == 0x00FA14FAFA) = true := by decide +kernel
theorem test_set_ramp : gives (.setRamp .A) (does ready (slot 0x0602 0 [(8, 100)])) (fun t => t.bronze.ramp == 100) = true
    ∧ gives (.setRamp .A) (does ready (slot 0x0602 0 [(8, 0)])) (fun t => t.bronze.ramp == 20 && statuses t == [2]) = true := by decide +kernel
theorem test_set_ballast : gives (.setBallast .A) (does ready (slot 0x0603 0 [(8, 40)])) (fun t => t.bronze.ballastLimit == 40) = true := by decide +kernel
theorem test_energy : gives (.energyRead .A) (does (ready.modBrz fun b => { b with energyTotal := 77 }) (slot 0x0604 0 [])) (fun t => results t 0 8 == 77) = true := by decide +kernel
def job (j : Job) : State := ready.modBrz fun b => { b with energyTotal := 77, jobs := b.jobs.set 2 (some j) }
def job9 : Job := { id := 9, total := 70, ballast := 0, time := 0, shared := true }
theorem test_job_begin : gives (.jobBegin .A) (does (job job9) (slot 0x0605 0 [(8, 8)])) (fun t => results t 4 1 == 0 && (t.bronze.jobs[0]).isSome) = true
    ∧ gives (.jobBegin .A) (does (job job9) (slot 0x0605 0 [(8, 9)])) (fun t => statuses t == [8]) = true := by decide +kernel
theorem test_job_end : gives (.jobEnd .A) (does (job job9) (slot 0x0606 0 [(8, 9)])) (fun t => results t 4 8 == 7 && results t 28 1 == 1 && t.bronze.jobs[2] == none) = true := by decide +kernel
theorem test_phase_lock : gives (.phaseTable .A) (does ready (slot 0x0607 0 [(8, 2), (9, 62), (10, 2)])) (fun t => (t.bronze.phases[63]).locked && !(t.bronze.phases[61]).locked) = true
    ∧ gives (.phaseTable .A) (does ready (slot 0x0607 0 [(8, 2), (9, 63), (10, 2)])) (fun t => statuses t == [2]) = true := by decide +kernel

theorem witness_rests : Rests ready 0 := ⟨by decide +kernel, by decide +kernel, by decide +kernel, by decide +kernel, by decide +kernel, by decide +kernel⟩
theorem witness_busy : ¬ Rests (ready.modQ 0 .vec fun q => { q with queue := [entry vecD] }) 0 := fun h => absurd h.2.1 (by decide +kernel)
theorem test_core_sleeps : gives (.corePower .A) (does ready (slot 0x0700 0 [(9, 3), (12, 1)])) (fun t => decide ((t.core 0).cstate = .c3) && statuses t == [0]) = true
    ∧ gives (.corePower .A) (does (ready.modQ 0 .vec fun q => { q with queue := [entry vecD] }) (slot 0x0700 0 [(9, 3), (12, 1)])) (fun t => decide ((t.core 0).cstate = .c0) && statuses t == [8]) = true := by
  decide +kernel
theorem test_die_scope : gives (.corePower .A) (does ready (slot 0x0700 0 [(8, 1), (9, 2)])) (fun t => t.d2Pending && decide ((t.port .A).phase = .awaitD2)) = true
    ∧ gives (.corePower .A) (does two (slot 0x0700 0 [(8, 1), (9, 0)])) (fun t => statuses t == [8]) = true := by decide +kernel
/-- Core 0 whose vector engine holds a descriptor at offset 0x40. -/
def unfinished : State := ready.modQ 0 .vec fun q => { q with queue := [{ entry vecD with off := 0x40 }] }
theorem witness_first_open : FirstOpen (unfinished.core 0) .vec { entry vecD with off := 0x40 } := by
  have he : ∀ e, ((unfinished.core 0).unitQ (.eng e)).opens = [] := by decide +kernel
  have hm : ((unfinished.core 0).unitQ .mover).opens = [] := by decide +kernel
  have hv : ((unfinished.core 0).unitQ .vec).opens = [{ entry vecD with off := 0x40 }] := by decide +kernel
  refine ⟨by decide +kernel, ⟨[], hv⟩, by decide, fun v n x hx => ?_⟩
  cases v <;> simp_all
theorem test_core_reset : gives (.coreReset .A) (does unfinished (slot 0x0701 0 [(12, 1)])) (fun t => (t.core 0).vec.q.queue.isEmpty && (t.core 0).seq.faultDesc == 0x40
    && (lastRecord t).code == 0x703 && (t.core 0).owner == some 5) = true := by decide +kernel
theorem test_core_fmax : gives (.coreFmax .A) (does ready (slot 0x0702 0 [(8, 10), (12, 1)])) (fun t => (t.core 0).ceiling == 10 && (t.core 0).freq.toNat ≤ 10) = true
    ∧ gives (.coreFmax .A) (does ready (slot 0x0702 0 [(8, 37), (12, 1)])) (fun t => statuses t == [2]) = true := by decide +kernel

/-! ### Faults, freezing, spares and scrubbing -/

theorem test_err_log : gives (.errLogRead .A) (does ready (slot 0x0800 0 [(12, 1)])) (fun t => statuses t == [2]) = true := by decide +kernel
def logged : State := ready.modBlf fun b => { b with newest := 5, oldest := 2 }
theorem witness_log : heldRecords logged = 4 ∧ ((3 : Word) - logged.blf.oldest).toNat < heldRecords logged ∧ logged.blf.fatalHeld ≤ 64 := by unfold heldRecords; decide +kernel
theorem test_err_clear : gives (.errClear .A) (does logged (slot 0x0801 0 [(8, 3)])) (fun t => t.blf.oldest == 4 && statuses t == [0]) = true := by decide +kernel
theorem test_wait_graph : gives (.waitGraph .A) (does ready (slot 0x0807 0 [])) (fun t => statuses t == [2]) = true := by decide +kernel
theorem witness_waits : Waits idle 0 .seq waiting 3 1 0 := Waits.own (s := idle) (c := 0) .seq waiting (by decide +kernel)
theorem test_freeze : gives (.freeze .A) (does ready (slot 0x0802 0 [(10, 0x10), (12, 1)])) (fun t => (t.frozen 0 .vec).isSome && (t.frozen 0 .mover).isNone && (lastRecord t).code == 0x703) = true
    ∧ gives (.freeze .A) (does ready (slot 0x0802 0 [(8, 1), (9, 1)])) (fun t => (t.port .B).frozen && (t.port .B).cause == 4) = true := by decide +kernel
def frozenVec : State := ready.modQ 0 .vec fun q => { q with freeze := some { cause := .command, discard := false, answer := none }, queue := [entry vecD, { entry vecD with taken := .refused }] }
theorem test_unfreeze : gives (.unfreeze .A) (does frozenVec (slot 0x0803 0 [(10, 0x10), (12, 1)])) (fun t => (t.frozen 0 .vec).isNone && (t.core 0).vec.q.queue.length == 1) = true
    ∧ gives (.unfreeze .A) (does ({ frozenVec with fatal := true }) (slot 0x0803 0 [(10, 0x10), (12, 1)])) (fun t => (t.frozen 0 .vec).isSome && statuses t == [8]) = true := by decide +kernel
def neighbour : State := linked.modEdge 1 fun x => { x with peer := 0x80A }
theorem test_fence_die : gives (.fenceDie .A) (does neighbour (slot 0x0804 0 [(8, 10)])) (fun t => t.blf.fenced == 0x400 && (t.edges[1]).state == 9 && (lastRecord t).code == 0x304) = true
    ∧ gives (.fenceDie .A) (does neighbour (slot 0x0804 0 [(8, 9)])) (fun t => t.blf.fenced == 0 && statuses t == [2]) = true := by decide +kernel
def mirrorA (size base : Nat) : List (Nat × Nat) := [(8, 1), (9, 10), (10, 9), (12, size), (16, base)]
theorem test_mirror : gives (.mirrorCfg .A) (does net (slot 0x0806 0 (mirrorA 128 0x4000))) (fun t => t.spire.windows[9].valid && t.spire.windows[9].pkey == 5 && t.blf.hosted.length == 1) = true
    ∧ gives (.mirrorCfg .A) (does (net.modBlf fun b => { b with hosted := [{ peer := 10, window := 8, valid := true, base := 0x4040, size := 64 }] }) (slot 0x0806 0 (mirrorA 128 0x4000)))
        (fun t => statuses t == [8] && t.blf.hosted.length == 1) = true := by decide +kernel
/-- A spare: role 2, no partition. -/
def spare : State := ((ready.modBlf fun b => { b with shadow := b.shadow.set 0 0x89 }).modSpire fun x => { x with bootMode := false }).modCore 0 fun k => { k with owner := none }
def promoteA (n : Nat) : List (Nat × Nat) := [(8, 10), (9, 11), (10, 3), (12, n), (16, 5)]
theorem witness_spare : spare.role = 2 ∧ spare.blf.partitions = [] ∧ spare.blf.clears = [] ∧ spare.dstate = .up := by decide +kernel
theorem test_promote : gives (.promoteSpare .A) (does spare (slot 0x0805 0 (promoteA 100))) (fun t => t.blf.partitions == [{ pkey := 5, amode := true, port := .A }] && (t.core 3).owner == some 5
    && decide ((t.port .A).phase = .awaitBuddy) && t.blf.campWork.length == 1) = true := by decide +kernel
theorem test_bound : gives (.commandBoundExpiry .A) ((does spare (slot 0x0805 0 (promoteA 100))).modPort .A fun q => { q with phase := .awaitBuddy }) (fun t => statuses t == [5] && t.now == 400000) = true := by
  decide +kernel

theorem witness_bad_record : ¬ RecordGood [] := fun h => absurd h.1 (by decide)
theorem test_cal_read : gives (.calRead .A) (does ready (slot 0x0900 0 [(60, 4095)])) (fun t => statuses t == [2]) = true
    ∧ gives (.calWrite .A) (does ready (slot 0x0901 0 [(60, 4095)])) (fun t => statuses t == [2]) = true := by decide +kernel
def storing : State := ready.modPort .A fun q => { q with executing := some (slot 0x0901 1 []), phase := .awaitStore }
theorem test_confirm : gives .storeConfirm storing (fun t => statuses t == [0] && t.blf.storeAsk == none) = true
    ∧ gives (.commandBoundExpiry .A) storing (fun t => statuses t == [5] && t.now == 200000000) = true := by decide +kernel
theorem test_fw_stage : gives (.fwStage .A) (does (net.put 0x1000 [7, 8]) (slot 0x0A00 0 (bulk 2))) (fun t => t.blf.staged == [7, 8]) = true
    ∧ gives (.fwStage .A) (does ready (slot 0x0A00 0 [])) (fun t => statuses t == [2]) = true := by decide +kernel
theorem witness_not_authentic : ¬ Authentic ready [1] := fun h => absurd h.fits.1 (by decide)
theorem test_activate : gives (.fwActivate .A) (does (ready.modBlf fun b => { b with staged := [1] }) (slot 0x0A01 0 [])) (fun t => statuses t == [3] && (t.port .A).cause == 3 && t.blf.authFail
    && (lastRecord t).code == 0x702) = true ∧ gives (.fwActivate .A) (does ready (slot 0x0A01 0 [])) (fun t => statuses t == [4]) = true := by decide +kernel

theorem test_scrub_cfg : gives (.scrubCfg .A) (does ready (slot 0x0B00 0 [(8, 1), (12, 10)])) (fun t => t.blf.scrubPeriod[0] == 10 && !t.blf.scrubEn.getLsbD 0 && t.blf.scrubEn.getLsbD 1) = true
    ∧ gives (.scrubCfg .A) (does ready (slot 0x0B00 0 [(8, 1), (12, 9)])) (fun t => statuses t == [2]) = true := by decide +kernel
theorem test_scrub_status : gives (.scrubStatus .A) (does (ready.modBlf fun b => { b with eccCorr := b.eccCorr.set 16 3 }) (slot 0x0B01 0 [(8, 16)])) (fun t => results t 8 4 == 3 && t.blf.eccCorr[16] == 0) = true
    ∧ gives (.scrubStatus .A) (does ready (slot 0x0B01 0 [(8, 24)])) (fun t => statuses t == [2]) = true := by decide +kernel
/-- Scrubber 16, slice 0, in its pass at line `n`. -/
def scrubbing (n : Nat) (l : List (Nat × Bool)) : State := { ready with mem := { ready.mem with upsets := l } }.modBlf fun b => { b with scrubRun := 0x10000, scrubPos := b.scrubPos.set 16 (BitVec.ofNat 17 n) }
theorem witness_scrub : ScrubOn (scrubbing 0 []) 16 := ⟨by decide +kernel, fun h => absurd h (by decide), by decide +kernel⟩
theorem test_scrub_line : gives (.scrubLine 16 []) (scrubbing 2 [(17, true)]) (fun t => t.mem.marked 17 && t.blf.eccUncorr[16] == 1 && (lastRecord t).code == 0x102 && (lastRecord t).detail == 2) = true
    ∧ gives (.scrubLine 16 []) (scrubbing 131071 []) (fun t => t.blf.scrubPos[16] == 0 && !t.blf.scrubRun.getLsbD 16) = true := by decide +kernel
theorem test_scrub_strike : gives (.scrubLine 16 [{ addr := 0x83, double := false }]) (scrubbing 2 []) (fun t => t.blf.eccCorr[16] == 1 && (lastRecord t).code == 0x101 && t.mem.upsets.isEmpty) = true := by
  decide +kernel
theorem test_scrub_end : gives (.scrubPeriodEnd 16) (scrubbing 2 []) (fun t => t.blf.scrubLag.getLsbD 16 && t.blf.scrubPos[16] == 2) = true := by decide +kernel

/-! ### Time, the sideband, resets, start-up and test access -/

theorem witness_sync : SyncEdge linked 1 := by unfold SyncEdge; decide +kernel
theorem test_time_sync : gives (.timeSync 1 5000 4) linked (fun t => t.blf.slew == 5002) = true := by decide +kernel
theorem test_third_marker : gives (.timeSync 1 5000 4) (linked.modBlf fun b => { b with markers := 2 }) (fun t => !t.blf.unsync && t.blf.markers == 3) = true := by decide +kernel
theorem test_sync_send : gives .timeSyncSend (linked.modBlf fun b => { b with root := true }) (fun t => t.now == 100000 && (t.blf.marksOut).map (·.1) == [1]) = true := by decide +kernel
theorem test_unsync : gives .unsync (linked.modBlf fun b => { b with markers := 3, unsync := false }) (fun t => t.blf.unsync && t.blf.markers == 0 && t.now == 1000000) = true := by decide +kernel

theorem test_index : gives (.i3cPrivateWrite [0x07, 0xA1]) ready (fun t => t.blf.i3cIndex == 7 && (t.core 0).k == 16) = true := by decide +kernel
theorem test_halt_command : gives (.i3cPrivateWrite [0x40, 0xA2, 0x5D]) ready (fun t => (t.frozen 0 .vec).isSome) = true ∧ gives (.i3cPrivateWrite [0x40, 0xA2, 0x5E]) ready (fun t => (t.frozen 0 .vec).isNone) = true := by
  decide +kernel
theorem test_sideband_read : gives (.i3cPrivateRead 4) ready (fun t => t.blf.i3cOut == [9, 9, 1, 0xB0] && t.blf.i3cIndex == 4) = true := by decide +kernel
theorem test_entdaa : gives (.entdaa 9) ready (fun t => t.blf.i3cAddr == 9) = true := by decide +kernel
theorem test_throttle_all : gives .throttleAll ready (fun t => (t.core 0).k == 1 && (t.core 0).freq == 0 && (lastRecord t).code == 0x401 && events t .A == [2, 9]) = true := by decide +kernel
theorem witness_room : RoomFor ready .A 17 := by unfold RoomFor; decide +kernel

def bothFrozen : State := (ready.modPort .A fun q => { q with frozen := true }).modPort .B fun q => { q with frozen := true }
theorem test_target_reset : gives (.targetReset 1) bothFrozen (fun t => t.blf.stage == 3 && t.blf.warm && !(t.port .A).frozen && (t.core 0).owner == some 5) = true
    ∧ gives (.targetReset 1) ready (fun t => t.blf.stage == 5 && events t .A == [9]) = true := by decide +kernel
theorem test_watchdog : gives .watchdog ready (fun t => t.blf.stage == 3 && t.now == 100000000 && t.blf.wdogExpired == 1) = true := by decide +kernel
theorem test_watchdog_off : gives .watchdog up (fun t => t.blf.wdogExpired == 0 && t.blf.stage == 0) = true := by decide +kernel

theorem test_porst : gives .porstAssert ready (fun t => t.porst && t.blf.stage == 0 && t.now == 0 && (t.core 0).owner == none) = true := by decide +kernel
theorem witness_porst : State.reset.porst = true ∧ ready.porst = false ∧ ready.powered = true := by decide +kernel
theorem test_power_lost : gives .lossOfPower ready (fun t => decide (t.dstate = .d3) && t.thermtripN == none) = true := by decide +kernel

/-- An image whose CODE is a configuration record for die 9, signed outside Lean by ECDSA P-384 over SHA-384 with a key made for this test (R420, Tables BOT-2, BOT-3), and the hash of its key. -/
def signedImage : List Byte := leBytes 0xe40183014200000000000000000000000000000000000000000000000000000000000000000000000000000000000000000000000000000000000000000000000000000000000000000000000000000000000000000000000000000000000000000000000000000000000000000000000000000000000000000000003202000000000000090000000043474b50000000000000000000000000000000000000000000000000000000000000000000000000000000000000009000000000ced1b1e5178b2f304d06947e265d879cc42e8262e97d92a2415ab9dca4cc95e738e82adf618adc3c0411f98d80d1898bbe96593130c6bb020821de4d34fdf1439155b2206565436b8a28a9adbbe49db98c5cc2c253f98bd3038f60cc37a2474e9f1f7f6f8270036d8244985674677ac03e7f8e0fe0128ab0bed1fe1004cf974380b2f10406a9e8e8eb339ae61c6b740e4f74ba3fbbb1d198c49b23aec2080f38a1802fcfa41e756a7a95367784dad8d1014e5ed39e5c664e915bc655166d13d50000009000000002000102034e55414f 400
def signedKey : Nat := 0x1d68575b2ea1901aa6a14cf3562ab80bff4a85322c7b0a319cec84181d84ea3160ae72219243f8b259eebe0f7da56a15
/-- FIPS 180-4's worked example: SHA-384 of "abc". -/
theorem test_sha384 : sha384 [0x61, 0x62, 0x63] = 0xcb00753f45a35e8bb5a03d699ac65007272c32ab0eded1631a8b605a43ff5bed8086072ba1e7cc2358baeca134c825a7 := by decide +kernel
/-- A die whose fuses name that key, its ROM holding the image. -/
def signedDie (st : Nat) : State := up.modBlf fun b =>
  { b with stage := st, image := signedImage, staged := signedImage, shadow := (List.range 12).foldl (fun v i => v.set! (8 + i) (BitVec.ofNat 32 (field signedKey (32 * i) 32))) b.shadow }
theorem witness_authentic : Authentic (signedDie 3) signedImage :=
  ⟨by decide +kernel, by decide +kernel, by decide +kernel, by decide +kernel, by decide +kernel⟩
theorem test_authentication : gives .authentication (signedDie 3) (fun t => t.blf.stage == 4 && t.blf.accepted && t.blf.fwVer == 0x10203 && t.blf.secVer == 2) = true := by decide +kernel
theorem test_authentication_fails : gives .authentication (ready.modBlf fun b => { b with stage := 3, image := [1] }) (fun t => t.blf.authFail && t.blf.stage == 2 && t.blf.retryAt == 100000000
    && (lastRecord t).code == 0x702) = true := by decide +kernel
theorem test_auth_retry : gives .authRetry (up.modBlf fun b => { b with stage := 2, retryAt := 77 }) (fun t => t.now == 77 && t.blf.attempts == 1 && t.blf.retryAt == 0) = true := by decide +kernel
theorem witness_config : numIn (configOf signedImage) 0 4 = 0x43474B50 ∧ numIn (configOf signedImage) 4 4 = ((signedDie 4).blf.shadow[4]).toNat ∧ ¬ numIn (configOf []) 0 4 = 0x43474B50 := by decide +kernel
theorem test_config : gives .configApply (signedDie 4) (fun t => t.blf.stage == 5 && (t.port .A).bind == 0x142 && (t.port .B).bind == 0x183 && t.blf.waitDefault == 0x2000000 && t.spire.creditTo == 1000
    && (t.edges[1]).targetRate == 1 && t.blf.root && events t .A == [0xB, 1]) = true := by decide +kernel
theorem test_config_bad : gives .configApply ((signedDie 4).modBlf fun b => { b with image := [] }) (fun t => t.blf.cfgBad && t.blf.stage == 4 && (t.port .A).bind == 0) = true := by decide +kernel

/-- The boot source's die and unit, and an edge that has trained. -/
def fetching (f : Option Fetch) : State := (up.modBlf fun b => { b with stage := if f.isSome then 2 else 1, fetch := f }).modSpire fun x => { x with mgmtQ := [] }
def trainedS (f : Option Fetch) : State := { fetching f with edges := (fetching f).edges.map fun x => { x with state := 8 } }
theorem witness_trained : ∀ e : EdgeId, ((trainedS none).edges[e]).state ∈ [(6 : BitVec 4), 8, 9] := by decide +kernel
theorem test_fetch_starts : gives .imageFetch (trainedS none) (fun t => t.blf.stage == 2 && (t.spire.buf .mgmt .mgt).length == 1 && (t.blf.fetch.map (·.requested)) == some 4096) = true
    ∧ gives .imageFetch (fetching none) (fun t => t.blf.stage == 1) = true := by decide +kernel
def half (o : FetchObject) : Fetch := { object := o, buf := [some 1], size := none, requested := 4096, outstanding := [(0, 5)], started := some 5 }
def piece (o n : Nat) (bs : List Byte) : Packet := { packet with vc := 2, opcode := 0x11, len := BitVec.ofNat 6 n, destUnit := 8, offset := BitVec.ofNat 32 o, payload := bs }
def taking (f : Fetch) (p : Packet) : State := (trainedS (some f)).modSpire fun x => { x with mgmtQ := [p] }
theorem test_piece : gives .imageFetchResponse (taking (half .image) (piece 16 1 (List.replicate 16 9))) (fun t => (t.blf.fetch.map fun f => f.buf[17]?) == some (some (some 9)) && t.blf.stage == 2
    && t.spire.mgmtQ.isEmpty) = true := by decide +kernel
theorem test_image_ends : gives .imageFetchResponse (taking (half .image) (piece 1 0 [])) (fun t => t.blf.image == [1] && (t.blf.fetch.map (·.object)) == some .calibration) = true
    ∧ gives .imageFetchResponse (taking (half .calibration) (piece 1 0 [])) (fun t => t.blf.cal == [1] && t.blf.stage == 3 && t.bronze.calInvalid) = true := by decide +kernel
theorem test_piece_poisoned : gives .imageFetchResponse (taking (half .image) { piece 16 1 (List.replicate 16 9) with poison := 1 }) (fun t => t.fatal && (lastRecord t).code == 0x103) = true := by decide +kernel
theorem test_fetch_retry : gives .fetchRetry (trainedS (some (half .image))) (fun t => t.now == 1000005 && (t.spire.buf .mgmt .mgt).length == 1) = true := by decide +kernel
theorem test_no_record : gives .calibrationFetchEnd (trainedS (some { half .calibration with buf := [] })) (fun t => t.blf.stage == 3 && t.now == 10000005 && t.bronze.calInvalid) = true := by decide +kernel

/-- A released TAP and its instruments. -/
def scan : BoundaryScan := { cells := 5, pins := 9 }
theorem test_preload : gives (.samplePreload scan) up (fun t => t.tap.bsr == 5 && t.tap.drOut == (336, 9) && t.tap.irOut == 1) = true := by decide +kernel
theorem test_extest : gives .extest up (fun t => t.tap.ir == 0 && t.fatal && (t.tap.drOut).1 == 336) = true := by decide +kernel
theorem test_idcode : gives .idcode up (fun t => t.readBack.value == 0x1A4C15B3 && !t.fatal) = true := by decide +kernel
theorem test_highz : gives .highz up (fun t => t.tap.highz && t.fatal) = true ∧ gives .clamp up (fun t => !t.tap.highz && t.fatal) = true := by decide +kernel
theorem test_bypass : gives (.bypass 7) up (fun t => t.tap.drOut == (1, 0) && !t.fatal) = true ∧ gives .tapReset up (fun t => t.tap.ir == 2) = true := by decide +kernel
theorem test_ijtag : gives .ijtag up (fun t => t.tap.ir == 0x10 && t.tap.irOut == 1) = true := by decide +kernel

theorem witness_bist : Free up (.cupola 1) ∧ Claims.Taken awake (.cupola 0) ∧ Free up (.dome 2) ∧ Claims.Taken up .campanile := by
  refine ⟨⟨by unfold present; decide +kernel, by decide +kernel, by decide +kernel, .inl (by decide +kernel)⟩, ?_, ⟨by decide +kernel, by decide +kernel⟩, by unfold Claims.Taken; decide +kernel⟩
  show (awake.core 0).owner.isSome = true
  decide +kernel
theorem test_bist : gives (.memoryBist (.cupola 1) .start) up (fun t => (t.core 1).bist && (t.core 1).waking && t.tap.status (bistKey (.cupola 1)) == 1) = true
    ∧ gives (.memoryBist (.cupola 0) .start) awake (fun t => !(t.core 0).bist && t.tap.status (bistKey (.cupola 0)) == 3) = true := by decide +kernel
def marching : State := { (up.modCore 1 fun k => { k with bist := true, waking := true }) with tap := { up.tap with instruments := [(bistKey (.cupola 1), 1, [])] } }
theorem test_bist_ends : gives (.memoryBist (.cupola 1) (.finish 2 3 4)) marching (fun t => !(t.core 1).bist && decide ((t.core 1).cstate = .c4) && t.tap.instruments.contains (bistKey (.cupola 1), 2, [1, 3, 4, 2])) = true := by
  decide +kernel
theorem witness_idle_module : ModuleIdle ((active 1).edges[1]) 3 ∧ ¬ ModuleIdle ((active 1).edges[1]) 0 := by unfold ModuleIdle; decide +kernel
theorem test_loop_back : gives (.moduleLoopBack 1 3 { rate := 2, failing := 6 } true) (active 1) (fun t => (t.edges[1]).held.getLsbD 3 && t.tap.instruments.contains (loopKey 1 3, 1, [2, 6])) = true
    ∧ gives (.moduleLoopBack 1 0 { rate := 2, failing := 6 } true) (active 1) (fun t => (t.edges[1]).held == 0 && t.tap.status (loopKey 1 0) == 3) = true := by decide +kernel
theorem test_margining : gives (.laneMargining 1 3 [7] true) ((active 1).modEdge 1 fun x => { x with held := 8 }) (fun t => (t.edges[1]).heldM == 8 && (t.edges[1]).held == 8) = true := by decide +kernel
theorem test_fuses : gives (.fuseProgrammer 1800 [33]) up (fun t => (t.blf.fuses[1]).getLsbD 1 && t.blf.shadow[1] == 0x249 && t.tap.status fuseKey == 2) = true
    ∧ gives (.fuseProgrammer 1700 [33]) up (fun t => t.tap.status fuseKey == 3) = true := by
  decide +kernel
theorem test_loader : gives (.imageLoader .calibration [1, 2]) up (fun t => t.blf.cal == [1, 2] && t.bronze.calInvalid) = true
    ∧ gives (.imageLoader .image [1, 2]) (up.modBlf fun b => { b with accepted := true }) (fun t => t.blf.image == [] && t.tap.status loaderKey == 3) = true := by decide +kernel
theorem test_vpp : gives (.fuseVppViolation 301) up (fun t => (lastRecord t).code == 0x701) = true ∧ gives (.fuseVppViolation 300) up (fun t => t.blf.newest == 0xFFFFFFFF) = true := by decide +kernel

/-! ### The block as a whole -/

theorem test_front : (match step { up with pending := [.idcode, .clamp] } with | .next t => t.pending == [.clamp] && t.readBack.value == 0x1A4C15B3 | _ => false) = true := by decide +kernel
theorem test_idle_step : (match step up with | .next t => t.now == 1 && t.blf.time == 1 | _ => false) = true := by decide +kernel
theorem witness_unpowered : ({ up with dstate := .d3 } : State).powered = false ∧ actsUnpowered .mgmt = false ∧ coldRow .mgmt = false := by decide +kernel
theorem test_table_word : decodeTableWord 8 0 = none := by decide +kernel

end Sys2Proof.Tests
end

/-! ## Register accesses of a master: another width, granted, refused (R12, R15, R19, R22 to R25) -/

section

namespace Sys2Proof.Machine

variable (s : State) (m : Master) (c : CoreId)

/-! ### The rows of register accesses -/

/-- A command that acts on a powered die has its effect. -/
theorem ev_powered (f : State → State) (h : s.powered = true) : ev s f = .next (f s) := by simp [ev, h]

theorem exec_registerWrite (a : BitVec 40) (width : Nat) (v : Word) (h : s.powered = true) :
    exec (.registerWrite m a width v) s = .next (s.registerWrite m a.toNat width v) :=
  ev_powered s (·.registerWrite m a.toNat width v) h

theorem exec_rcRead (a : BitVec 40) (width : Nat) (h : s.powered = true) : exec (.rcRead m a width) s = .next (s.masterRead m a.toNat width) :=
  ev_powered s (·.masterRead m a.toNat width) h

theorem exec_loReadCapture (a : BitVec 40) (width : Nat) (h : s.powered = true) :
    exec (.loReadCapture m a width) s = .next (s.masterRead m a.toNat width) :=
  ev_powered s (·.masterRead m a.toNat width) h

theorem exec_seqTailWrite (v : Word) (h : s.powered = true) :
    exec (.seqTailWrite m c v) s = .next (s.masterWrite m (csrAddr c 0xF00014) 4 v) :=
  ev_powered s (·.masterWrite m (csrAddr c 0xF00014) 4 v) h

theorem exec_resume (h : s.powered = true) :
    exec (.resume m c) s = .next (s.masterWrite m (csrAddr c 0xF00000) 4 (if (s.core c).seq.enable then 3 else 2)) :=
  ev_powered s (fun s => s.masterWrite m (csrAddr c 0xF00000) 4 (if (s.core c).seq.enable then 3 else 2)) h

theorem exec_vecSrSeedWrite (v : Word) (h : s.powered = true) :
    exec (.vecSrSeedWrite m c v) s = .next (s.masterWrite m (csrAddr c 0xF20010) 4 v) :=
  ev_powered s (·.masterWrite m (csrAddr c 0xF20010) 4 v) h

/-! ### An access of another width or alignment (R15) -/

variable {s m}

/-- What it takes for an access to meet a register at another width or alignment. -/
theorem State.misfit_iff (a width : Nat) : s.misfit a width = true ↔
    (region a).isRegs = true ∧ (width ≠ 4 ∨ a % 4 ≠ 0) ∧ (s.regRead (a / 4 * 4)).isSome = true ∧ s.gated (region a) = false
      ∧ ∀ c, region a = .csr c → (s.core c).present = true := by
  unfold State.misfit
  cases region a <;> simp [and_assoc]

/-- A word access to an aligned address meets no register at another width. -/
theorem State.misfit_word {a : Nat} (h : a % 4 = 0) : s.misfit a 4 = false := by simp [State.misfit, h]

theorem State.masterWrite_misfit {a width : Nat} (v : Word) (h : s.misfit a width = true) : s.masterWrite m a width v = s := by
  simp [State.masterWrite, h]

theorem State.masterRead_misfit {a width : Nat} (hm : s.acts m = true) (h : s.misfit a width = true) :
    s.masterRead m a width = s.returned 0 false := by
  simp [State.masterRead, hm, h]

/-- A write of another width has no effect, Campanile's writes to a port page among them. -/
theorem State.registerWrite_misfit {a width : Nat} (v : Word) (h : s.misfit a width = true) : s.registerWrite m a width v = s := by
  unfold State.registerWrite
  split
  · exact if_pos h
  · exact State.masterWrite_misfit v h

end Sys2Proof.Machine

end

section

open Sys2Proof Sys2Proof.Machine

/-- Settles O11: such an access is the model's `misfit`, which every read and write looks for before its verdict. -/
theorem accessesOfAnotherWidthHaveNoEffect : Obligations.AccessesOfAnotherWidthHaveNoEffect := by
  intro s m a width v hp hregs hshape hlisted hgate hpresent
  have hmis : s.misfit a.toNat width = true := (State.misfit_iff _ _).mpr ⟨hregs, hshape, hlisted, hgate, hpresent⟩
  refine ⟨?_, fun hacts i hi => ?_⟩
  · rw [exec_registerWrite s m a width v hp, State.registerWrite_misfit v hmis]
  · have hread : s.masterRead m a.toNat width = s.returned 0 false := State.masterRead_misfit hacts hmis
    rw [List.mem_pair] at hi
    rcases hi with rfl | rfl
    · rw [exec_rcRead s m a width hp, hread]; rfl
    · rw [exec_loReadCapture s m a width hp, hread]; rfl

end

section

namespace Sys2Proof.Machine

open Sys2Proof.Claims

variable {s : State} {m : Master} {c : CoreId}

/-! ### Where the registers of a core lie (Tables DIE-5, DIE-6) -/

/-- A word-aligned offset of the register area of a core region. -/
abbrev CoreReg (o : Nat) : Prop := 0xF00000 ≤ o ∧ o < 0xF44000 ∧ o % 4 = 0

theorem coreReg_eng (e : EngId) {o : Nat} (ho : o < 0x1000) (h4 : o % 4 = 0) : CoreReg (0xF40000 + o + e.val * 0x1000) := by
  have := e.isLt
  unfold CoreReg
  omega

/-- A register of a core lies in that core's register region, below the Belfry, at its offset in the core region. -/
theorem CoreReg.address {o : Nat} (h : CoreReg o) (c : CoreId) :
    region (coreBase c + o) = .csr c ∧ (coreBase c + o) % 0x1000000 = o ∧ (coreBase c + o) % 4 = 0 ∧ coreBase c + o < 0x0300000000 := by
  obtain ⟨lo, hi, al⟩ := h
  have hc := c.isLt
  have base : coreBase c = 0x0100000000 + c.val * 0x01000000 := rfl
  have off : (coreBase c + o) % 0x1000000 = o := by omega
  have core : Fin.ofNat 16 ((coreBase c + o - 0x0100000000) / 0x01000000) = c := by
    apply Fin.ext
    simp only [Fin.ofNat]
    omega
  have gap : inLantern o = false := by
    simp only [inLantern, Bool.and_eq_false_iff, decide_eq_false_iff_not]
    omega
  refine ⟨?_, off, by omega, by omega⟩
  unfold region
  rw [if_neg (by omega), if_pos (by omega)]
  simp only [off, core]
  rw [if_neg (by omega), if_neg (by simp [gap]), if_pos ⟨lo, hi⟩]

theorem CoreReg.toNat {o : Nat} (h : CoreReg o) (c : CoreId) : (BitVec.ofNat 40 (coreBase c + o)).toNat = coreBase c + o := by
  obtain ⟨-, -, -, below⟩ := h.address c
  rw [BitVec.toNat_ofNat]
  omega

/-! ### A granted access of a register has the register's own effect -/

/-- A granted word write to a listed register is the register's write. -/
theorem State.masterWrite_ok {a : Nat} {v : Word} {t : State} (hm : MasterMay s m a true) (hregs : (region a).isRegs = true)
    (hal : a % 4 = 0) (hw : s.regWrite a v = some t) : s.masterWrite m a 4 v = t := by
  obtain ⟨hacts, hok⟩ := hm
  simp [State.masterWrite, hacts, State.misfit_word hal, hok, hregs, hal, hw]

/-- A granted word read of a listed register is the register's read. -/
theorem State.masterRead_ok {a n : Nat} {t : State} (hm : MasterMay s m a false) (hregs : (region a).isRegs = true)
    (hal : a % 4 = 0) (hr : s.regRead a = some (n, t)) : s.masterRead m a 4 = t.returned n false := by
  obtain ⟨hacts, hok⟩ := hm
  simp [State.masterRead, hacts, State.misfit_word hal, hok, hregs, hal, hr]

theorem State.regWrite_csr {a : Nat} (v : Word) (h : region a = .csr c) : s.regWrite a v = s.csrWrite c (a % 0x1000000) v := by
  simp only [State.regWrite, h]

theorem State.regRead_csr {a : Nat} (h : region a = .csr c) : s.regRead a = s.csrRead c (a % 0x1000000) := by
  simp only [State.regRead, h]

theorem State.masterWrite_granted {o : Nat} {v : Word} {t : State} (hm : MasterMay s m (coreBase c + o) true) (ho : CoreReg o)
    (hw : s.csrWrite c o v = some t) : s.masterWrite m (coreBase c + o) 4 v = t := by
  obtain ⟨hreg, hoff, hal, -⟩ := ho.address c
  refine State.masterWrite_ok hm (by rw [hreg]; rfl) hal ?_
  rw [State.regWrite_csr v hreg, hoff, hw]

theorem State.masterRead_granted {o n : Nat} {t : State} (hm : MasterMay s m (coreBase c + o) false) (ho : CoreReg o)
    (hr : s.csrRead c o = some (n, t)) : s.masterRead m (coreBase c + o) 4 = t.returned n false := by
  obtain ⟨hreg, hoff, hal, -⟩ := ho.address c
  refine State.masterRead_ok hm (by rw [hreg]; rfl) hal ?_
  rw [State.regRead_csr hreg, hoff, hr]

theorem State.registerWrite_granted {o : Nat} {v : Word} {t : State} (hm : MasterMay s m (coreBase c + o) true) (ho : CoreReg o)
    (hw : s.csrWrite c o v = some t) : s.registerWrite m (coreBase c + o) 4 v = t := by
  obtain ⟨-, -, -, below⟩ := ho.address c
  have nopage : pageAt (coreBase c + o) = none := by
    unfold pageAt
    rw [if_neg (by omega), if_neg (by omega)]
  have plainWrite : s.registerWrite m (coreBase c + o) 4 v = s.masterWrite m (coreBase c + o) 4 v := by
    simp only [State.registerWrite, nopage]
  exact plainWrite.trans (State.masterWrite_granted hm ho hw)

variable (hp : s.powered = true)
include hp

/-- REGISTER_WRITE of a core register. -/
theorem exec_registerWrite_granted {o : Nat} {v : Word} {t : State} (hm : MasterMay s m (coreBase c + o) true) (ho : CoreReg o)
    (hw : s.csrWrite c o v = some t) : exec (.registerWrite m (BitVec.ofNat 40 (coreBase c + o)) 4 v) s = .next t := by
  rw [exec_registerWrite _ _ _ _ _ hp, ho.toNat, State.registerWrite_granted hm ho hw]

/-- RC_READ of a core register. -/
theorem exec_rcRead_granted {o n : Nat} {t : State} (hm : MasterMay s m (coreBase c + o) false) (ho : CoreReg o)
    (hr : s.csrRead c o = some (n, t)) : exec (.rcRead m (BitVec.ofNat 40 (coreBase c + o)) 4) s = .next (t.returned n false) := by
  rw [exec_rcRead _ _ _ _ hp, ho.toNat, State.masterRead_granted hm ho hr]

/-- LO_READ_CAPTURE of a core register. -/
theorem exec_loReadCapture_granted {o n : Nat} {t : State} (hm : MasterMay s m (coreBase c + o) false) (ho : CoreReg o)
    (hr : s.csrRead c o = some (n, t)) : exec (.loReadCapture m (BitVec.ofNat 40 (coreBase c + o)) 4) s = .next (t.returned n false) := by
  rw [exec_loReadCapture _ _ _ _ hp, ho.toNat, State.masterRead_granted hm ho hr]

end Sys2Proof.Machine

end

section

namespace Sys2Proof.Machine

variable (s : State) (c : CoreId)

/-! ### Words, bits and halves -/

theorem bitOf_toNat {w : Nat} (v : BitVec w) (i : Nat) : bitOf v.toNat i = v.getLsbD i := by
  simp only [bitOf, field, BitVec.getLsbD, Nat.testBit_eq_decide_div_mod_eq, Nat.shiftRight_eq_div_pow, pow_one]
  rfl

theorem clearHalf_low (v : BitVec 64) (w : Word) : clearHalf v false w = v &&& ~~~(w.setWidth 64) := by
  simp [clearHalf]

theorem ofNat_loWord (v : BitVec 64) : BitVec.ofNat 32 (loWord v) = v.setWidth 32 := by
  simp [loWord, field, BitVec.toNat_eq]

theorem ofNat_hiWord (v : BitVec 64) : BitVec.ofNat 32 (hiWord v) = v.extractLsb' 32 32 := by
  simp [hiWord, field, BitVec.toNat_eq]

/-- What a _HI read returns: the captured word, or the register's own high word (R13). -/
theorem ofNat_captured (hi : Option Word) (v : BitVec 64) :
    BitVec.ofNat 32 ((hi.map (·.toNat)).getD (hiWord v)) = hi.getD (v.extractLsb' 32 32) := by
  cases hi with
  | none => exact ofNat_hiWord v
  | some w => simp

/-- A master is returned the word that the number read stands for. -/
theorem State.returned_word (n : Nat) (w : Word) (h : BitVec.ofNat 32 n = w) :
    s.returned n false = { s with readBack := { value := w, poisoned := false } } := by
  rw [State.returned, h]

/-! ### SEQ_TAIL (R160) -/

theorem Sequencer.skip_none {q : Sequencer} (hloop : q.loopSkip = 0) (hhead : q.head.toNat < q.size) : q.skip 0 = q := by
  have same : q.release 0 = q := by simp [Sequencer.release, Nat.mod_eq_of_lt hhead]
  have kept : { q with loopSkip := 0 } = q := by rw [← hloop]
  simp [Sequencer.skip, hloop, same, kept]

/-- A value that SEQ_TAIL takes: below the ring size, and no step back. -/
def Sequencer.takesTail (q : Sequencer) (n : Nat) : Prop :=
  n < q.size ∧ (q.tail.toNat + q.size - q.head.toNat) % q.size ≤ (n + q.size - q.head.toNat) % q.size

theorem Sequencer.writeTail_taken {q : Sequencer} {v : Nat} (h : q.takesTail (v % 65536)) (hloop : q.loopSkip = 0)
    (hhead : q.head.toNat < q.size) : q.writeTail v = { q with tail := BitVec.ofNat 16 (v % 65536), tailRej := false } := by
  rw [Sequencer.writeTail]
  exact (if_pos h).trans (Sequencer.skip_none hloop hhead)

theorem Sequencer.writeTail_rejected {q : Sequencer} {v : Nat} (h : ¬ q.takesTail (v % 65536)) : q.writeTail v = { q with tailRej := true } :=
  if_neg h

/-! ### Each register's write and read, by its offset in the core region -/

theorem State.modCore_congr {f g : Core → Core} (h : f (s.core c) = g (s.core c)) : s.modCore c f = s.modCore c g := by
  have : upd s.cores c f = upd s.cores c g := congrArg (s.cores.set c.val · c.isLt) h
  rw [State.modCore, this, State.modCore]

theorem State.modSeq_congr {f g : Sequencer → Sequencer} (h : f (s.core c).seq = g (s.core c).seq) : s.modSeq c f = s.modSeq c g :=
  State.modCore_congr s c (by rw [h])

theorem State.csrWrite_seqCtrl (v : Word) : s.csrWrite c 0xF00000 v
    = some (s.modSeq c fun q => { q with enable := v.getLsbD 0, halted := q.halted && !v.getLsbD 1 }) := by
  rw [← bitOf_toNat, ← bitOf_toNat]
  rfl

theorem State.csrWrite_seqTail (v : Word) : s.csrWrite c 0xF00014 v = some (s.modSeq c fun q => q.writeTail v.toNat) := rfl

theorem State.csrWrite_vecSeed (v : Word) : s.csrWrite c 0xF20010 v = some (s.modVec c fun x => { x with seed := v, sr := seeded v }) := rfl

theorem State.csrWrite_sat (v : Word) : s.csrWrite c 0xF10300 v = some (s.modCore c fun k => { k with sat := k.sat &&& ~~~(v.setWidth 64) }) := by
  simp only [← clearHalf_low]
  rfl

theorem State.csrWrite_bellWake (v : Word) : s.csrWrite c 0xF1031C v = some (s.modCore c fun k => { k with bellWake := v.setWidth 16 }) := by
  have half : BitVec.ofNat 16 (v.toNat % 65536) = v.setWidth 16 := by simp [BitVec.toNat_eq]
  rw [← half]
  rfl

theorem State.csrRead_drop : s.csrRead c 0xF30100 = some ((s.core c).mov.dropCount.toNat, s.modMov c fun x => { x with dropCount := 0 }) := rfl

theorem State.csrRead_instrLo : s.csrRead c 0xF20020
    = some (loWord (s.core c).vec.instrCount, s.modVec c fun x => { x with instrHi := some (x.instrCount.extractLsb' 32 32) }) := by
  simp only [← ofNat_hiWord]
  rfl

theorem State.csrRead_instrHi : s.csrRead c 0xF20024
    = some (((s.core c).vec.instrHi.map (·.toNat)).getD (hiWord (s.core c).vec.instrCount), s.modVec c fun x => { x with instrHi := none }) := rfl

/-- An offset of an engine's registers names the engine and the register. -/
theorem engOffset (e : EngId) {r : Nat} (hr : r < 0x1000) :
    Fin.ofNat 4 ((0xF40000 + r + e.val * 0x1000) % 0x10000 / 0x1000) = e ∧ (0xF40000 + r + e.val * 0x1000) % 0x10000 % 0x1000 = r
      ∧ 0xF40000 ≤ 0xF40000 + r + e.val * 0x1000 := by
  have he := e.isLt
  refine ⟨Fin.ext ?_, by omega, by omega⟩
  simp only [Fin.ofNat]
  omega

theorem State.csrWrite_eng (e : EngId) {r : Nat} (hr : r < 0x1000) (v : Word) :
    s.csrWrite c (0xF40000 + r + e.val * 0x1000) v = s.engWrite c e r v := by
  obtain ⟨heng, hreg, hlo⟩ := engOffset e hr
  simp only [State.csrWrite]
  rw [if_neg (by omega), if_neg (by omega), if_neg (by omega), if_neg (by omega), heng, hreg]

theorem State.csrRead_eng (e : EngId) {r : Nat} (hr : r < 0x1000) : s.csrRead c (0xF40000 + r + e.val * 0x1000) = s.engRead c e r := by
  obtain ⟨heng, hreg, hlo⟩ := engOffset e hr
  simp only [State.csrRead]
  rw [if_neg (by omega), if_neg (by omega), if_neg (by omega), if_neg (by omega), heng, hreg]

theorem State.engWrite_flags (e : EngId) (v : Word) :
    s.engWrite c e 0x00C v = some (s.modEng c e fun x => { x with flags := x.flags &&& ~~~(v.setWidth 8) }) := by
  rw [← BitVec.ofNat_toNat]
  rfl

theorem State.engWrite_mode (e : EngId) (v : Word) :
    s.engWrite c e 0x004 v = some (s.modEng c e fun x => { x with subn := v.getLsbD 0, zgate := v.getLsbD 1 }) := by
  rw [← bitOf_toNat, ← bitOf_toNat]
  rfl

theorem State.engRead_replay (e : EngId) :
    s.engRead c e 0x010 = some ((s.eng c e).replayCount.toNat, s.modEng c e fun x => { x with replayCount := 0 }) := rfl

end Sys2Proof.Machine

end

section

namespace Sys2Proof.Claims

open Sys2Proof.Machine

/-- O13 (a): each is a granted write of one register of the core. -/
theorem sequencerAndSeedWritesTakeEffect : SequencerAndSeedWritesTakeEffect := by
  intro s m c v hp
  refine ⟨fun hm hloop => ?_, fun hm => ?_, fun hm => ?_⟩
  · have hw := State.masterWrite_granted hm (by decide) (s.csrWrite_seqTail c v)
    refine ⟨_, (exec_seqTailWrite s m c v hp).trans (congrArg _ hw), fun htake hhead => ?_, fun hrej => ?_⟩
    · exact s.modSeq_congr c (Sequencer.writeTail_taken htake hloop hhead)
    · exact s.modSeq_congr c (Sequencer.writeTail_rejected hrej)
  · rw [exec_resume s m c hp]
    refine congrArg _ ((State.masterWrite_granted hm (by decide) (s.csrWrite_seqCtrl c _)).trans (s.modSeq_congr c ?_))
    cases (s.core c).seq.enable <;> simp
  · have hw := State.masterWrite_granted hm (by decide) (s.csrWrite_vecSeed c v)
    refine ⟨_, (exec_vecSrSeedWrite s m c v hp).trans (congrArg _ hw), fun d hd => s.core_modCore_other c d _ hd, rfl, ?_, fun j => ?_⟩
    · simp
    · simp [seeded]

/-- O13 (b): each granted access performs the register's own write or read. -/
theorem accessCodesAreFollowed : AccessCodesAreFollowed := by
  intro s m c e v hp
  refine ⟨fun hm => ⟨_, ?_, rfl⟩, fun hm => ⟨_, ?_, rfl⟩, fun hm => ⟨_, ?_, rfl⟩, fun hm => ⟨_, ?_, rfl⟩, fun hm => ?_, fun hm => ?_, fun hm => ?_,
    fun hm => ?_⟩
  · exact exec_registerWrite_granted hp hm (by decide) (s.csrWrite_sat c v)
  · exact exec_registerWrite_granted hp hm (coreReg_eng e (o := 0x00C) (by decide) (by decide))
      ((s.csrWrite_eng c e (by decide) v).trans (s.engWrite_flags c e v))
  · exact exec_registerWrite_granted hp hm (coreReg_eng e (o := 0x004) (by decide) (by decide))
      ((s.csrWrite_eng c e (by decide) v).trans (s.engWrite_mode c e v))
  · exact exec_registerWrite_granted hp hm (by decide) (s.csrWrite_bellWake c v)
  · refine (exec_rcRead_granted hp hm (by decide) (s.csrRead_drop c)).trans (congrArg _ ?_)
    exact State.returned_word _ _ _ (by simp)
  · refine (exec_rcRead_granted hp hm (coreReg_eng e (o := 0x010) (by decide) (by decide))
      ((s.csrRead_eng c e (by decide)).trans (s.engRead_replay c e))).trans (congrArg _ ?_)
    exact State.returned_word _ _ _ (by simp)
  · refine (exec_loReadCapture_granted hp hm (by decide) (s.csrRead_instrLo c)).trans (congrArg _ ?_)
    exact State.returned_word _ _ _ (ofNat_loWord _)
  · refine (exec_loReadCapture_granted hp hm (by decide) (s.csrRead_instrHi c)).trans (congrArg _ ?_)
    exact State.returned_word _ _ _ (ofNat_captured _ _)

end Sys2Proof.Claims

end

section

namespace Sys2Proof.Machine

open Sys2Proof.Claims

/-! ### What freezing a unit and failing its descriptor leave alone -/

/-- `t` is `s` with core `c` alone changed, and that core's counters kept. -/
structure OnlyCore (s t : State) (c : CoreId) : Prop where
  die : t = { s with cores := t.cores }
  others : SameCores s t c
  cnt : (t.core c).cnt = (s.core c).cnt

/-- `t` is such a state in which every unit of the core is frozen as before. -/
structure KeepsFreezes (s t : State) (c : CoreId) : Prop extends OnlyCore s t c where
  frozen : ∀ u, t.frozen c u = s.frozen c u

section

variable {s t : State} {c : CoreId} (h : OnlyCore s t c)
include h

theorem OnlyCore.mem : t.mem = s.mem := by rw [h.die]
theorem OnlyCore.spire : t.spire = s.spire := by rw [h.die]
theorem OnlyCore.lastRecord : Claims.lastRecord t = Claims.lastRecord s := by rw [h.die]; rfl

theorem OnlyCore.cnt_eq (d : CoreId) : (t.core d).cnt = (s.core d).cnt := by
  by_cases hd : d = c
  · rw [hd, h.cnt]
  · rw [h.others d hd]

end

theorem OnlyCore.refl (s : State) (c : CoreId) : OnlyCore s s c := ⟨rfl, fun _ _ => rfl, rfl⟩

theorem KeepsFreezes.refl (s : State) (c : CoreId) : KeepsFreezes s s c := ⟨.refl s c, fun _ => rfl⟩

theorem OnlyCore.trans {s t r : State} {c : CoreId} (h : OnlyCore s t c) (h' : OnlyCore t r c) : OnlyCore s r c where
  die := by rw [h'.die, h.die]
  others d hd := (h'.others d hd).trans (h.others d hd)
  cnt := h'.cnt.trans h.cnt

theorem KeepsFreezes.trans {s t r : State} {c : CoreId} (h : KeepsFreezes s t c) (h' : KeepsFreezes t r c) : KeepsFreezes s r c where
  toOnlyCore := h.toOnlyCore.trans h'.toOnlyCore
  frozen u := (h'.frozen u).trans (h.frozen u)

variable (s : State) (c : CoreId)

theorem State.modCore_onlyCore {f : Core → Core} (h : ∀ k, (f k).cnt = k.cnt) : OnlyCore s (s.modCore c f) c where
  die := rfl
  others d hd := s.core_modCore_other c d f hd
  cnt := by rw [State.core_modCore, h]

theorem State.modQ_onlyCore (u : UnitId) (f : UnitQ → UnitQ) : OnlyCore s (s.modQ c u f) c := by
  cases u with
  | seq => exact .refl s c
  | _ => exact s.modCore_onlyCore c fun _ => rfl

theorem State.freezeUnit_onlyCore (u : UnitId) (cause : FreezeCause) (discard : Bool) (desc : Option Nat) :
    OnlyCore s (s.freezeUnit c u cause discard desc) c := by
  unfold State.freezeUnit
  extract_lets stops t
  have freeze : OnlyCore s t c := by
    cases u with
    | seq => exact s.modCore_onlyCore c fun _ => rfl
    | _ => exact s.modQ_onlyCore c _ _
  cases desc with
  | none => exact freeze
  | some d =>
    dsimp only
    split
    · exact freeze.trans (t.modCore_onlyCore c fun _ => rfl)
    · exact freeze

/-- A change of a core that keeps its counters and the freeze of each of its units. -/
theorem State.modCore_keepsFreezes {f : Core → Core} (h : ∀ k, (f k).cnt = k.cnt) (h' : ∀ k u, ((f k).unitQ u).freeze = (k.unitQ u).freeze) :
    KeepsFreezes s (s.modCore c f) c :=
  ⟨s.modCore_onlyCore c h, fun u => by simp only [State.frozen, State.core_modCore, h']⟩

theorem State.modEng_keepsFreezes (e : EngId) {f : Engine → Engine} (h : ∀ x, (f x).q.freeze = x.q.freeze) :
    KeepsFreezes s (s.modEng c e f) c := by
  refine s.modCore_keepsFreezes c (fun _ => rfl) fun k u => ?_
  cases u with
  | eng d =>
    simp only [Core.unitQ, getElem_upd]
    split
    · exact h _
    · rfl
  | _ => rfl

theorem State.modQ_keepsFreezes (u : UnitId) {f : UnitQ → UnitQ} (h : ∀ q, (f q).freeze = q.freeze) : KeepsFreezes s (s.modQ c u f) c := by
  cases u with
  | eng e => exact s.modEng_keepsFreezes c e fun x => h x.q
  | seq => exact .refl s c
  | _ =>
    refine s.modCore_keepsFreezes c (fun _ => rfl) fun k d => ?_
    cases d <;> simp [Core.unitQ, h]

theorem State.modGroup_keepsFreezes (e : EngId) (g : GroupId) (f : Group → Group) : KeepsFreezes s (s.modGroup c e g f) c :=
  s.modEng_keepsFreezes c e fun _ => rfl

theorem State.chainSettles_keepsFreezes (e : EngId) : KeepsFreezes s (s.chainSettles c e) c := s.modEng_keepsFreezes c e fun _ => rfl

theorem State.failOp_keepsFreezes (u : UnitId) (id : Nat) : KeepsFreezes s (s.failOp c u id) c := by
  unfold State.failOp
  extract_lets t r
  have marked : KeepsFreezes s t c := s.modCore_keepsFreezes c (fun _ => rfl) fun _ d => by cases d <;> rfl
  have failed : KeepsFreezes s r c := marked.trans (t.modQ_keepsFreezes c u fun _ => rfl)
  cases u with
  | mover => exact failed.trans (r.modCore_keepsFreezes c (fun _ => rfl) fun _ d => by cases d <;> rfl)
  | eng e =>
    dsimp only
    split
    · exact failed.trans ((r.modGroup_keepsFreezes c e _ _).trans (State.chainSettles_keepsFreezes _ c e))
    · exact failed
  | _ => exact failed

theorem State.failCurrent_keepsFreezes (u : UnitId) : KeepsFreezes s (s.failCurrent c u) c := by
  unfold State.failCurrent
  split
  · exact s.failOp_keepsFreezes c u _
  · exact .refl s c

/-- Whatever froze it before, a unit is frozen after a cause. -/
theorem mergeFreeze_isSome (old : Option Freeze) (cause : FreezeCause) (discard : Bool) : (mergeFreeze old cause discard).isSome = true := by
  cases old <;> rfl

/-! ### A refused access of a unit (R19, R22, R24, R25) -/

/-- The record just logged is the log's last. -/
theorem lastRecord_log (i : FaultInfo) : lastRecord (s.log i) = { s.recordOf i with number := s.blf.newest + 1 } := by
  simp only [lastRecord, State.log_newest]
  exact s.log_record i

/-- A violation: the unit is frozen with its current descriptor failed. -/
def State.violate (s : State) (c : CoreId) (u : UnitId) : State :=
  (s.freezeUnit c u .violation true ((s.core c).currentOff u)).failCurrent c u

theorem State.violate_onlyCore (u : UnitId) : OnlyCore s (s.violate c u) c :=
  (s.freezeUnit_onlyCore c u _ _ _).trans (State.failCurrent_keepsFreezes _ c u).toOnlyCore

theorem State.violate_frozen (u : UnitId) : ((s.violate c u).frozen c u).isSome = true := by
  rw [State.violate, (State.failCurrent_keepsFreezes _ c u).frozen, State.frozen_freezeUnit]
  exact mergeFreeze_isSome _ _ _

/-- What a violation of unit `u` at address `a` logs. -/
def State.violationInfo (s : State) (c : CoreId) (u : UnitId) (a code detail : Nat) : FaultInfo :=
  { cls := .contained, code := code, block := (unitSource c u).1, inst := (unitSource c u).2, pkey := (s.core c).owner, detail := detail, address := a }

/-- What an access of unit `u` to an address it cannot reach logs. -/
def State.unreachedInfo (s : State) (c : CoreId) (u : UnitId) (a : Nat) (x : Verdict) : FaultInfo :=
  { cls := .deferred, code := 0x202, block := (unitSource c u).1, inst := (unitSource c u).2, pkey := (s.core c).owner, detail := x.detail, address := a }

variable (u : UnitId) (a : Nat)

theorem State.core_log (i : FaultInfo) : (s.log i).core c = s.core c := by simp only [State.core, State.log_cores]

theorem State.refuseUnit_key : s.refuseUnit c u a .key
    = (s.countKey.log (s.violationInfo c u a 0x201 (s.dieId.toNat + c.val * 64 + unitNum u * 1024))).violate c u := by
  rw [State.violate, State.core_log]
  rfl

theorem State.refuseUnit_readOnly : s.refuseUnit c u a .readOnly = (s.log (s.violationInfo c u a 0x701 s.dieId.toNat)).violate c u := by
  rw [State.violate, State.core_log]
  rfl

/-- The state after a refused access that was answered with verdict `x`, apart from what a read returns: the statement of O13 (c), clause by
clause. -/
structure RefusalMade (s t : State) (c : CoreId) (u : UnitId) (a : Nat) (x : Verdict) : Prop where
  mem : t.mem = s.mem
  others : SameCores s t c
  cnt : ∀ d, (t.core d).cnt = (s.core d).cnt
  address : (lastRecord t).address = BitVec.ofNat 64 a
  unreached : (x = .reserved ∨ ∃ n, x = .coreState n) → (lastRecord t).code = 0x202 ∧ (lastRecord t).cls = .deferred ∧ AllCores s t
  spire : t.spire = (if x = .key then s.countKey else s).spire
  key : x = .key → (lastRecord t).code = 0x201 ∧ (lastRecord t).cls = .contained ∧ (t.frozen c u).isSome = true
  readOnly : x = .readOnly → (lastRecord t).code = 0x701 ∧ (lastRecord t).cls = .contained ∧ (t.frozen c u).isSome = true

theorem RefusalMade.returned {s t : State} {c : CoreId} {u : UnitId} {a : Nat} {x : Verdict} (h : RefusalMade s t c u a x) (n : Nat) (p : Bool) :
    RefusalMade s (t.returned n p) c u a x :=
  { h with }

/-- An unreached address: 0x202 is logged and nothing else happens. -/
theorem State.log_unreached {x : Verdict} (hx : x = .reserved ∨ ∃ n, x = .coreState n) :
    RefusalMade s (s.log (s.unreachedInfo c u a x)) c u a x := by
  have hkey : x ≠ .key := by rcases hx with rfl | ⟨n, rfl⟩ <;> simp
  have hro : x ≠ .readOnly := by rcases hx with rfl | ⟨n, rfl⟩ <;> simp
  have record := lastRecord_log s (s.unreachedInfo c u a x)
  exact {
    mem := s.log_mem _
    others := fun d _ => s.core_log d _
    cnt := fun d => by rw [s.core_log d]
    address := by rw [record]; rfl
    unreached := fun _ => ⟨by rw [record]; rfl, by rw [record]; rfl, fun d => s.core_log d _⟩
    spire := by rw [if_neg hkey, State.log_spire]
    key := fun h => absurd h hkey
    readOnly := fun h => absurd h hro }

/-- A violation logged in class contained freezes its unit, and only its core changes; `r` is `s` with Spire's count, where the key was counted. -/
theorem State.log_violate {r : State} (hmem : r.mem = s.mem) (hcores : r.cores = s.cores) (code detail : Nat) :
    let t := (r.log (s.violationInfo c u a code detail)).violate c u
    t.mem = s.mem ∧ SameCores s t c ∧ (∀ d, (t.core d).cnt = (s.core d).cnt) ∧ t.spire = r.spire ∧ (t.frozen c u).isSome = true
      ∧ (lastRecord t).address = BitVec.ofNat 64 a ∧ (lastRecord t).code = BitVec.ofNat 16 code ∧ (lastRecord t).cls = .contained := by
  intro t
  have logged : ∀ d, (r.log (s.violationInfo c u a code detail)).core d = s.core d := fun d => by simp only [State.core, State.log_cores, hcores]
  have only := State.violate_onlyCore (r.log (s.violationInfo c u a code detail)) c u
  have record : lastRecord t = _ := only.lastRecord.trans (lastRecord_log r _)
  refine ⟨?_, fun d hd => (only.others d hd).trans (logged d), fun d => ?_, ?_, State.violate_frozen _ c u, ?_, ?_, ?_⟩
  · rw [only.mem, State.log_mem, hmem]
  · rw [only.cnt_eq, logged]
  · rw [only.spire, State.log_spire]
  all_goals rw [record]; rfl

/-- A unit's refused access does what its verdict asks for. -/
theorem State.refuseUnit_made {x : Verdict} (hx : x ≠ .ok) : RefusalMade s (s.refuseUnit c u a x) c u a x := by
  cases x with
  | ok => exact absurd rfl hx
  | reserved => exact s.log_unreached c u a (.inl rfl)
  | coreState n => exact s.log_unreached c u a (.inr ⟨n, rfl⟩)
  | key =>
    rw [State.refuseUnit_key]
    obtain ⟨mem, others, cnt, spire, frozen, address, code, cls⟩ := s.log_violate c u a (r := s.countKey) rfl rfl 0x201
      (s.dieId.toNat + c.val * 64 + unitNum u * 1024)
    exact ⟨mem, others, cnt, address, by simp, spire, fun _ => ⟨code, cls, frozen⟩, by simp⟩
  | readOnly =>
    rw [State.refuseUnit_readOnly]
    obtain ⟨mem, others, cnt, spire, frozen, address, code, cls⟩ := s.log_violate c u a (r := s) rfl rfl 0x701 s.dieId.toNat
    exact ⟨mem, others, cnt, address, by simp, spire, by simp, fun _ => ⟨code, cls, frozen⟩⟩

variable {s c u a} {width : Nat} (hacts : s.acts (.unit c u) = true) (hfit : s.misfit a width = false)
include hacts hfit

/-- A refused write is discarded: the refusal is all that happens. -/
theorem State.registerWrite_refused (v : Word) (hx : s.judge (.unit c u) a true ≠ .ok) :
    s.registerWrite (.unit c u) a width v = s.refuseUnit c u a (s.judge (.unit c u) a true) := by
  have write : s.registerWrite (.unit c u) a width v = s.masterWrite (.unit c u) a width v := rfl
  rw [write, State.masterWrite, if_neg (by simp [hacts, hfit])]
  split
  · contradiction
  · rfl

/-- A refused read delivers poisoned zeros. -/
theorem State.masterRead_refused (hx : s.judge (.unit c u) a false ≠ .ok) :
    s.masterRead (.unit c u) a width = (s.refuseUnit c u a (s.judge (.unit c u) a false)).returned 0 true := by
  rw [State.masterRead, if_neg (by simp [hacts]), if_neg (by simp [hfit])]
  split
  · contradiction
  · rfl

end Sys2Proof.Machine

end

section

namespace Sys2Proof.Claims

open Sys2Proof.Machine

/-- O13 (c): a write leaves the refusal's state, a read the same with poisoned zeros returned. -/
theorem refusedAccessesAreLogged : RefusedAccessesAreLogged := by
  intro s c u a width v write hp i x hx hacts hfit
  have made : RefusalMade s (s.refuseUnit c u a.toNat x) c u a.toNat x := s.refuseUnit_made c u a.toNat hx
  cases write with
  | true =>
    have hexec : exec i s = .next (s.refuseUnit c u a.toNat x) :=
      (exec_registerWrite s _ a width v hp).trans (congrArg _ (State.registerWrite_refused hacts hfit v hx))
    obtain ⟨mem, others, cnt, address, unreached, spire, key, readOnly⟩ := made
    exact ⟨_, hexec, mem, others, cnt, by simp, address, unreached, spire, key, readOnly⟩
  | false =>
    have hexec : exec i s = .next ((s.refuseUnit c u a.toNat x).returned 0 true) :=
      (exec_rcRead s _ a width hp).trans (congrArg _ (State.masterRead_refused hacts hfit hx))
    obtain ⟨mem, others, cnt, address, unreached, spire, key, readOnly⟩ := made.returned 0 true
    exact ⟨_, hexec, mem, others, cnt, fun _ => rfl, address, unreached, spire, key, readOnly⟩

end Sys2Proof.Claims

open Sys2Proof.Claims

/-- Settles O13, by its three parts: granted writes of the sequencer and the seed, granted accesses by their codes, refused accesses of a unit. -/
theorem registerAccessesHaveTheirEffects : Obligations.RegisterAccessesHaveTheirEffects :=
  ⟨sequencerAndSeedWritesTakeEffect, accessCodesAreFollowed, refusedAccessesAreLogged⟩

end

/-! ## A MOVE that reads another partition's memory (R19, R177) -/

section

namespace Sys2Proof.Machine

/-- The next state of a started MOVE that the mover may perform. -/
theorem next_of_exec_move {s t : State} {c : CoreId} {a : Active} (hp : s.powered = true) (ha : s.moverReady c .move = some a)
    (ht : exec (.move c .perform) s = .next t) : t = s.movePerform c a := by
  have row : s.moverAct c .perform .move State.movePerform = s.movePerform c a := by
    simp only [State.moverAct, State.moverRow, ha]
  have performed : exec (.move c .perform) s = .next (s.movePerform c a) :=
    (ev_powered s (·.moverAct c .perform .move State.movePerform) hp).trans (congrArg _ row)
  exact Host.Outcome.next.inj (ht.symm.trans performed)

end Sys2Proof.Machine

namespace Sys2Proof.Claims

open Sys2Proof.Machine

/-! ### The counterexample: core 0 of partition 5 copies 16 bytes from the Cupola of core 1, of partition 6 -/

/-- The started MOVE (Table TIL-9): MODE 0, one row of 16 bytes from offset 0x1000 of core 1's Cupola to offset 0x2000 of core 0's. -/
def foreignMove : Active :=
  { entry := { id := 4, bits := BitVec.ofNat 512 (leNat (leBytes 0x20 16 ++ leBytes (coreBase 1 + 0x1000) 8 ++ leBytes (coreBase 0 + 0x2000) 8
                  ++ leBytes 16 4 ++ leBytes 1 4))
               off := 0, maskSkip := false, runs := none, subn := false, zgate := false, taken := .no, inSegment := false }
    progress := .started, null := false, steps := 0, promoted := 0, poisonLogged := false, boundsLogged := false }

/-- The core in C0 and of the partition with this key. -/
def awakeFor (key : BitVec 16) : Core := { Core.reset true 40 with cstate := .c0, owner := some key }

/-- A released die whose core 0, of partition 5, has started that MOVE, its core 1 being of partition 6. -/
def foreignMoveState : State :=
  ((({ State.reset with porst := false } : State).modCore 1 fun _ => awakeFor 6).modCore 0 fun _ => awakeFor 5).modQ 0 .mover
    fun q => { q with active := [foreignMove] }

theorem foreignMove_ready : UnitReady foreignMoveState 0 .mover 0x20 foreignMove :=
  ⟨by decide +kernel, by decide +kernel, by decide +kernel, by decide +kernel, rfl, [], [], by decide +kernel, by simp, by simp⟩

theorem foreignMove_destination_granted : ∀ r < body foreignMove.entry.bits 36 4, ∀ b < body foreignMove.entry.bits 32 4,
    Granted foreignMoveState 0 ((body foreignMove.entry.bits 24 5 + r * body foreignMove.entry.bits 44 4) % 2 ^ 40 + b) true := by
  have own : ∀ r < body foreignMove.entry.bits 36 4, ∀ b < body foreignMove.entry.bits 32 4,
      let x := (body foreignMove.entry.bits 24 5 + r * body foreignMove.entry.bits 44 4) % 2 ^ 40 + b
      foreignMoveState.verdict (foreignMoveState.core 0).owner x true = .ok ∧ region x = .cupola 0 := by decide +kernel
  exact fun r hr b hb => ⟨(own r hr b hb).1, .inr ⟨0, (own r hr b hb).2⟩⟩

/-- R19: the read is a key mismatch (0x201), which freezes the mover and ends the descriptor failed. -/
theorem foreignMove_fails :
    let t := foreignMoveState.movePerform 0 foreignMove
    (t.core 0).mov.q.active.map (·.progress) = [.failed] ∧ (t.frozen 0 .mover).isSome = true ∧ (lastRecord t).code = 0x201 := by
  decide +kernel

/-- O24 (a) asks a MOVE whose destination is granted to complete, wherever its source lies. -/
theorem not_vecAndMoveArePerformed : ¬ VecAndMoveArePerformed := by
  intro h
  have wf : foreignMoveState.wf := by unfold State.wf; decide +kernel
  have noneEarly : NoneEarly foreignMoveState 0 foreignMove := by
    have empty : (foreignMoveState.core 0).mov.buffer = [] := by decide +kernel
    simp [NoneEarly, empty]
  obtain ⟨t, ht, frame, -⟩ := (h foreignMoveState 0 foreignMove wf).2 foreignMove_ready noneEarly
    fun r b hr hb => foreignMove_destination_granted r hr b hb
  have performed : t = foreignMoveState.movePerform 0 foreignMove := next_of_exec_move (by decide +kernel) (by decide +kernel) ht
  obtain ⟨noted, went⟩ := frame.went
  have one : ((foreignMoveState.core 0).unitQ .mover).active = [foreignMove] := by decide +kernel
  have done : (t.core 0).mov.q.active.map (·.progress) = [.done] := by
    have active : (t.core 0).mov.q.active = _ := went
    rw [active, one]
    rfl
  obtain ⟨failed, -, -⟩ := foreignMove_fails
  rw [performed, failed] at done
  exact absurd done (by decide)

end Sys2Proof.Claims

open Sys2Proof.Claims

/-- Refutes O24: nothing asks that the source of a MOVE be the partition's own, and a source of another partition freezes the mover and ends the
descriptor failed (R19), where the statement has it complete with nothing but the SRAM, the fault log and the mover changed. -/
theorem not_copiesAndRemoteOperationsArePerformed : ¬ Obligations.CopiesAndRemoteOperationsArePerformed := by
  unfold Obligations.CopiesAndRemoteOperationsArePerformed
  exact fun h => not_vecAndMoveArePerformed h.1

end

/-! ## Reads of the SRAM and counter operations: what each leaves as it was (R235, R242 to R248) -/

section

namespace Sys2Proof.Machine

open Sys2Proof.Claims

variable (s : State) (c : CoreId)

/-! ### Logging changes the Belfry alone -/

theorem State.logTo_changes_blf (both : Bool) (i : FaultInfo) : s.logTo both i = { s with blf := (s.logTo both i).blf } := by
  unfold State.logTo
  dsimp only
  split <;> rfl

theorem State.log_changes_blf (i : FaultInfo) : s.log i = { s with blf := (s.log i).blf } := s.logTo_changes_blf false i

theorem State.logLimited_changes_blf (period : Nat) (both : Bool) (i : FaultInfo) :
    s.logLimited period both i = { s with blf := (s.logLimited period both i).blf } := by
  unfold State.logLimited
  dsimp only
  split
  · split
    · rfl
    · rw [State.logTo_changes_blf]; rfl
  · rw [State.logTo_changes_blf]; rfl

theorem State.logBounds_changes_blf (u : UnitId) (logged : Bool) (outs : List Nat) :
    s.logBounds c u logged outs = { s with blf := (s.logBounds c u logged outs).blf } := by
  unfold State.logBounds
  dsimp only
  split
  · rfl
  · refine foldl_holds _ (fun t : State => t = { s with blf := t.blf }) (fun t a ht => ?_) _ _ ?_
    · rw [ht]; rfl
    · split
      · rfl
      · exact s.log_changes_blf _

/-! ### Reads -/

/-- `t` is `s` after reads of its SRAM: no byte differs, and only where words were damaged do marks, damage and the Belfry (R235, R236). -/
structure Reads (s t : State) : Prop where
  die : t = { s with mem := t.mem, blf := t.blf }
  cells : t.mem.cells = s.mem.cells
  wf : s.mem.wf = true → t.mem.wf = true
  clean : s.mem.upsets = [] → t = s

theorem Reads.refl : Reads s s := ⟨rfl, rfl, id, fun _ => rfl⟩

section

variable {s} {t r : State}

theorem Reads.trans (h : Reads s t) (h' : Reads t r) : Reads s r where
  die := by rw [h'.die, h.die]
  cells := h'.cells.trans h.cells
  wf w := h'.wf (h.wf w)
  clean e := (h'.clean (by rw [h.clean e, e])).trans (h.clean e)

variable (h : Reads s t)
include h

theorem Reads.cores : t.cores = s.cores := by rw [h.die]
theorem Reads.core_eq (d : CoreId) : t.core d = s.core d := by rw [h.die]; rfl
theorem Reads.eng_eq (d : CoreId) (e : EngId) : t.eng d e = s.eng d e := by rw [State.eng, h.core_eq, State.eng]
theorem Reads.byteAt (a : Nat) : t.mem.byteAt a = s.mem.byteAt a := by simp only [Memory.byteAt, h.cells]
theorem Reads.sameBytes : SameBytes s t := h.byteAt
theorem Reads.load (a n : Nat) : t.mem.load a n = s.mem.load a n := by simp only [Memory.load, h.cells]
theorem Reads.mem_clean (e : s.mem.upsets = []) : t.mem = s.mem := by rw [h.clean e]

end

theorem State.eccRead_changes (u : Nat × Bool) : s.eccRead u = { s with mem := (s.eccRead u).mem, blf := (s.eccRead u).blf } := by
  unfold State.eccRead
  dsimp only
  split
  · rfl
  · split <;> rw [State.logLimited_changes_blf] <;> rfl

theorem State.eccRead_cells (u : Nat × Bool) : (s.eccRead u).mem.cells = s.mem.cells := by
  unfold State.eccRead
  dsimp only
  split
  · rfl
  · split <;> simp

theorem State.demand_reads (a n : Nat) : Reads s (s.demand a n) where
  die := foldl_holds State.eccRead (fun t => t = { s with mem := t.mem, blf := t.blf })
    (fun t u ht => by rw [State.eccRead_changes, ht]) _ _ rfl
  cells := foldl_keeps State.eccRead (fun t => t.mem.cells) State.eccRead_cells _ _
  wf h := (s.demand_keeps a n h).1
  clean h := s.demand_clean a n (by simp [h])

theorem State.cupRead_reads (off n : Nat) : Reads s (s.cupRead c off n).1 := s.demand_reads _ _

/-! ### Bells and counters -/

theorem wake_none (w : Wait) : wake (fun _ => false) w = w := by simp [wake]

theorem wake_eq_ring (line : Nat) : wake (fun b => b == line) = Wait.ring line := by
  funext w
  simp [wake, Wait.ring]

theorem wake_wake (l m : Nat → Bool) (w : Wait) : wake m (wake l w) = wake (fun b => l b || m b) w := by
  cases hl : l (w.counter.toNat % 16) <;> cases hm : m (w.counter.toNat % 16) <;> by_cases hk : w.kind = .waitDesc ∨ w.kind = .header <;>
    simp [wake, hl, hm, hk]

theorem map_eng_id (v : Vector Engine 4) (f : Engine → Engine) (h : ∀ x, f x = x) : v.map f = v := by
  rw [funext h]; exact Vector.map_id v

/-- No bell line: nobody wakes. -/
theorem rung_none (k : Core) : rung (fun _ => false) k = k := by
  have same : ∀ w : Option Wait, w.map (wake fun _ => false) = w := fun w => by cases w <;> simp [wake_none]
  have quiet : ((List.range 16).any fun b => false && k.bellWake.getLsbD b) = false := by simp only [Bool.false_and]; decide
  simp only [rung, same, map_eng_id k.eng _ fun _ => rfl, quiet, Bool.and_false, Bool.or_false]

theorem any_or_lines (l m e : Nat → Bool) (bs : List Nat) :
    (bs.any fun b => (l b || m b) && e b) = ((bs.any fun b => l b && e b) || bs.any fun b => m b && e b) := by
  induction bs with
  | nil => rfl
  | cons b bs ih => simp only [List.any_cons, ih]; grind

/-- Bell lines that fire after others wake as all of them at once. -/
theorem rung_rung (l m : Nat → Bool) (k : Core) : rung m (rung l k) = rung (fun b => l b || m b) k := by
  have both : ∀ w : Option Wait, (w.map (wake l)).map (wake m) = w.map (wake fun b => l b || m b) := fun w => by cases w <;> simp [wake_wake]
  have pend : ∀ p a x y : Bool, ((p || (a && x)) || (a && y)) = (p || (a && (x || y))) := by decide
  simp only [rung, both, Vector.map_map, Function.comp_def, any_or_lines]
  congr 1
  exact pend _ _ _ _

/-- A bell line of the core fires (R246 to R248). -/
theorem State.core_fireBell (line : Nat) (h : line < 16) : (s.fireBell c line).core c = rung (fun b => b == line) (s.core c) := by
  have pend : ∀ k : Core, ((k.cstate == .c2 || k.cstate == .c3) && bitOf k.bellWake.toNat line)
      = (decide (k.cstate = .c2 ∨ k.cstate = .c3) && (List.range 16).any fun b => b == line && k.bellWake.getLsbD b) := by
    intro k
    have here : ((List.range 16).any fun b => b == line && k.bellWake.getLsbD b) = k.bellWake.getLsbD line := by
      rw [Bool.eq_iff_iff]
      simp [h]
    rw [here, bitOf_toNat, Bool.decide_or]
    rfl
  have engs : ∀ (v : Vector Engine 4) (f : Engine → Engine), vmap f v = v.map f := fun v f => by ext i hi; simp
  simp only [State.fireBell, State.core_modCore, rung, wake_eq_ring, pend, engs]

/-! What a bell leaves of a core: everything but its waits and the wake it asks for. -/

section

variable (l : Nat → Bool) (k : Core)

theorem rung_queue (v : UnitId) : ((rung l k).unitQ v).queue = (k.unitQ v).queue := by
  cases v <;> simp [rung, Core.unitQ, UnitQ.empty]

theorem rung_active (v : UnitId) : ((rung l k).unitQ v).active = (k.unitQ v).active := by
  cases v <;> simp [rung, Core.unitQ, UnitQ.empty]

end

/-! ### The counters (R242, R243) -/

theorem CntOp.apply_eq_countTo (v : Nat) (op : CntOp) : (op.apply v).1 = countTo v op := by
  cases op with
  | add n => simp only [CntOp.apply, countTo]; split <;> omega
  | sub n => simp only [CntOp.apply, countTo]; split <;> omega
  | set n => rfl

theorem countTo_lt (v : Nat) (op : CntOp) (h : v < 65536) : countTo v op < 65536 := by
  cases op <;> simp only [countTo] <;> omega

theorem State.cntOp_changes (n : Fin 64) (op : CntOp) : s.cntOp c n op = { s with cores := (s.cntOp c n op).cores, blf := (s.cntOp c n op).blf } := by
  unfold State.cntOp
  extract_lets k old r newSat newUnder s1 info s2 s3
  have h2 : s2 = { s1 with blf := s2.blf } := by
    simp only [s2]
    split
    · exact s1.log_changes_blf _
    · rfl
  have h3 : s3 = { s1 with blf := s3.blf } := by
    simp only [s3]
    split
    · rw [State.log_changes_blf, h2]
    · exact h2
  split <;> rw [h3] <;> rfl

/-- The core after a counter operation: its counters, their sticky bits, and what the bell wakes. -/
theorem State.core_cntOp (n : Fin 64) (op : CntOp) : let t := s.cntOp c n op
    ∃ l, t.core c = rung l { s.core c with cnt := (t.core c).cnt, sat := (t.core c).sat, under := (t.core c).under } := by
  unfold State.cntOp
  extract_lets k old r newSat newUnder s1 info s2 s3 t
  have h2 : s2.core c = s1.core c := by
    simp only [s2]
    split
    · exact s1.core_log c _
    · rfl
  have h3 : s3.core c = s1.core c := by
    simp only [s3]
    split
    · exact (s2.core_log c _).trans h2
    · exact h2
  have h1 : s1.core c = { s.core c with cnt := (s1.core c).cnt, sat := (s1.core c).sat, under := (s1.core c).under } := by
    simp only [s1, State.core_modCore]
  by_cases same : BitVec.ofNat 16 r.1 = old
  · refine ⟨fun _ => false, ?_⟩
    have ht : t = s3 := if_pos same
    rw [rung_none, ht, h3]
    exact h1
  · refine ⟨fun b => b == n.val % 16, ?_⟩
    have ht : t = s3.fireBell c (n.val % 16) := if_neg same
    rw [ht, State.core_fireBell _ _ _ (by omega), h3]
    exact congrArg _ h1

/-- Core `c` has performed the counter operations `ops` in turn (R242, R243, R246): their bells have woken its sleepers, their faults are in the
Belfry, and nothing else differs. -/
structure CountedAll (s t : State) (c : CoreId) (ops : List (Nat × CntOp)) : Prop where
  die : t = { s with cores := t.cores, blf := t.blf }
  others : SameCores s t c
  core : ∃ l, t.core c = rung l { s.core c with cnt := (t.core c).cnt, sat := (t.core c).sat, under := (t.core c).under }
  cnt : ∀ x, x < 64 → cntAt t c x = counts ops (cntAt s c) x

theorem CountedAll.nil : CountedAll s s c [] :=
  ⟨rfl, fun _ _ => rfl, ⟨_, (rung_none _).symm⟩, fun _ _ => rfl⟩

theorem counts_append (l m : List (Nat × CntOp)) (v : Nat → Nat) : counts (l ++ m) v = counts m (counts l v) := by
  simp [counts]

/-- The value of a counter after operations depends on the counters below 64 alone, where the operations name such. -/
theorem counts_congr (ops : List (Nat × CntOp)) {v w : Nat → Nat} {x : Nat} (h : v x = w x) : counts ops v x = counts ops w x := by
  induction ops generalizing v w with
  | nil => exact h
  | cons o ops ih => exact ih (by simp only [h])

section

variable {s c} {t r : State} {l m : List (Nat × CntOp)}

theorem CountedAll.trans (h : CountedAll s t c l) (h' : CountedAll t r c m) : CountedAll s r c (l ++ m) where
  die := by rw [h'.die, h.die]
  others d hd := (h'.others d hd).trans (h.others d hd)
  core := by
    obtain ⟨⟨x, hx⟩, y, hy⟩ := And.intro h.core h'.core
    refine ⟨fun b => x b || y b, ?_⟩
    rw [hy, ← rung_rung, hx]
    rfl
  cnt x hx := by
    rw [h'.cnt x hx, counts_append]
    exact counts_congr m (h.cnt x hx)

variable (h : CountedAll s t c l)
include h

theorem CountedAll.mem : t.mem = s.mem := by rw [h.die]

theorem CountedAll.queue (v : UnitId) : ((t.core c).unitQ v).queue = ((s.core c).unitQ v).queue := by
  obtain ⟨_, hl⟩ := h.core
  rw [hl, rung_queue]
  cases v <;> rfl

theorem CountedAll.active (v : UnitId) : ((t.core c).unitQ v).active = ((s.core c).unitQ v).active := by
  obtain ⟨_, hl⟩ := h.core
  rw [hl, rung_active]
  cases v <;> rfl

theorem CountedAll.seq : (t.core c).seq = { (s.core c).seq with wait := (t.core c).seq.wait } := by
  obtain ⟨_, hl⟩ := h.core
  rw [hl]
  rfl

end

theorem cntAt_lt (n : Nat) : cntAt s c n < 65536 := BitVec.isLt _

theorem State.cntOp_countedAll (n : Fin 64) (op : CntOp) : CountedAll s (s.cntOp c n op) c [(n.val, op)] where
  die := s.cntOp_changes c n op
  others d hd := s.cntOp_other c d n op hd
  core := s.core_cntOp c n op
  cnt x hx := by
    have index : Fin.ofNat 64 x = n ↔ x = n.val := by
      rw [Fin.ext_iff, Fin.val_ofNat, Nat.mod_eq_of_lt hx]
    have small : (op.apply (cntAt s c n.val)).1 < 65536 := by
      rw [CntOp.apply_eq_countTo]
      exact countTo_lt _ op (cntAt_lt s c _)
    have value : ((s.core c).cnt[n]).toNat = cntAt s c n.val := by simp [cntAt]
    simp only [counts, List.foldl_cons, List.foldl_nil, ← index]
    rw [cntAt, State.cntOp_cnt, getElem_upd]
    split
    case isTrue h => rw [BitVec.toNat_ofNat, value, Nat.mod_eq_of_lt small, CntOp.apply_eq_countTo, index.mp h]
    case isFalse => rfl

end Sys2Proof.Machine

end

/-! ## The sequencer moves past a descriptor; a descriptor enters its queue (R141, R142, R158, R165 to R167, R183, R184) -/

section

namespace Sys2Proof.Machine

open Sys2Proof.Claims

variable (s : State) (c : CoreId)

/-! ### What leaves the queues of a core as they are -/

/-- Core `c` keeps every queue and every started descriptor, its counters go through `ops`, and no byte of the SRAM differs: what the sequencer's own
work leaves of a core and of the die. -/
structure KeepsQueues (s t : State) (c : CoreId) (ops : List (Nat × CntOp)) : Prop where
  die : t = { s with cores := t.cores, mem := t.mem, bronze := t.bronze, blf := t.blf, free := t.free }
  bytes : SameBytes s t
  intact : s.mem.upsets = [] → t.mem = s.mem
  others : SameCores s t c
  queue : ∀ v, ((t.core c).unitQ v).queue = ((s.core c).unitQ v).queue
  active : ∀ v, ((t.core c).unitQ v).active = ((s.core c).unitQ v).active
  cnt : ∀ x, x < 64 → cntAt t c x = counts ops (cntAt s c) x

theorem KeepsQueues.trans {s t r : State} {c : CoreId} {l m : List (Nat × CntOp)} (h : KeepsQueues s t c l) (h' : KeepsQueues t r c m) :
    KeepsQueues s r c (l ++ m) where
  die := by rw [h'.die, h.die]
  bytes a := (h'.bytes a).trans (h.bytes a)
  intact e := (h'.intact (by rw [h.intact e, e])).trans (h.intact e)
  others d hd := (h'.others d hd).trans (h.others d hd)
  queue v := (h'.queue v).trans (h.queue v)
  active v := (h'.active v).trans (h.active v)
  cnt x hx := by
    rw [h'.cnt x hx, counts_append]
    exact counts_congr m (h.cnt x hx)

theorem Reads.keepsQueues {s t : State} (h : Reads s t) (c : CoreId) : KeepsQueues s t c [] where
  die := by rw [h.die]
  bytes := h.sameBytes
  intact := h.mem_clean
  others d _ := h.core_eq d
  queue v := by rw [h.core_eq]
  active v := by rw [h.core_eq]
  cnt x _ := by simp only [cntAt, h.core_eq]; rfl

theorem CountedAll.keepsQueues {s t : State} {c : CoreId} {l : List (Nat × CntOp)} (h : CountedAll s t c l) : KeepsQueues s t c l where
  die := by rw [h.die]
  bytes a := by rw [h.mem]
  intact _ := h.mem
  others := h.others
  queue := h.queue
  active := h.active
  cnt := h.cnt

/-- A change of core `c` that keeps its counters and its queues. -/
theorem State.modCore_keepsQueues {f : Core → Core} (hcnt : ∀ k, (f k).cnt = k.cnt)
    (hq : ∀ k v, ((f k).unitQ v).queue = (k.unitQ v).queue ∧ ((f k).unitQ v).active = (k.unitQ v).active) : KeepsQueues s (s.modCore c f) c [] where
  die := rfl
  bytes _ := rfl
  intact _ := rfl
  others d hd := s.core_modCore_other c d f hd
  queue v := by rw [State.core_modCore, (hq _ v).1]
  active v := by rw [State.core_modCore, (hq _ v).2]
  cnt x _ := by simp only [cntAt, State.core_modCore, hcnt]; rfl

theorem State.modSeq_keepsQueues (f : Sequencer → Sequencer) : KeepsQueues s (s.modSeq c f) c [] :=
  s.modCore_keepsQueues c (fun _ => rfl) fun _ v => by cases v <;> exact ⟨rfl, rfl⟩

theorem State.modMov_keepsQueues {f : Mover → Mover} (h : ∀ m, (f m).q = m.q) : KeepsQueues s (s.modMov c f) c [] :=
  s.modCore_keepsQueues c (fun _ => rfl) fun _ v => by cases v <;> simp [Core.unitQ, h]

theorem State.seq_modSeq (f : Sequencer → Sequencer) : ((s.modSeq c f).core c).seq = f (s.core c).seq := by rw [State.core_modSeq]

/-! ### Completion signals (R169) -/

/-- A descriptor's completion signal is given. -/
def State.signalled (s : State) (c : CoreId) (d : Desc) : State :=
  if dSigEn d then s.cntOp c (Fin.ofNat 64 (dSigCnt d)) (.add 1) else s

theorem dSigCnt_lt (d : Desc) : dSigCnt d < 64 := Nat.mod_lt _ (by decide)

theorem State.signalled_countedAll (d : Desc) : CountedAll s (s.signalled c d) c (sigOps d) := by
  unfold State.signalled sigOps
  split
  · have h := s.cntOp_countedAll c (Fin.ofNat 64 (dSigCnt d)) (.add 1)
    rwa [Fin.val_ofNat, Nat.mod_eq_of_lt (dSigCnt_lt d)] at h
  · exact .nil s c

theorem State.completeOwn_eq (d : Desc) (skipped : Bool) : s.completeOwn c d skipped = (s.signalled c d).modSeq c fun q =>
    { q with retired := q.retired + 1, skipped := if skipped then satAdd q.skipped 1 else q.skipped } := rfl

theorem State.completeOwn_keepsQueues (d : Desc) (skipped : Bool) : KeepsQueues s (s.completeOwn c d skipped) c (sigOps d) := by
  rw [State.completeOwn_eq, ← List.append_nil (sigOps d)]
  exact (s.signalled_countedAll c d).keepsQueues.trans (State.modSeq_keepsQueues _ c _)

theorem State.completeOwn_seq (d : Desc) (skipped : Bool) : let t := s.completeOwn c d skipped
    (t.core c).seq = { (s.core c).seq with
      wait := (t.core c).seq.wait, retired := (s.core c).seq.retired + 1
      skipped := if skipped then satAdd (s.core c).seq.skipped 1 else (s.core c).seq.skipped } := by
  intro t
  have ht : (t.core c).seq = { ((s.signalled c d).core c).seq with
      retired := ((s.signalled c d).core c).seq.retired + 1
      skipped := if skipped then satAdd ((s.signalled c d).core c).seq.skipped 1 else ((s.signalled c d).core c).seq.skipped } := by
    simp only [t, State.completeOwn_eq, State.core_modSeq]
  rw [ht, (s.signalled_countedAll c d).seq]

/-! ### Past the next descriptor -/

/-- A loop with the mask bits of its iteration set. -/
def Loop.masked (m : Loop → Option (Bool × Bool)) (l : Loop) : Loop := { l with mask := m l }

/-- Stepping a loop ends it after its last copy, and otherwise gives the copy that follows (R184). -/
theorem Loop.advance_cases (l : Loop) : (ends l = true ∧ l.advance = none) ∨ (ends l = false ∧ ∃ m, l.advance = some m ∧ Follows l m) := by
  by_cases hb : l.b + 1 < l.body.length
  · exact .inr ⟨by simp only [ends, decide_eq_false_iff_not]; omega, _, if_pos hb, rfl, rfl, by rw [if_pos hb]; exact ⟨rfl, rfl, rfl, rfl⟩⟩
  · unfold Loop.advance
    rw [if_neg hb]
    dsimp only
    split
    case isTrue h0 =>
      exact .inr ⟨by simp only [ends, decide_eq_false_iff_not]; omega, _, rfl, rfl, rfl, by rw [if_neg hb, if_pos h0]; exact ⟨rfl, rfl, rfl, rfl, rfl⟩⟩
    case isFalse h0 =>
    split
    case isTrue h1 =>
      refine .inr ⟨by simp only [ends, decide_eq_false_iff_not]; omega, _, rfl, rfl, rfl, ?_⟩
      rw [if_neg hb, if_neg h0, if_pos h1]
      exact ⟨rfl, rfl, rfl, rfl, rfl⟩
    case isFalse h1 =>
    split
    case isTrue h2 =>
      refine .inr ⟨by simp only [ends, decide_eq_false_iff_not]; omega, _, rfl, rfl, rfl, ?_⟩
      rw [if_neg hb, if_neg h0, if_neg h1]
      exact ⟨rfl, rfl, rfl, rfl, rfl⟩
    case isFalse h2 => exact .inl ⟨by simp only [ends, decide_eq_true_eq]; omega, rfl⟩

/-- The sequencer of core `c` has moved past its next descriptor; a REPEAT that ends with it has completed. -/
structure PastNext (s t : State) (c : CoreId) : Prop where
  keeps : KeepsQueues s t c (loopSig s c)
  stepped : Stepped s t c
  seq : (t.core c).seq = { (s.core c).seq with
    loop := (t.core c).seq.loop, segment := (t.core c).seq.segment, head := (t.core c).seq.head, wait := (t.core c).seq.wait, waitMet := none
    retired := (s.core c).seq.retired + (if (lastCopy s c).isSome then 1 else 0) }

/-- The sequencer past a descriptor of its segment or of the ring (R158, R183). -/
def Sequencer.pastSlot (q : Sequencer) : Sequencer :=
  match q.segment with
  | some a => { q with segment := some (a + 64), waitMet := none }
  | none => { q.release 1 with waitMet := none }

theorem State.passed_keepsQueues (n : Nat) : KeepsQueues s (s.modMov c fun m => m.passed n) c [] :=
  s.modMov_keepsQueues c (f := fun m => m.passed n) fun _ => rfl

/-- Where no REPEAT ends, the sequencer alone steps. -/
theorem State.advance_steps {f : Sequencer → Sequencer} (ht : s.advance c = (s.modMov c fun m => m.passed 1).modSeq c f) :
    KeepsQueues s (s.advance c) c [] ∧ ((s.advance c).core c).seq = f (s.core c).seq := by
  rw [ht]
  exact ⟨(s.passed_keepsQueues c 1).trans (State.modSeq_keepsQueues _ c f), by simp only [State.core_modSeq, State.core_modMov]⟩

theorem State.advance_pastNext : PastNext s (s.advance c) c := by
  cases hloop : (s.core c).seq.loop with
  | none =>
    have last : lastCopy s c = none := by simp [lastCopy, hloop]
    obtain ⟨keeps, seq⟩ := s.advance_steps c (f := Sequencer.pastSlot) (by simp only [State.advance, hloop]; rfl)
    refine ⟨by simpa [loopSig, last] using keeps, ?_, ?_⟩
    · simp only [Stepped, seq, hloop, Sequencer.pastSlot]
      cases hseg : (s.core c).seq.segment <;> simp [Sequencer.release, Sequencer.size, hloop, hseg]
    · rw [seq, last, Sequencer.pastSlot]
      cases hseg : (s.core c).seq.segment <;> simp [Sequencer.release]
  | some l =>
    rcases l.advance_cases with ⟨hends, hadv⟩ | ⟨hends, m, hadv, hm⟩
    · have last : lastCopy s c = some l := by simp [lastCopy, hloop, hends]
      have sig : loopSig s c = sigOps l.desc := by simp [loopSig, last]
      let r := (s.modMov c fun m => m.passed 1).modSeq c fun q => { q with loop := none, waitMet := none }
      have hr : KeepsQueues s r c [] := (s.passed_keepsQueues c 1).trans (State.modSeq_keepsQueues _ c _)
      have rseq : (r.core c).seq = { (s.core c).seq with loop := none, waitMet := none } := by
        simp only [r, State.core_modSeq, State.core_modMov]
      have ht : s.advance c = r.completeOwn c l.desc false := by simp only [State.advance, hloop, hadv, r]
      have seq := r.completeOwn_seq c l.desc false
      rw [ht]
      refine ⟨by rw [sig]; exact hr.trans (r.completeOwn_keepsQueues c l.desc false), ?_, ?_⟩
      · simp only [Stepped, hloop, hends, if_true]
        rw [seq, rseq]
        exact ⟨rfl, rfl, rfl⟩
      · rw [seq, rseq, last]
        rfl
    · have last : lastCopy s c = none := by simp [lastCopy, hloop, hends]
      obtain ⟨keeps, seq⟩ := s.advance_steps c (f := fun q => { q with loop := some m, waitMet := none }) (by simp only [State.advance, hloop, hadv])
      refine ⟨by simpa [loopSig, last] using keeps, ?_, ?_⟩
      · simp [Stepped, hloop, seq, hends, hm]
      · rw [seq, last]
        simp

/-! ### Before the dispatch: the descriptor is read, its mask bits are kept, its phase is entered -/

theorem State.fetched_reads (off : Nat) : Reads s (s.fetched c off) := by
  unfold State.fetched
  split
  · exact .refl s
  · exact s.demand_reads _ _

theorem State.touchMask_reads : Reads s (s.touchMask c) := by
  unfold State.touchMask
  split
  · split
    · unfold State.readMask
      extract_lets r rd w o
      have h : Reads s r := s.cupRead_reads c _ _
      split
      · exact (h.trans (r.cupRead_reads c _ _)).trans (State.cupRead_reads _ c _ _)
      · exact h
    · exact .refl s
  · exact .refl s

theorem State.keepMask_keepsQueues (d : Desc) : KeepsQueues s (s.keepMask c d) c [] := by
  unfold State.keepMask
  split
  · exact (Reads.refl s).keepsQueues c
  · exact ((s.touchMask_reads c).keepsQueues c).trans (State.modSeq_keepsQueues _ c _)

/-- Keeping the mask bits changes the loop in progress alone (R142). -/
theorem State.keepMask_seq (d : Desc) : ∃ m, ((s.keepMask c d).core c).seq = { (s.core c).seq with loop := (s.core c).seq.loop.map (Loop.masked m) } := by
  unfold State.keepMask
  split
  · refine ⟨Loop.mask, ?_⟩
    have same : (s.core c).seq.loop.map (Loop.masked Loop.mask) = (s.core c).seq.loop := by cases (s.core c).seq.loop <;> rfl
    rw [same]
  · exact ⟨fun l => if pMaskEn l.desc then s.loopBits c l else none, by rw [State.core_modSeq, (s.touchMask_reads c).core_eq]; rfl⟩

theorem State.setBronze_keepsQueues (b : Bronze) (n : Nat) : KeepsQueues s { s with bronze := b, free := n } c [] :=
  ⟨rfl, fun _ => rfl, fun _ => rfl, fun _ _ => rfl, fun _ => rfl, fun _ => rfl, fun _ _ => rfl⟩

theorem State.setLevel_keepsQueues (f : Core → BitVec 5) : KeepsQueues s (s.modCore c fun k => { k with k := f k }) c [] :=
  s.modCore_keepsQueues c (fun _ => rfl) fun _ v => by cases v <;> exact ⟨rfl, rfl⟩

theorem State.setLevel_seq (f : Core → BitVec 5) : ((s.modCore c fun k => { k with k := f k }).core c).seq = (s.core c).seq := by
  rw [State.core_modCore]

/-- The preset changes the core's throttle level alone (R343). -/
theorem State.presetFor_keeps (ph : BitVec 6) : KeepsQueues s (s.presetFor c ph) c [] ∧ ((s.presetFor c ph).core c).seq = (s.core c).seq := by
  unfold State.presetFor
  extract_lets e best
  split
  · exact ⟨s.setLevel_keepsQueues c _, s.setLevel_seq c _⟩
  · split
    · exact ⟨(Reads.refl s).keepsQueues c, rfl⟩
    · exact ⟨(s.setLevel_keepsQueues c _).trans (State.setBronze_keepsQueues _ c _ _), s.setLevel_seq c _⟩

/-- A phase entered changes, of its core, the phase and what Bronze keeps of the visit (R186, R342, R343). -/
theorem State.enterPhase_keeps (ph : BitVec 6) (noLearn : Bool) : let t := s.enterPhase c ph noLearn
    KeepsQueues s t c [] ∧ (t.core c).seq = { (s.core c).seq with phase := ph } := by
  unfold State.enterPhase
  extract_lets k old r r' t
  by_cases same : k.seq.phase = ph
  · have ht : t = s := if_pos same
    rw [ht, ← same]
    exact ⟨(Reads.refl s).keepsQueues c, rfl⟩
  · have ht : t = (r'.modCore c fun k => { k with visitStart := r'.now, visitNoLearn := noLearn }).modSeq c fun q => { q with phase := ph } := if_neg same
    have hr : KeepsQueues s r c [] ∧ (r.core c).seq = (s.core c).seq := by
      simp only [r]
      split
      · exact ⟨s.setBronze_keepsQueues c _ _, rfl⟩
      · exact ⟨(Reads.refl s).keepsQueues c, rfl⟩
    have hr' := r.presetFor_keeps c ph
    have visit : KeepsQueues r' (r'.modCore c fun k => { k with visitStart := r'.now, visitNoLearn := noLearn }) c [] :=
      r'.modCore_keepsQueues c (fun _ => rfl) fun _ v => by cases v <;> exact ⟨rfl, rfl⟩
    rw [ht]
    refine ⟨((hr.1.trans hr'.1).trans visit).trans (State.modSeq_keepsQueues _ c _), ?_⟩
    rw [State.seq_modSeq, State.core_modCore, hr'.2, hr.2]

/-- What a dispatch does before its descriptor acts: it reads the descriptor, keeps the mask bits of its iteration, and enters its phase. -/
def State.prepared (s : State) (c : CoreId) (n : NextDesc) (noLearn : Bool) : State :=
  ((s.fetched c n.off).keepMask c n.d).enterPhase c (BitVec.ofNat 6 (dPhase n.d)) noLearn

theorem State.prepared_keepsQueues (n : NextDesc) (noLearn : Bool) : KeepsQueues s (s.prepared c n noLearn) c [] :=
  (((s.fetched_reads c n.off).keepsQueues c).trans (State.keepMask_keepsQueues _ c n.d)).trans (State.enterPhase_keeps _ c _ noLearn).1

theorem State.prepared_seq (n : NextDesc) (noLearn : Bool) : ∃ m, ((s.prepared c n noLearn).core c).seq
    = { (s.core c).seq with loop := (s.core c).seq.loop.map (Loop.masked m), phase := BitVec.ofNat 6 (dPhase n.d) } := by
  obtain ⟨m, hm⟩ := (s.fetched c n.off).keepMask_seq c n.d
  refine ⟨m, ?_⟩
  rw [State.prepared, (State.enterPhase_keeps _ c _ noLearn).2, hm, (s.fetched_reads c n.off).core_eq]

/-! ### Where the next descriptor stands, up to the mask bits kept -/

/-- Sequencer `r` stands at the same descriptor as `q`; only the mask bits kept for its iteration may differ. -/
structure SamePlace (q r : Sequencer) : Prop where
  loop : ∃ m, r.loop = q.loop.map (Loop.masked m)
  segment : r.segment = q.segment
  head : r.head = q.head
  log2 : r.log2 = q.log2

section

variable {s c} {r t : State} (h : SamePlace (s.core c).seq (r.core c).seq)
include h

theorem SamePlace.lastCopy : ∃ m, lastCopy r c = (lastCopy s c).map (Loop.masked m) := by
  obtain ⟨⟨m, hm⟩, -, -, -⟩ := h
  refine ⟨m, ?_⟩
  rw [Claims.lastCopy, Claims.lastCopy, hm]
  cases hl : (s.core c).seq.loop with
  | none => rfl
  | some l =>
    have same : ends (l.masked m) = ends l := rfl
    simp only [Option.map_some, Option.filter_some, same]
    cases ends l <;> rfl

theorem SamePlace.loopSig : loopSig r c = loopSig s c := by
  obtain ⟨m, hm⟩ := h.lastCopy
  rw [Claims.loopSig, Claims.loopSig, hm]
  cases Claims.lastCopy s c <;> rfl

theorem SamePlace.isSome : (Claims.lastCopy r c).isSome = (Claims.lastCopy s c).isSome := by
  obtain ⟨m, hm⟩ := h.lastCopy
  rw [hm, Option.isSome_map]

theorem SamePlace.stepped (hs : Stepped r t c) : Stepped s t c := by
  obtain ⟨⟨m, hm⟩, hseg, hhead, hlog⟩ := h
  simp only [Stepped, hm, hseg, hhead, hlog] at hs ⊢
  revert hs
  cases (s.core c).seq.loop <;> exact id

end

end Sys2Proof.Machine

end

section

namespace Sys2Proof.Machine

open Sys2Proof.Claims

variable (s : State) (c : CoreId)

/-! ### A performer's queue changed -/

section

variable {u v : UnitId} (f : UnitQ → UnitQ)

theorem State.unitQ_modQ (hu : u ≠ .seq) : ((s.modQ c u f).core c).unitQ u = f (((s.core c).unitQ u)) := by
  cases u with
  | seq => exact absurd rfl hu
  | _ => simp [State.modQ, Core.unitQ]

theorem State.unitQ_modQ_other (h : v ≠ u) : ((s.modQ c u f).core c).unitQ v = (s.core c).unitQ v := by
  cases u with
  | eng e =>
    cases v with
    | eng x =>
      have hx : x ≠ e := fun hx => h (by rw [hx])
      simp only [State.modQ, State.core_modEng, Core.unitQ]
      rw [upd_other _ _ _ _ hx]
    | _ => simp [State.modQ, Core.unitQ]
  | seq => rfl
  | _ => cases v <;> simp_all [State.modQ, Core.unitQ]

theorem State.seq_modQ (u : UnitId) : ((s.modQ c u f).core c).seq = (s.core c).seq := by
  cases u <;> simp [State.modQ]

end

/-! ### The queued rows dispatch the next descriptor into its performer's queue (R165, R172, R173, R182) -/

theorem queuedRows_performer (d : Desc) : ∀ r ∈ queuedRows c, r.2.2 d ≠ .seq := by simp [queuedRows]

variable {s c} {n : NextDesc} (hp : s.powered = true) (hready : s.seqReady c = true) (hnext : s.nextDesc c = some n)
include hp hready hnext

/-- A dispatch row that accepts the next descriptor puts it into its performer's queue. -/
theorem dispatch_enqueues {p : Desc → Bool} {u : UnitId} (hacc : p n.d = true) (hu : dPerformer n.d = some u) :
    ev s (fun s => s.dispatchQueued c p) = .next (s.enqueue c u n) := by
  have kind : (dKind n.d).isNone = false := by
    cases h : dKind n.d with
    | none => simp [dPerformer, h] at hu
    | some k => rfl
  rw [ev_powered s _ hp]
  simp [State.dispatchQueued, hready, hnext, kind, hacc, hu]

/-- The dispatch of a kind that unit `u` performs. -/
theorem dispatch_kind {k : DKind} {u : UnitId} (hk : dKind n.d = some k) (hu : dPerformer n.d = some u) :
    ev s (fun s => s.dispatchQueued c (isKind k)) = .next (s.enqueue c u n) :=
  dispatch_enqueues hp hready hnext (by simp [isKind, hk]) hu

/-- The dispatch of an ACC of operation `op`. -/
theorem dispatch_acc {op : Nat} (h : (dType n.d == 3 && dBits n.d 8 0 4 == op) = true) :
    ev s (fun s => s.dispatchQueued c (isAcc op)) = .next (s.enqueue c (.eng (dUnit n.d)) n) := by
  obtain ⟨htype, hop⟩ : dType n.d = 3 ∧ dBits n.d 8 0 4 = op := by simpa using h
  have hk : dKind n.d = some .acc := by rw [dKind, htype]; rfl
  exact dispatch_enqueues hp hready hnext (by simp [isAcc, isKind, aOp, hk, hop]) (by simp [dPerformer, hk])

/-- The dispatch of a mover descriptor. -/
theorem dispatch_mover {k : DKind} {code : Nat} (hk : kindOf code = some k)
    (hk' : k ∈ [DKind.move, .gather, .scatter, .remoteWrite, .remoteRead, .mcast, .compress]) (h : (dType n.d == code) = true) :
    ev s (fun s => s.dispatchQueued c (isKind k)) = .next (s.enqueue c .mover n) := by
  have kind : dKind n.d = some k := by rw [dKind, beq_iff_eq.mp h, hk]
  refine dispatch_kind hp hready hnext kind ?_
  fin_cases hk' <;> simp [dPerformer, kind]

/-- Every queued row of the table that fits the next descriptor puts it into the queue of its performer (Table TIL-3). -/
theorem queuedRow_enqueues : ∀ r ∈ queuedRows c, r.2.1 n.d = true → exec r.1 s = .next (s.enqueue c (r.2.2 n.d) n) := by
  have engine : ∀ {k : DKind} {code : Nat}, kindOf code = some k → k = .loadb ∨ k = .stream → (dType n.d == code) = true →
      ev s (fun s => s.dispatchQueued c (isKind k)) = .next (s.enqueue c (.eng (dUnit n.d)) n) := by
    intro k code hk hk' h
    have kind : dKind n.d = some k := by rw [dKind, beq_iff_eq.mp h, hk]
    exact dispatch_kind hp hready hnext kind (by rcases hk' with rfl | rfl <;> simp [dPerformer, kind])
  simp only [queuedRows, List.forall_mem_cons, List.not_mem_nil, false_imp_iff, implies_true, and_true]
  refine ⟨engine rfl (.inl rfl), engine rfl (.inr rfl), dispatch_acc hp hready hnext, dispatch_acc hp hready hnext, dispatch_acc hp hready hnext,
    dispatch_acc hp hready hnext, dispatch_acc hp hready hnext, dispatch_acc hp hready hnext, dispatch_acc hp hready hnext, dispatch_acc hp hready hnext,
    fun h => ?_, dispatch_mover hp hready hnext rfl (by simp), dispatch_mover hp hready hnext rfl (by simp), dispatch_mover hp hready hnext rfl (by simp),
    dispatch_mover hp hready hnext rfl (by simp), dispatch_mover hp hready hnext rfl (by simp), dispatch_mover hp hready hnext rfl (by simp),
    dispatch_mover hp hready hnext rfl (by simp), fun h => ?_⟩
  · have kind : dKind n.d = some .vec := by rw [dKind, beq_iff_eq.mp h]; rfl
    exact dispatch_kind hp hready hnext kind (by simp [dPerformer, kind])
  · obtain ⟨htype, hremote⟩ : dType n.d = 0x31 ∧ dBits n.d 9 0 1 = 1 := by simpa using h
    have kind : dKind n.d = some .signal := by rw [dKind, htype]; rfl
    have hu : dPerformer n.d = some .mover := by simp [dPerformer, kind, hremote]
    rw [← dispatch_kind hp hready hnext kind hu, ev_powered s _ hp]
    change execSignal c .dispatch s = _
    simp only [execSignal, ev, hp, hnext, hu, Option.isSome_some, if_true]

/-! ### A descriptor enters its queue (R166, R167) -/

omit hp hready hnext

variable (s c)

/-- The queue entry of the next descriptor for unit `u`: its number, what its mask bits say, and the modes of its engine at dispatch (R66, R145). -/
def State.entryFor (s : State) (c : CoreId) (u : UnitId) (n : NextDesc) : QEntry :=
  let k := s.core c
  let mark := s.maskSays c n.d
  let mode := match u with
    | .eng e => (k.eng[e].subn, k.eng[e].zgate)
    | _ => (true, true)
  { id := k.seq.issued, bits := n.d, off := n.off, maskSkip := mark == .skip
    runs := if dWaitThresh n.d = 0 then some (mark != .skip && k.predRuns n.d) else none, subn := mode.1, zgate := mode.2
    taken := if mark = .bad then .malformed else .no, inSegment := n.seg }

/-- The next descriptor stands in the queue of unit `u`, bound to what was read early for it, and the sequencer has yet to move past it. -/
def State.queued (s : State) (c : CoreId) (u : UnitId) (n : NextDesc) : State :=
  (((s.prepared c n false).modQ c u fun q => { q with queue := q.queue ++ [s.entryFor c u n] }).modSeq c fun q =>
    { q with issued := q.issued + 1 }).modMov c fun m => m.bound (s.entryFor c u n)

theorem State.enqueue_room {u : UnitId} (n : NextDesc) (hq : ((s.core c).unitQ u).queue.length < 64) (hf : (s.core c).inFlight < 1024) :
    s.enqueue c u n = (s.queued c u n).advance c :=
  if_neg (by omega)

theorem State.enqueue_full {u : UnitId} (n : NextDesc) (h : 64 ≤ ((s.core c).unitQ u).queue.length ∨ 1024 ≤ (s.core c).inFlight) :
    s.enqueue c u n = s :=
  if_pos h

/-- The sequencer and the mover's early data after the entry was appended, against the queues alone. -/
theorem State.queued_keepsQueues (u : UnitId) (n : NextDesc) :
    KeepsQueues ((s.prepared c n false).modQ c u fun q => { q with queue := q.queue ++ [s.entryFor c u n] }) (s.queued c u n) c [] :=
  (State.modSeq_keepsQueues _ c _).trans (State.modMov_keepsQueues _ c fun _ => rfl)

theorem State.queued_seq (u : UnitId) (n : NextDesc) : ∃ m, ((s.queued c u n).core c).seq = { (s.core c).seq with
    loop := (s.core c).seq.loop.map (Loop.masked m), phase := BitVec.ofNat 6 (dPhase n.d), issued := (s.core c).seq.issued + 1 } := by
  obtain ⟨m, hm⟩ := s.prepared_seq c n false
  refine ⟨m, ?_⟩
  rw [State.queued, State.core_modMov]
  simp only [State.seq_modSeq, State.seq_modQ, hm]

theorem State.queued_samePlace (u : UnitId) (n : NextDesc) : SamePlace (s.core c).seq ((s.queued c u n).core c).seq := by
  obtain ⟨m, hm⟩ := s.queued_seq c u n
  exact ⟨⟨m, by rw [hm]⟩, by rw [hm], by rw [hm], by rw [hm]⟩

/-- A descriptor that entered the queue of unit `u`, and the sequencer past it. -/
structure Entered (s t : State) (c : CoreId) (u : UnitId) (n : NextDesc) : Prop where
  queue : ((t.core c).unitQ u).queue = ((s.core c).unitQ u).queue ++ [s.entryFor c u n]
  queues : ∀ v, v ≠ u → ((t.core c).unitQ v).queue = ((s.core c).unitQ v).queue
  active : ∀ v, ((t.core c).unitQ v).active = ((s.core c).unitQ v).active
  stepped : Stepped s t c
  issued : (t.core c).seq.issued = (s.core c).seq.issued + 1
  phase : (t.core c).seq.phase = BitVec.ofNat 6 (dPhase n.d)
  cnt : ∀ x, x < 64 → cntAt t c x = counts (loopSig s c) (cntAt s c) x
  retired : (t.core c).seq.retired = (s.core c).seq.retired + (if (lastCopy s c).isSome then 1 else 0)
  bytes : SameBytes s t
  others : SameCores s t c
  die : t = { s with cores := t.cores, mem := t.mem, bronze := t.bronze, blf := t.blf, free := t.free }
  intact : s.mem.upsets = [] → t.mem = s.mem

theorem State.queued_advance_entered {u : UnitId} (n : NextDesc) (hu : u ≠ .seq) : Entered s ((s.queued c u n).advance c) c u n := by
  have place := s.queued_samePlace c u n
  have past := (s.queued c u n).advance_pastNext c
  have before := s.prepared_keepsQueues c n false
  let append : UnitQ → UnitQ := fun q => { q with queue := q.queue ++ [s.entryFor c u n] }
  have only := (s.prepared c n false).modQ_onlyCore c u append
  have after := (s.queued_keepsQueues c u n).trans past.keeps
  rw [place.loopSig, List.nil_append] at after
  obtain ⟨m, hseq⟩ := s.queued_seq c u n
  exact {
    queue := by rw [after.queue, State.unitQ_modQ _ _ _ hu, before.queue]
    queues := fun v hv => by rw [after.queue, State.unitQ_modQ_other _ _ _ hv, before.queue]
    active := fun v => by
      rw [after.active]
      by_cases hv : v = u
      · rw [hv, State.unitQ_modQ _ _ _ hu, before.active]
      · rw [State.unitQ_modQ_other _ _ _ hv, before.active]
    stepped := place.stepped past.stepped
    issued := by rw [past.seq, hseq]
    phase := by rw [past.seq, hseq]
    cnt := fun x hx => by
      rw [after.cnt x hx]
      refine counts_congr _ ?_
      rw [cntAt, only.cnt]
      exact before.cnt x hx
    retired := by rw [past.seq, hseq, place.isSome]
    bytes := fun a => (after.bytes a).trans ((congrArg (·.byteAt a) only.mem).trans (before.bytes a))
    others := fun d hd => (after.others d hd).trans ((only.others d hd).trans (before.others d hd))
    die := by rw [after.die, only.die, before.die]
    intact := fun e => (after.intact (by rw [only.mem, before.intact e, e])).trans (only.mem.trans (before.intact e)) }

end Sys2Proof.Machine

end

section

open Sys2Proof Sys2Proof.Machine Sys2Proof.Claims

/-- Settles O14: each row that fits the next descriptor is its entry into its performer's queue, which has room for it or leaves the die as it is. -/
theorem queuedDescriptorsEnterTheirQueue : Obligations.QueuedDescriptorsEnterTheirQueue := by
  intro s c n hp hready hnext r hr hfits k u
  have row : exec r.1 s = .next (s.enqueue c u n) := queuedRow_enqueues hp hready hnext r hr hfits
  refine ⟨fun hq hf => ?_, fun hfull => row.trans (congrArg _ (s.enqueue_full c n hfull))⟩
  rw [s.enqueue_room c n hq hf] at row
  have entered := s.queued_advance_entered c n (queuedRows_performer c n.d r hr)
  have malformed : (s.entryFor c u n).taken = .malformed ↔ s.maskSays c n.d = .bad := by
    simp only [State.entryFor]
    split <;> simp [*]
  have modes : ∀ e, u = .eng e → (s.entryFor c u n).subn = (s.eng c e).subn ∧ (s.entryFor c u n).zgate = (s.eng c e).zgate := by
    intro e he
    rw [he]
    exact ⟨rfl, rfl⟩
  exact ⟨_, _, row, entered.queue, rfl, rfl, rfl, rfl, malformed, modes, entered.queues, entered.active, entered.stepped, entered.issued, entered.phase,
    entered.cnt, entered.retired, entered.bytes, entered.others, entered.die, entered.intact⟩

end

/-! ## The head of a queue starts, is skipped or is refused; descriptors retire (R144, R145, R168, R169, R192) -/

section

namespace Sys2Proof.Machine

open Sys2Proof.Claims

variable (s : State) (c : CoreId)

/-- A field of `w` bits is below 2^w. -/
theorem field_lt (v lo w : Nat) : field v lo w < 2 ^ w := Nat.mod_lt _ (Nat.two_pow_pos w)

theorem dWaitCnt_lt (d : Desc) : dWaitCnt d < 2 ^ 6 := field_lt _ _ _

theorem dWaitThresh_lt (d : Desc) : dWaitThresh d < 2 ^ 16 := field_lt _ _ _

/-! ### A refused descriptor (R64, R192) -/

/-- Nothing enters, leaves or changes in the queues of core `c`, nor among its started descriptors. -/
def SameQueues (s t : State) (c : CoreId) : Prop :=
  ∀ v, ((t.core c).unitQ v).queue = ((s.core c).unitQ v).queue ∧ ((t.core c).unitQ v).active = ((s.core c).unitQ v).active

theorem SameQueues.trans {s t r : State} {c : CoreId} (h : SameQueues s t c) (h' : SameQueues t r c) : SameQueues s r c :=
  fun v => ⟨(h' v).1.trans (h v).1, (h' v).2.trans (h v).2⟩

theorem KeepsQueues.sameQueues {s t : State} {c : CoreId} {l : List (Nat × CntOp)} (h : KeepsQueues s t c l) : SameQueues s t c :=
  fun v => ⟨h.queue v, h.active v⟩

theorem State.modQ_sameQueues {f : UnitQ → UnitQ} (h : ∀ q, (f q).queue = q.queue ∧ (f q).active = q.active) (u : UnitId) :
    SameQueues s (s.modQ c u f) c := by
  intro v
  by_cases hv : v = u
  · by_cases hu : u = .seq
    · rw [hu]; exact ⟨rfl, rfl⟩
    · rw [hv, s.unitQ_modQ c f hu]; exact h _
  · rw [s.unitQ_modQ_other c f hv]; exact ⟨rfl, rfl⟩

theorem State.freezeUnit_sameQueues (u : UnitId) (cause : FreezeCause) (discard : Bool) (desc : Option Nat) :
    SameQueues s (s.freezeUnit c u cause discard desc) c := by
  unfold State.freezeUnit
  extract_lets stops r
  have freeze : SameQueues s r c := by
    have thawed (v : UnitId) : SameQueues s (s.modQ c v fun q => { q with freeze := mergeFreeze q.freeze cause discard }) c :=
      s.modQ_sameQueues c (f := fun q => { q with freeze := mergeFreeze q.freeze cause discard }) (fun _ => ⟨rfl, rfl⟩) v
    cases u with
    | seq => exact (s.modSeq_keepsQueues c fun q => { q with freeze := mergeFreeze q.freeze cause discard }).sameQueues
    | _ => exact thawed _
  cases desc with
  | none => exact freeze
  | some d =>
    dsimp only
    split
    · exact freeze.trans (r.modSeq_keepsQueues c fun q => { q with faultDesc := BitVec.ofNat 23 d }).sameQueues
    · exact freeze

/-- A running unit that is frozen at a descriptor: SEQ_FAULT_DESC names it (R399). -/
theorem State.freezeUnit_faultDesc {u : UnitId} (h : s.frozen c u = none) (cause : FreezeCause) (discard : Bool) (off : Nat) :
    ((s.freezeUnit c u cause discard (some off)).core c).seq.faultDesc = BitVec.ofNat 23 off := by
  have stops : (s.frozen c u).isNone = true := by rw [h]; rfl
  simp only [State.freezeUnit, stops, if_true, State.seq_modSeq]

/-- Unit `u` has refused its descriptor at offset `off` and is frozen. -/
structure UnitRefused (s t : State) (c : CoreId) (u : UnitId) (off : Nat) : Prop where
  frozen : t.frozen c u = some { cause := .refusal, discard := true, answer := none }
  code : (lastRecord t).code = 0x502
  cls : (lastRecord t).cls = .contained
  detail : (lastRecord t).detail = BitVec.ofNat 32 off
  faultDesc : (t.core c).seq.faultDesc = BitVec.ofNat 23 off
  mem : t.mem = s.mem
  others : SameCores s t c
  cnt : (t.core c).cnt = (s.core c).cnt
  queues : SameQueues s t c

theorem State.refuse_unitRefused {u : UnitId} (h : s.frozen c u = none) (off : Nat) : UnitRefused s (s.refuse c u off) c u off := by
  unfold State.refuse
  generalize hi : ({ cls := .contained, code := 0x502, block := (unitSource c u).1, inst := (unitSource c u).2, pkey := none
                     detail := off, address := 0 } : FaultInfo) = i
  have logged : ∀ d, (s.log i).core d = s.core d := fun d => s.core_log d i
  have running : (s.log i).frozen c u = none := by rw [State.frozen, logged]; exact h
  have only := (s.log i).freezeUnit_onlyCore c u .refusal true (some off)
  have record := only.lastRecord.trans (lastRecord_log s i)
  have keeps := (s.log i).freezeUnit_sameQueues c u .refusal true (some off)
  exact {
    frozen := by rw [State.frozen_freezeUnit, running]; rfl
    code := by rw [record, ← hi]; rfl
    cls := by rw [record, ← hi]; rfl
    detail := by rw [record, ← hi]; rfl
    faultDesc := (s.log i).freezeUnit_faultDesc c running _ _ off
    mem := only.mem.trans (s.log_mem i)
    others := fun d hd => (only.others d hd).trans (logged d)
    cnt := only.cnt.trans (by rw [logged])
    queues := fun v => by rw [(keeps v).1, (keeps v).2, logged]; exact ⟨rfl, rfl⟩ }

/-! ### The head of a queue (R168) -/

theorem isKind_loadb (d : Desc) : isKind .loadb d = decide (dType d = 1) := by
  by_cases h : dType d = 1
  · simp [isKind, dKind, h, kindOf]
  · have : kindOf (dType d) ≠ some .loadb := by
      unfold kindOf
      split <;> simp_all
    simp [isKind, dKind, h, this]

/-- The head's predicate has been read and its wait is over (R145). -/
def State.headRead (s : State) (c : CoreId) (u : UnitId) (en : QEntry) : State :=
  s.modQ c u fun q => { q.decide en.id (mayRun s c en) with wait := none }

/-- The head with its refusal noted, before the fault. -/
def State.headMarked (s : State) (c : CoreId) (u : UnitId) (en : QEntry) : State :=
  s.modQ c u fun q => { q.mark en.id .refused with wait := none }

theorem reached_iff (en : QEntry) : Reached s c en ↔ ¬ (en.runs.isNone ∧ s.cntMet c (dWaitCnt en.bits) (dWaitThresh en.bits) = false) := by
  simp only [Reached, State.cntMet, cntAt, decide_eq_false_iff_not]
  cases en.runs <;> simp

/-! ### A descriptor leaves its queue (R166) -/

/-- The head left a queue `q` that is `q₀` but for what is noted on the head. -/
theorem UnitQ.leave_head {q₀ q : UnitQ} {en : QEntry} (hid : ∃ x, q.queue = x :: q₀.queue.tail ∧ x.id = en.id)
    (hne : ∀ x ∈ q₀.queue.tail, x.id ≠ en.id) (hact : q.active = q₀.active) (null : Bool) (p : Progress) :
    (q.leave en null p).queue = q₀.queue.tail ∧ (q.leave en null p).wait = none
      ∧ ∃ a, (q.leave en null p).active = q₀.active ++ [a] ∧ a.entry.id = en.id ∧ a.entry.bits = en.bits ∧ a.null = null ∧ a.progress = p
        ∧ a.steps = 0 ∧ a.promoted = 0 := by
  obtain ⟨x, hx, hxid⟩ := hid
  refine ⟨?_, rfl, _, by rw [← hact]; rfl, rfl, rfl, rfl, rfl, rfl, rfl⟩
  have others : q₀.queue.tail.filter (fun y => y.id != en.id) = q₀.queue.tail :=
    List.filter_eq_self.mpr fun y hy => by simpa using hne y hy
  simp only [UnitQ.leave, hx, List.filter_cons, hxid, bne_self_eq_false, Bool.false_eq_true, if_false, others]

section

variable {s c} {u : UnitId} {en : QEntry}

theorem State.headRead_keepsFreezes : KeepsFreezes s (s.headRead c u en) c :=
  s.modQ_keepsFreezes c u (f := fun q => { q.decide en.id (mayRun s c en) with wait := none }) fun _ => rfl

theorem State.headMarked_keepsFreezes : KeepsFreezes s (s.headMarked c u en) c :=
  s.modQ_keepsFreezes c u (f := fun q => { q.mark en.id .refused with wait := none }) fun _ => rfl

theorem State.headRead_onlyCore : OnlyCore s (s.headRead c u en) c := State.headRead_keepsFreezes.toOnlyCore

theorem State.leave_onlyCore (null : Bool) (p : Progress) : OnlyCore s (s.modQ c u fun q => q.leave en null p) c := s.modQ_onlyCore c u _

/-- The engine's queue as the head's read leaves it, and the rest of the engine as it was. -/
theorem State.eng_headRead (e : EngId) : (s.headRead c (.eng e) en).eng c e
    = { s.eng c e with q := { (s.eng c e).q.decide en.id (mayRun s c en) with wait := none } } :=
  s.eng_modEng c e _

/-- A head that is skipped becomes a null entry, dropping what was read early for it (R144, R190). -/
theorem State.startNull_onlyCore : OnlyCore s (s.startNull c u en) c := by
  unfold State.startNull
  extract_lets r
  have left : OnlyCore s r c := s.leave_onlyCore true .done
  split
  · exact left.trans (r.modCore_onlyCore c fun _ => rfl)
  · exact left

theorem State.startNull_unitQ (hu : u ≠ .seq) : ((s.startNull c u en).core c).unitQ u = ((s.core c).unitQ u).leave en true .done := by
  rw [← s.unitQ_modQ c (fun q => q.leave en true .done) hu]
  unfold State.startNull
  dsimp only
  split
  case isTrue hm =>
    subst hm
    simp [Core.unitQ, Mover.discard]
  case isFalse => rfl

/-! ### A STREAM opens a closed group (R115) -/

variable (s c)

/-- A cleared byte reads 0 and any other as before, whatever the cells' order. -/
theorem Memory.byteAt_cleared (m : Memory) (a n b : Nat) : (m.clear a n).byteAt b = if a ≤ b ∧ b < a + n then 0 else m.byteAt b := by
  by_cases hb : a ≤ b ∧ b < a + n
  · have gone : (m.clear a n).cells.find? (fun x => x.1 == b) = none := by
      rw [Memory.clear, List.find?_filter, List.find?_eq_none]
      intro x _
      simp
      omega
    rw [if_pos hb, Memory.byteAt, gone]
  · have kept : (m.clear a n).cells.find? (fun x => x.1 == b) = m.cells.find? fun x => x.1 == b := by
      rw [Memory.clear, List.find?_filter]
      congr 1
      funext x
      by_cases hx : x.1 = b
      · simp only [hx, beq_self_eq_true, and_true, decide_eq_true_eq, Bool.or_eq_true]
        omega
      · simp [hx]
    rw [if_neg hb, Memory.byteAt, kept, Memory.byteAt]

/-- The group of a STREAM that starts, opened zeroed where it was closed. -/
def State.groupReady (s : State) (c : CoreId) (e : EngId) (g : GroupId) : State :=
  if (s.group c e g).state = .closed then (s.zeroGroup c e g).modGroup c e g fun x => x.opened false else s

theorem State.startStream_starts {e : EngId} (hfree : (s.eng c e).streamFree en.bits = true) (hfit : (s.eng c e).streamUnfit en.bits = false) :
    s.startStream c e en = (s.groupReady c e (sGroup en.bits)).modQ c (.eng e) fun q => q.leave en false .started := by
  simp only [State.startStream, hfree, hfit, Bool.not_true, Bool.false_eq_true, if_false]
  rfl

theorem State.group_modQ (e : EngId) (g : GroupId) (f : UnitQ → UnitQ) : (s.modQ c (.eng e) f).group c e g = s.group c e g := by
  rw [State.group, State.modQ, State.eng_modEng]
  rfl

theorem State.groupReady_unitQ (e : EngId) (g : GroupId) : ((s.groupReady c e g).core c).unitQ (.eng e) = (s.core c).unitQ (.eng e) := by
  unfold State.groupReady
  split
  · change (((s.zeroGroup c e g).modGroup c e g _).eng c e).q = (s.eng c e).q
    rw [State.modGroup, State.eng_modEng]
    rfl
  · rfl

theorem State.groupReady_others (e : EngId) (g : GroupId) : SameCores s (s.groupReady c e g) c := by
  intro d hd
  unfold State.groupReady
  split
  · exact State.core_modCore_other _ c d _ hd
  · rfl

theorem State.groupReady_changes (e : EngId) (g : GroupId) :
    s.groupReady c e g = { s with cores := (s.groupReady c e g).cores, mem := (s.groupReady c e g).mem } := by
  unfold State.groupReady
  split <;> rfl

theorem State.groupReady_open {e : EngId} {g : GroupId} (h : (s.group c e g).state ≠ .closed) : s.groupReady c e g = s := if_neg h

theorem State.groupReady_closed {e : EngId} {g : GroupId} (h : (s.group c e g).state = .closed) :
    Opened ((s.groupReady c e g).group c e g) ∧ (s.groupReady c e g).mem = s.mem.clear (groupBase c e g) 0x2000 := by
  rw [State.groupReady, if_pos h]
  refine ⟨?_, rfl⟩
  rw [State.group_modGroup]
  exact ⟨rfl, rfl, rfl, rfl, rfl, fun b hb => by simp [Group.opened, b2n, hb]⟩

end

end Sys2Proof.Machine

namespace Sys2Proof.Claims

open Sys2Proof.Machine

/-! ### The head of a queue, case by case -/

variable {s : State} {c : CoreId} {u : UnitId} {en : QEntry} (h : Head s c u en)
include h

theorem Head.steps : exec (.headerWaitMet c u) s = .next (s.startHead c u) := by
  obtain ⟨hp, -, -, hu, -⟩ := h
  change execHeaderWaitMet c u s = _
  simp only [execHeaderWaitMet, ev, hp, if_true, hu, if_false]

theorem Head.startHead_loadb {e : EngId} (he : u = .eng e) (hd : dType en.bits = 1) : s.startHead c u = s.startLoadb c e en := by
  obtain ⟨-, live, -, -, r, hq, -⟩ := h
  subst he
  simp [State.startHead, hq, live, isKind_loadb, hd]

theorem Head.startHead_eq (hd : dType en.bits ≠ 1) : s.startHead c u =
    if en.runs.isNone ∧ s.cntMet c (dWaitCnt en.bits) (dWaitThresh en.bits) = false then
      if ((s.core c).unitQ u).wait.isSome then s
      else s.modQ c u fun q => { q with wait := some (s.newWait .header (dWaitCnt en.bits) (dWaitThresh en.bits) en.off 0) }
    else if en.taken = .malformed ∨ predOk (dPred en.bits) = false ∨ (mayRun s c en = true ∧ descBad en.inSegment en.bits = true)
      then (s.headRead c u en).refuseHead c u en
    else if mayRun s c en then (s.headRead c u en).startRun c u en else (s.headRead c u en).startNull c u en := by
  obtain ⟨-, live, running, -, r, hq, -⟩ := h
  have thawed : ((s.core c).unitQ u).freeze.isSome = false := by
    have : ((s.core c).unitQ u).freeze = none := running
    rw [this]; rfl
  have notLoadb : isKind .loadb en.bits = false := by rw [isKind_loadb, decide_eq_false hd]
  simp only [State.startHead, hq, live, Bool.not_true, Bool.false_eq_true, if_false, notLoadb, thawed]
  rfl

theorem Head.notSeq : u ≠ .seq := by
  obtain ⟨-, -, -, hu, -⟩ := h
  exact hu

/-- A change that notes something on the head's entry alone changes that entry alone. -/
theorem Head.map_queue {g : QEntry → QEntry} :
    ((s.core c).unitQ u).queue.map (fun e => if e.id = en.id then g e else e) = g en :: ((s.core c).unitQ u).queue.tail := by
  obtain ⟨-, -, -, -, r, hq, hne⟩ := h
  rw [hq, List.map_cons, if_pos rfl, List.tail_cons]
  congr 1
  exact (List.map_congr_left fun x hx => if_neg (hne x hx)).trans (List.map_id' r)

theorem Head.takes {t : State} {q : UnitQ} {null : Bool} {p : Progress} (hid : ∃ x, q.queue = x :: ((s.core c).unitQ u).queue.tail ∧ x.id = en.id)
    (hact : q.active = ((s.core c).unitQ u).active) (ht : (t.core c).unitQ u = q.leave en null p) : TookHead s t c u en null p := by
  obtain ⟨-, -, -, -, r, hq, hne⟩ := h
  rw [TookHead, ht]
  exact UnitQ.leave_head hid (by rwa [hq]) hact null p

/-- The head of the queue as it stands. -/
theorem Head.here : ∃ x, ((s.core c).unitQ u).queue = x :: ((s.core c).unitQ u).queue.tail ∧ x.id = en.id := by
  obtain ⟨-, -, -, -, r, hq, -⟩ := h
  exact ⟨en, by rw [hq, List.tail_cons], rfl⟩

theorem Head.headRead_unitQ : ((s.headRead c u en).core c).unitQ u = { ((s.core c).unitQ u).decide en.id (mayRun s c en) with wait := none } :=
  s.unitQ_modQ c _ h.notSeq

theorem Head.headRead_here : ∃ x, (((s.headRead c u en).core c).unitQ u).queue = x :: ((s.core c).unitQ u).queue.tail ∧ x.id = en.id :=
  ⟨{ en with runs := some (mayRun s c en) }, by rw [h.headRead_unitQ]; exact h.map_queue, rfl⟩

theorem Head.headRead_active : (((s.headRead c u en).core c).unitQ u).active = ((s.core c).unitQ u).active := by
  rw [h.headRead_unitQ]; rfl

theorem Head.headRead_leaves (null : Bool) (p : Progress) :
    TookHead s ((s.headRead c u en).modQ c u fun q => q.leave en null p) c u en null p :=
  h.takes h.headRead_here h.headRead_active (State.unitQ_modQ _ c _ h.notSeq)

theorem Head.skipped (hd : dType en.bits ≠ 1) (hr : Reached s c en) (hm : en.taken ≠ .malformed) (hp : predOk (dPred en.bits) = true)
    (hrun : mayRun s c en = false) : ∃ t, exec (.headerWaitMet c u) s = .next t ∧ Machine.OnlyCore s t c ∧ TookHead s t c u en true .done := by
  have ht : s.startHead c u = (s.headRead c u en).startNull c u en := by
    rw [h.startHead_eq hd, if_neg ((reached_iff s c en).mp hr), if_neg (by simp [hm, hp, hrun]), if_neg (by simp [hrun])]
  refine ⟨_, h.steps, ?_⟩
  rw [ht]
  exact ⟨State.headRead_onlyCore.trans State.startNull_onlyCore, h.takes h.headRead_here h.headRead_active (State.startNull_unitQ h.notSeq)⟩

theorem Head.runs (hd : dType en.bits ≠ 1) (hr : Reached s c en) (hm : en.taken ≠ .malformed) (hbad : descBad en.inSegment en.bits = false)
    (hrun : mayRun s c en = true) : exec (.headerWaitMet c u) s = .next ((s.headRead c u en).startRun c u en) := by
  have hp : predOk (dPred en.bits) = true := by
    unfold descBad at hbad
    split at hbad <;> simp_all
  rw [h.steps, h.startHead_eq hd, if_neg ((reached_iff s c en).mp hr), if_neg (by simp [hm, hp, hbad]), if_pos hrun]

theorem Head.sleeps (hd : dType en.bits ≠ 1) (hr : ¬ Reached s c en) (hw : ((s.core c).unitQ u).wait = none) :
    exec (.headerWaitMet c u) s
      = .next (s.modQ c u fun q => { q with wait := some (s.newWait .header (dWaitCnt en.bits) (dWaitThresh en.bits) en.off 0) }) := by
  rw [h.steps, h.startHead_eq hd, if_pos (not_not.mp ((reached_iff s c en).not.mp hr)), if_neg (by simp [hw])]

theorem Head.refused (hd : dType en.bits ≠ 1) (hr : Reached s c en)
    (hbad : en.taken = .malformed ∨ predOk (dPred en.bits) = false ∨ (mayRun s c en = true ∧ descBad en.inSegment en.bits = true)) :
    let r := (s.headRead c u en).headMarked c u en
    ∃ t, exec (.headerWaitMet c u) s = .next t ∧ UnitRefused r t c u en.off ∧ Machine.OnlyCore s r c
      ∧ (∃ x, ((r.core c).unitQ u).queue.head? = some x ∧ x.id = en.id ∧ x.taken = .refused)
      ∧ ((r.core c).unitQ u).active = ((s.core c).unitQ u).active := by
  intro r
  have ht : s.startHead c u = r.refuse c u en.off := by
    rw [h.startHead_eq hd, if_neg ((reached_iff s c en).mp hr), if_pos hbad]
    rfl
  have running : r.frozen c u = none := by
    obtain ⟨-, -, running, -⟩ := h
    rw [← running, State.headMarked_keepsFreezes.frozen, State.headRead_keepsFreezes.frozen]
  have unitQ : (r.core c).unitQ u = { (((s.headRead c u en).core c).unitQ u).mark en.id .refused with wait := none } := State.unitQ_modQ _ c _ h.notSeq
  refine ⟨_, h.steps, ht ▸ r.refuse_unitRefused c running en.off, State.headRead_onlyCore.trans State.headMarked_keepsFreezes.toOnlyCore, ?_, ?_⟩
  · obtain ⟨x, hx, hid⟩ := h.headRead_here
    refine ⟨{ x with taken := .refused }, ?_, hid, rfl⟩
    rw [unitQ]
    simp [UnitQ.mark, hx, hid]
  · rw [unitQ]
    exact h.headRead_active

/-- A descriptor that its performer starts at once. -/
theorem Head.starts (hrun : (s.headRead c u en).startRun c u en = (s.headRead c u en).modQ c u fun q => q.leave en false .started) :
    let t := (s.headRead c u en).startRun c u en
    Machine.OnlyCore s t c ∧ TookHead s t c u en false .started := by
  rw [hrun]
  exact ⟨State.headRead_onlyCore.trans (State.leave_onlyCore _ _), h.headRead_leaves false .started⟩

/-- A LOADB whose staging has ended has completed, and its tile is to be installed after those before it (R39, Table TIL-4). -/
theorem Head.loadbStarts {e : EngId} {slot : Fin 16} (he : u = .eng e) (hd : dType en.bits = 1) (ht : en.taken = .staged slot) :
    ∃ t, exec (.headerWaitMet c u) s = .next t ∧ Machine.OnlyCore s t c ∧ TookHead s t c u en false .done
      ∧ (t.eng c e).toInstall = (s.eng c e).toInstall ++ [slot] ∧ (t.eng c e).array = (s.eng c e).array := by
  refine ⟨_, h.steps, ?_⟩
  rw [h.startHead_loadb he hd]
  subst he
  have start : s.startLoadb c e en
      = s.modEng c e fun x => { x with q := x.q.leave en false .done, toInstall := x.toInstall ++ [slot] } := by
    simp only [State.startLoadb, ht]
  have eng := s.eng_modEng c e fun x => { x with q := x.q.leave en false .done, toInstall := x.toInstall ++ [slot] }
  rw [start]
  exact ⟨s.modCore_onlyCore c fun _ => rfl, h.takes h.here rfl (congrArg Engine.q eng), by rw [eng], by rw [eng]⟩

/-- A LOADB that staging has passed over becomes a null entry. -/
theorem Head.loadbSkipped {e : EngId} (he : u = .eng e) (hd : dType en.bits = 1) (ht : en.taken = .skipped) :
    ∃ t, exec (.headerWaitMet c u) s = .next t ∧ Machine.OnlyCore s t c ∧ TookHead s t c u en true .done := by
  refine ⟨_, h.steps, ?_⟩
  rw [h.startHead_loadb he hd]
  have null : s.startLoadb c e en = s.startNull c u en := by
    obtain ⟨-, -, running, -⟩ := h
    subst he
    have thawed : (s.eng c e).q.freeze = none := running
    simp [State.startLoadb, ht, thawed]
  rw [null]
  exact ⟨State.startNull_onlyCore, h.takes h.here rfl (State.startNull_unitQ h.notSeq)⟩

/-- An ACC starts, and a descriptor of the vector engine or the mover once the one before it has completed. -/
theorem Head.startsAtOnce
    (hu : (∃ e, u = .eng e ∧ dType en.bits = 3) ∨ ((u = .vec ∨ u = .mover) ∧ dType en.bits ≠ 1 ∧ ∀ a ∈ ((s.core c).unitQ u).active, a.progress = .done)) :
    (s.headRead c u en).startRun c u en = (s.headRead c u en).modQ c u fun q => q.leave en false .started := by
  rcases hu with ⟨e, rfl, hacc⟩ | ⟨hu, -, idle⟩
  · have notStream : isKind .stream en.bits = false := by simp [isKind, dKind, hacc, kindOf]
    simp only [State.startRun, notStream, Bool.false_eq_true, if_false]
  · rw [← h.headRead_active] at idle
    have rests : (((s.headRead c u en).core c).unitQ u).active.all (fun a => a.progress == .done) = true := by simpa using idle
    rcases hu with rfl | rfl <;> simp only [State.startRun, rests, if_true]

/-- A STREAM that fits the installed tile starts, its group opened zeroed where it was closed (R115). -/
theorem Head.streamStarts {e : EngId} {g : GroupId} (he : u = .eng e) (hd : dType en.bits = 2) (hg : g = sGroup en.bits)
    (hfree : (s.eng c e).streamFree en.bits = true) (hfit : (s.eng c e).streamUnfit en.bits = false) :
    let t := (s.headRead c u en).startRun c u en
    TookHead s t c u en false .started ∧ SameCores s t c ∧ t = { s with cores := t.cores, mem := t.mem }
      ∧ ((s.group c e g).state ≠ .closed → t.mem = s.mem)
      ∧ ((s.group c e g).state = .closed → Opened (t.group c e g) ∧ SameBytesBut s t (groupBase c e g) 0x2000
          ∧ ∀ a, groupBase c e g ≤ a → a < groupBase c e g + 0x2000 → t.mem.byteAt a = 0) := by
  subst he hg
  let r := s.headRead c (.eng e) en
  have readOnly : Machine.OnlyCore s r c := State.headRead_onlyCore
  have eng : r.eng c e = { s.eng c e with q := { (s.eng c e).q.decide en.id (mayRun s c en) with wait := none } } := State.eng_headRead e
  have group : r.group c e (sGroup en.bits) = s.group c e (sGroup en.bits) := by rw [State.group, eng, State.group]
  have stream : isKind .stream en.bits = true := by simp [isKind, dKind, hd, kindOf]
  intro t
  have ht : t = (r.groupReady c e (sGroup en.bits)).modQ c (.eng e) fun q => q.leave en false .started := by
    simp only [t, State.startRun, stream, if_true]
    exact State.startStream_starts r c (by rw [eng]; exact hfree) (by rw [eng]; exact hfit)
  clear_value t
  have left : Machine.OnlyCore (r.groupReady c e (sGroup en.bits)) t c := ht ▸ State.leave_onlyCore false .started
  have groups : t.group c e (sGroup en.bits) = (r.groupReady c e (sGroup en.bits)).group c e (sGroup en.bits) := by
    rw [ht, State.group_modQ]
  refine ⟨?_, fun d hd => ?_, ?_, fun hopen => ?_, fun hclosed => ?_⟩
  · refine h.takes (q := (r.core c).unitQ (.eng e)) h.headRead_here h.headRead_active ?_
    rw [ht, State.unitQ_modQ _ _ _ h.notSeq, State.groupReady_unitQ]
  · rw [left.others d hd, r.groupReady_others c e _ d hd, readOnly.others d hd]
  · rw [left.die, State.groupReady_changes, readOnly.die]
  · rw [left.mem, r.groupReady_open c (by rw [group]; exact hopen), readOnly.mem]
  · obtain ⟨opened, cleared⟩ := r.groupReady_closed c (e := e) (g := sGroup en.bits) (by rw [group]; exact hclosed)
    rw [readOnly.mem] at cleared
    refine ⟨by rw [groups]; exact opened, fun b hb => ?_, fun a lo hi => ?_⟩
    · rw [left.mem, cleared, Memory.byteAt_cleared, if_neg (by omega)]
    · rw [left.mem, cleared, Memory.byteAt_cleared, if_pos ⟨lo, hi⟩]

omit h

/-- The sequencer's met header wait ends, with the predicate of its descriptor read (R145, R168). -/
theorem seqHeaderWait_ends {w : Wait} {n : NextDesc} (hp : s.powered = true) (live : (s.core c).live = true) (hw : (s.core c).seq.wait = some w)
    (running : (s.core c).seq.freeze = none) (hk : w.kind = .header) (hmet : met s c w = true) (hn : s.nextDesc c = some n) :
    exec (.headerWaitMet c .seq) s = .next (s.modSeq c fun q => { q with wait := none, waitMet := some ((s.core c).predRuns n.d) }) := by
  have tested : s.cntMet c w.counter.toNat w.thresh.toNat = true := hmet
  change execHeaderWaitMet c .seq s = _
  simp [execHeaderWaitMet, ev, hp, State.seqHeaderMet, hw, live, running, hk, tested, State.seqMet, hn]

/-- O17 (a), by the cases of a queue's head. -/
theorem queueHeadsStartInOrder : QueueHeadsStartInOrder := by
  intro s c u en h d q i
  have plain : ∀ {t : State}, Machine.OnlyCore s t c → OnlyCore s t c := fun only => ⟨only.die, only.others⟩
  refine ⟨fun hd hr hw => ?_, fun hd hr hm hp hrun => ?_, fun hd hr hbad => ?_, fun hr hm hrun hbad hu => ?_, fun e slot he hd ht => ?_,
    fun e he hd ht => ?_, fun e g he hd hg hr hm hrun hbad hfree hfit => ?_, fun w n hw running hk hmet hn => ?_⟩
  · have counter : (BitVec.ofNat 6 (dWaitCnt d)).toNat = dWaitCnt d := by
      rw [BitVec.toNat_ofNat, Nat.mod_eq_of_lt (dWaitCnt_lt d)]
    have thresh : (BitVec.ofNat 16 (dWaitThresh d)).toNat = dWaitThresh d := by
      rw [BitVec.toNat_ofNat, Nat.mod_eq_of_lt (dWaitThresh_lt d)]
    exact ⟨_, _, h.sleeps hd hr hw, plain (s.modQ_onlyCore c u _), rfl, rfl, counter, thresh, rfl, rfl, rfl⟩
  · obtain ⟨t, ht, only, took⟩ := h.skipped hd hr hm hp hrun
    exact ⟨t, ht, plain only, took⟩
  · obtain ⟨t, ht, refused, only, head, active⟩ := h.refused hd hr hbad
    refine ⟨t, ht, refused.frozen, refused.code, refused.cls, refused.detail, refused.faultDesc, fun a => ?_, fun e he => ?_, ?_, ?_⟩
    · rw [refused.mem, only.mem]
    · rw [refused.others e he, only.others e he]
    · rw [(refused.queues u).1]
      exact head
    · rw [(refused.queues u).2]
      exact active
  · have hd : dType d ≠ 1 := by
      rcases hu with ⟨e, -, hacc⟩ | ⟨-, hd, -⟩
      · omega
      · exact hd
    obtain ⟨only, took⟩ := h.starts (h.startsAtOnce hu)
    exact ⟨_, h.runs hd hr hm hbad hrun, plain only, took⟩
  · obtain ⟨t, hex, only, rest⟩ := h.loadbStarts he hd ht
    exact ⟨t, hex, plain only, rest⟩
  · obtain ⟨t, hex, only, took⟩ := h.loadbSkipped he hd ht
    exact ⟨t, hex, plain only, took⟩
  · exact ⟨_, h.runs (fun h1 => absurd (hd.symm.trans h1) (by decide)) hr hm hbad hrun, h.streamStarts he hd hg hfree hfit⟩
  · obtain ⟨hp, live, -⟩ := h
    exact seqHeaderWait_ends hp live hw running hk hmet hn

end Sys2Proof.Claims

end

section

namespace Sys2Proof.Machine

open Sys2Proof.Claims

variable (s : State) (c : CoreId)

/-! ### Retiring (R167, R169) -/

theorem exec_descriptorRetire (u : UnitId) (hp : s.powered = true) : exec (.descriptorRetire c u) s = .next (s.retire c u) :=
  ev_powered s (·.retire c u) hp

theorem State.retire_unit {u : UnitId} (hu : u ≠ .seq) : s.retire c u = s.retireUnit c u := by
  cases u with
  | seq => exact absurd rfl hu
  | _ => rfl

/-- The oldest started descriptor of unit `u` has retired, leaving `r` behind it. -/
structure Retired (s t : State) (c : CoreId) (u : UnitId) (a : Active) (r : List Active) : Prop where
  active : ((t.core c).unitQ u).active = r
  queue : ((t.core c).unitQ u).queue = ((s.core c).unitQ u).queue
  retired : (t.core c).seq.retired = (s.core c).seq.retired + 1
  skipped : (t.core c).seq.skipped = if a.null then satAdd (s.core c).seq.skipped 1 else (s.core c).seq.skipped
  cnt : ∀ x, x < 64 → cntAt t c x = counts (sigOps a.entry.bits) (cntAt s c) x
  bytes : SameBytes s t
  others : SameCores s t c
  die : t = { s with cores := t.cores, blf := t.blf }

section

variable {s c} {u : UnitId} {a : Active} {r : List Active} (hu : u ≠ .seq) (ha : ((s.core c).unitQ u).active = a :: r)
include hu ha

theorem State.retire_open (hopen : a.progress ≠ .done) : s.retire c u = s := by
  rw [s.retire_unit c hu, State.retireUnit, ha]
  exact if_neg hopen

theorem State.retire_done (hdone : a.progress = .done) : Retired s (s.retire c u) c u a r := by
  let left := s.modQ c u fun q => { q with active := r }
  have ht : s.retire c u = (left.signalled c a.entry.bits).modSeq c fun q =>
      { q with retired := q.retired + 1, skipped := if a.null then satAdd q.skipped 1 else q.skipped } := by
    rw [s.retire_unit c hu, State.retireUnit, ha]
    exact if_pos hdone
  have only : OnlyCore s left c := s.modQ_onlyCore c u _
  have unitQ : (left.core c).unitQ u = { (s.core c).unitQ u with active := r } := s.unitQ_modQ c _ hu
  have signalled := left.signalled_countedAll c a.entry.bits
  have keeps := signalled.keepsQueues.trans ((left.signalled c a.entry.bits).modSeq_keepsQueues c fun q =>
      { q with retired := q.retired + 1, skipped := if a.null then satAdd q.skipped 1 else q.skipped })
  have seq : ((s.retire c u).core c).seq = { (s.core c).seq with
      wait := ((left.signalled c a.entry.bits).core c).seq.wait, retired := (s.core c).seq.retired + 1
      skipped := if a.null then satAdd (s.core c).seq.skipped 1 else (s.core c).seq.skipped } := by
    rw [ht, State.seq_modSeq, signalled.seq, State.seq_modQ]
  rw [← ht, List.append_nil] at keeps
  exact {
    active := by rw [keeps.active, unitQ]
    queue := by rw [keeps.queue, unitQ]
    retired := by rw [seq]
    skipped := by rw [seq]
    cnt := fun x hx => by
      rw [keeps.cnt x hx]
      exact counts_congr _ (by rw [cntAt, only.cnt, cntAt])
    bytes := fun b => (keeps.bytes b).trans (by rw [only.mem])
    others := fun d hd => (keeps.others d hd).trans (only.others d hd)
    die := by
      have last : s.retire c u = { left.signalled c a.entry.bits with cores := (s.retire c u).cores } := by rw [ht]; rfl
      rw [last, signalled.die, only.die] }

end

/-! ### The ends of FENCE and HALT (R187, R188) -/

/-- A completed descriptor of the sequencer's own, and the sequencer past it. -/
theorem State.finishOwn_pastNext (d : Desc) : let t := s.finishOwn c d
    KeepsQueues s t c (sigOps d ++ loopSig s c) ∧ Stepped s t c ∧ (t.core c).seq.fencing = (s.core c).seq.fencing
      ∧ (t.core c).seq.halting = (s.core c).seq.halting := by
  intro t
  have own := s.completeOwn_keepsQueues c d false
  have seq := s.completeOwn_seq c d false
  have past := (s.completeOwn c d false).advance_pastNext c
  have place : SamePlace (s.core c).seq ((s.completeOwn c d false).core c).seq := by
    refine ⟨⟨Loop.mask, ?_⟩, by rw [seq], by rw [seq], by rw [seq]⟩
    rw [seq]
    cases (s.core c).seq.loop <;> rfl
  refine ⟨?_, place.stepped past.stepped, ?_, ?_⟩
  · rw [← place.loopSig]
    exact own.trans past.keeps
  · exact (congrArg Sequencer.fencing past.seq).trans (by rw [seq])
  · exact (congrArg Sequencer.halting past.seq).trans (by rw [seq])

theorem unitsIdle_iff (k : Core) (mask : Nat) : k.unitsIdle mask = true
    ↔ ∀ n, n < 6 → bitOf mask n = true → ∀ u, unitOf n = some u → (k.unitQ u).queue = [] ∧ (k.unitQ u).active = [] := by
  have idle : ∀ n, (match unitOf n with | some u => (k.unitQ u).idle | none => true) = true
      ↔ ∀ u, unitOf n = some u → (k.unitQ u).queue = [] ∧ (k.unitQ u).active = [] := by
    intro n
    cases unitOf n <;> simp [UnitQ.idle]
  simp only [Core.unitsIdle, bitsSet, List.all_eq_true, List.mem_filter, List.mem_range, and_imp]
  exact forall_congr' fun n => imp_congr_right fun _ => imp_congr_right fun _ => idle n

/-- FENCE has to wait for its units. -/
theorem State.fenceStep_waits {f : Fencing} (h : (s.core c).unitsIdle (fUnits f.entry.bits) = false) : s.fenceStep c f = s := by
  simp [State.fenceStep, h]

/-- FENCE sends its marks, once. -/
theorem State.fenceStep_sends {f : Fencing} (h : (s.core c).unitsIdle (fUnits f.entry.bits) = true) (hremote : bitOf (fUnits f.entry.bits) 6 = true)
    (hmarks : f.marks = none) (hdests : (s.core c).mov.fenceDests ≠ []) : s.fenceStep c f =
      (s.modMov c fun m => { m with work := m.work ++ m.fenceDests.map (fenceItem f.entry.id f.entry.off), fenceDests := [] }).modSeq c fun q =>
        { q with fencing := some { f with marks := some (s.core c).mov.fenceDests.length } } := by
  simp [State.fenceStep, h, hremote, hmarks, hdests]

/-- FENCE ends where no mark is still to be sent or to come back. -/
theorem State.fenceStep_ends {f : Fencing} (h : (s.core c).unitsIdle (fUnits f.entry.bits) = true)
    (hends : (bitOf (fUnits f.entry.bits) 6 = false ∧ f.marks = none) ∨ (f.marks = none ∧ (s.core c).mov.fenceDests = []) ∨ f.marks = some 0) :
    s.fenceStep c f = (s.modSeq c fun q => { q with fencing := none }).finishOwn c f.entry.bits := by
  rcases hends with ⟨hremote, hmarks⟩ | ⟨hmarks, hdests⟩ | hmarks
  · simp [State.fenceStep, h, hremote, hmarks]
  · simp [State.fenceStep, h, hmarks, hdests]
  · simp [State.fenceStep, h, hmarks]

theorem State.retireSeq_fence {f : Fencing} (live : (s.core c).live = true) (running : (s.core c).seq.freeze = none)
    (hf : (s.core c).seq.fencing = some f) : s.retire c .seq = s.fenceStep c f := by
  simp [State.retire, State.retireSeq, live, running, hf]

theorem State.retireSeq_halt {en : QEntry} (live : (s.core c).live = true) (running : (s.core c).seq.freeze = none)
    (hf : (s.core c).seq.fencing = none) (hh : (s.core c).seq.halting = some en) : s.retire c .seq = s.haltStep c en := by
  simp [State.retire, State.retireSeq, live, running, hf, hh]

/-- The sequencer gives up what it was waiting on, and its descriptor completes. -/
theorem State.release_finishOwn {f : Sequencer → Sequencer} (d : Desc) (hplace : ∀ q, SamePlace q (f q)) : let t := (s.modSeq c f).finishOwn c d
    KeepsQueues s t c (sigOps d ++ loopSig s c) ∧ Stepped s t c ∧ (t.core c).seq.fencing = (f (s.core c).seq).fencing
      ∧ (t.core c).seq.halting = (f (s.core c).seq).halting := by
  intro t
  have place : SamePlace (s.core c).seq ((s.modSeq c f).core c).seq := by
    rw [State.seq_modSeq]
    exact hplace _
  obtain ⟨keeps, stepped, fencing, halting⟩ := (s.modSeq c f).finishOwn_pastNext c d
  rw [place.loopSig] at keeps
  rw [State.seq_modSeq] at fencing halting
  exact ⟨(s.modSeq_keepsQueues c f).trans keeps, place.stepped stepped, fencing, halting⟩

theorem SamePlace.of_eq {q r : Sequencer} (hl : r.loop = q.loop) (hs : r.segment = q.segment) (hh : r.head = q.head) (h2 : r.log2 = q.log2) :
    SamePlace q r :=
  ⟨⟨Loop.mask, by rw [hl]; cases q.loop <;> rfl⟩, hs, hh, h2⟩

end Sys2Proof.Machine

namespace Sys2Proof.Claims

open Sys2Proof.Machine

/-- O17 (b): a unit's oldest started descriptor, the FENCE and the HALT in progress. -/
theorem descriptorsRetireInQueueOrder : DescriptorsRetireInQueueOrder := by
  intro s c hp
  refine ⟨fun u a r hu ha => ⟨fun hopen => ?_, fun hdone => ?_⟩, fun live running => ?_⟩
  · rw [exec_descriptorRetire s c u hp, State.retire_open hu ha hopen]
  · have done := State.retire_done hu ha hdone
    exact ⟨_, exec_descriptorRetire s c u hp, done.active, done.queue, done.retired, done.skipped, done.cnt, done.bytes, done.others, done.die⟩
  intro q free
  refine ⟨fun f hf => ?_, fun en hfence hhalt => ?_⟩
  · have step : exec (.descriptorRetire c .seq) s = .next (s.fenceStep c f) := by
      rw [exec_descriptorRetire s c .seq hp, s.retireSeq_fence c live running hf]
    intro units
    have idle : free units ↔ (s.core c).unitsIdle units = true := (unitsIdle_iff _ _).symm
    refine ⟨fun busy => ?_, fun hfree hremote hmarks hdests => ?_, fun hfree hends => ?_⟩
    · rw [step, s.fenceStep_waits c (Bool.eq_false_iff.mpr fun h => busy (idle.mpr h))]
    · rw [s.fenceStep_sends c (idle.mp hfree) hremote hmarks hdests] at step
      refine ⟨_, step, ⟨rfl, ?_⟩, ?_, ?_, (s.core c).mov.fenceDests.map (fenceItem f.entry.id f.entry.off), ?_, ?_⟩
      · exact fun d hd => (State.core_modCore_other _ c d _ hd).trans (s.core_modCore_other c d _ hd)
      · rw [State.seq_modSeq]
      · simp
      · simp
      · simp [fenceItem]
    · rw [s.fenceStep_ends c (idle.mp hfree) hends] at step
      obtain ⟨keeps, stepped, fencing, -⟩ := s.release_finishOwn c (f := fun q => { q with fencing := none }) f.entry.bits fun _ => .of_eq rfl rfl rfl rfl
      exact ⟨_, step, fencing, stepped, keeps.cnt, keeps.bytes, keeps.others⟩
  · have step : exec (.descriptorRetire c .seq) s = .next (s.haltStep c en) := by
      rw [exec_descriptorRetire s c .seq hp, s.retireSeq_halt c live running hfence hhalt]
    have idle : free 0x3F ↔ (s.core c).unitsIdle 0x3F = true := (unitsIdle_iff _ _).symm
    refine ⟨fun busy => ?_, fun hfree => ?_⟩
    · rw [step, State.haltStep, if_neg fun h => busy (idle.mpr h)]
    · rw [State.haltStep, if_pos (idle.mp hfree)] at step
      obtain ⟨keeps, stepped, -, halting⟩ := s.release_finishOwn c (f := fun q => { q with halting := none }) en.bits fun _ => .of_eq rfl rfl rfl rfl
      let t := (s.modSeq c fun q => { q with halting := none }).finishOwn c en.bits
      have keeps := keeps.trans (t.modSeq_keepsQueues c fun q => { q with halted := true })
      rw [List.append_nil] at keeps
      have seq := t.seq_modSeq c fun q => { q with halted := true }
      refine ⟨_, step, ?_, ?_, ?_, keeps.cnt, keeps.bytes, keeps.others⟩
      · rw [seq, halting]
      · rw [seq]
      · simpa only [Stepped, State.seq_modSeq] using stepped

end Sys2Proof.Claims

open Sys2Proof.Claims

/-- Settles O17: the starts of `queueHeadsStartInOrder` with the retirements of `descriptorsRetireInQueueOrder`. -/
theorem queueHeadsStartAndRetire : Obligations.QueueHeadsStartAndRetire := ⟨queueHeadsStartInOrder, descriptorsRetireInQueueOrder⟩

end

/-! ## A unit's reads of its Cupola and its stores of marked bytes, by the byte (R22, R236, R446) -/

section

namespace Sys2Proof.Machine

open Sys2Proof.Claims

variable (s : State) (c : CoreId)

/-! ### Bytes in lists -/

theorem bytesOf_length (bs : Marked) : (bytesOf bs).length = bs.length := List.length_map _

theorem bytesOf_append (xs ys : Marked) : bytesOf (xs ++ ys) = bytesOf xs ++ bytesOf ys := List.map_append

theorem bytesOf_flatMap {α : Type} (l : List α) (f : α → Marked) : bytesOf (l.flatMap f) = l.flatMap fun x => bytesOf (f x) := List.map_flatMap

theorem bytesOf_spell (size : Nat) (xs : List (Nat × Bool)) : bytesOf (spell size xs) = xs.flatMap fun x => leBytes x.1 size := by
  simp [spell, bytesOf, List.map_flatMap, Function.comp_def]

theorem leNat_lt (bs : List Byte) : leNat bs < 256 ^ bs.length := by
  induction bs with
  | nil => exact Nat.one_pos
  | cons b bs ih =>
    have := b.isLt
    rw [leNat, List.length_cons, Nat.pow_succ]
    omega

/-- Piece `k` of equal pieces laid one after another. -/
theorem drop_take_flatMap {α : Type} {f : Nat → List α} {m n k : Nat} (hf : ∀ i, (f i).length = m) (hk : k < n) :
    (((List.range n).flatMap f).drop (m * k)).take m = f k := by
  have before : ∀ i, ((List.range i).flatMap f).length = m * i := fun i => by simp [hf, Nat.mul_comm]
  obtain ⟨r, rfl⟩ : ∃ r, n = k + (r + 1) := ⟨n - k - 1, by omega⟩
  rw [List.range_add, List.flatMap_append, ← before k, List.drop_left, List.range_succ_eq_map, List.map_cons, List.flatMap_cons, Nat.add_zero, ← hf k,
    List.take_left]

/-- A list cut into pieces, by the number of the piece. -/
theorem chunksOf_eq {α : Type} (n k : Nat) (l : List α) : chunksOf n k l = (List.range k).map fun i => (l.drop (n * i)).take n := by
  induction k generalizing l with
  | zero => rfl
  | succ k ih =>
    rw [chunksOf, ih, List.range_succ_eq_map, List.map_cons, List.map_map]
    congr 1
    refine List.map_congr_left fun i _ => ?_
    simp [List.drop_drop, Nat.mul_succ, Nat.add_comm]

/-- A range cut out of a range. -/
theorem map_range_drop_take {α : Type} (f : Nat → α) {n a m : Nat} (h : a + m ≤ n) :
    (((List.range n).map f).drop a).take m = (List.range m).map fun i => f (a + i) := by
  apply List.ext_getElem
  · simp; omega
  · intro i _ _
    simp

/-- The elements of marked data, by their number. -/
theorem elements_eq (size count : Nat) (bs : Marked) : (elements size count bs).map (·.1)
    = (List.range count).map fun j => leNat (((bytesOf bs).drop (size * j)).take size) := by
  simp [elements, chunksOf_eq, bytesOf, List.map_take, List.map_drop, Function.comp_def]

/-! ### Reads -/

theorem State.readP_reads (a n : Nat) : Reads s (s.readP a n).1 := s.demand_reads a n

theorem State.readP_bytes (a n : Nat) : bytesOf (s.readP a n).2 = s.mem.load a n := by
  have marks : ∀ m : Memory, bytesOf (m.loadP a n) = m.load a n := fun m => by
    simp [bytesOf, Memory.loadP, Function.comp_def]
  rw [State.readP, marks]
  exact (s.demand_reads a n).load a n

/-- Byte `o` of core `c`'s Cupola as its units read it. -/
def cupByte (s : State) (c : CoreId) (o : Nat) : Byte := if o < cupolaEnd then s.mem.byteAt (coreBase c + o) else 0

theorem cupNum_eq (off n : Nat) : cupNum s c off n = leNat ((List.range n).map fun b => cupByte s c (off + b)) := by
  simp only [cupNum, cupByte, Nat.add_assoc]
  rfl

theorem cupNum_one (off : Nat) : cupNum s c off 1 = (cupByte s c off).toNat := by
  rw [cupNum_eq]
  rfl

section

variable {s c}

theorem Reads.cupByte {t : State} (h : Reads s t) (o : Nat) : cupByte t c o = cupByte s c o := by
  rw [Machine.cupByte, h.byteAt, Machine.cupByte]

theorem State.cupRead_bytes (h : s.mem.wf = true) (off n : Nat) :
    bytesOf (s.cupRead c off n).2 = (List.range n).map fun b => cupByte s c (off + b) := by
  have split : bytesOf (s.cupRead c off n).2
      = s.mem.load (coreBase c + off) (min n (cupolaEnd - off)) ++ List.replicate (n - min n (cupolaEnd - off)) 0 := by
    rw [State.cupRead, bytesOf_append, State.readP_bytes, bytesOf, List.map_replicate]
  rw [split, Memory.load_eq _ h]
  apply List.ext_getElem
  · simp
  · intro i _ _
    simp only [List.getElem_append, List.length_map, List.length_range, List.getElem_map, List.getElem_range, List.getElem_replicate, Machine.cupByte,
      Nat.add_assoc, dite_eq_ite]
    have : i < min n (cupolaEnd - off) ↔ off + i < cupolaEnd := by simp_all; omega
    simp only [this]

theorem State.readRows_append (rows : List (Nat × Nat)) (r : Nat × Nat) : let y := s.readRows c rows
    let x := y.1.cupRead c r.1 r.2
    s.readRows c (rows ++ [r]) = (x.1, y.2.1 ++ [x.2], y.2.2 ++ (if r.2 = 0 then [] else (pastEnd r.1 r.2).toList)) := by
  simp only [State.readRows, List.foldl_append, List.foldl_cons, List.foldl_nil]

/-- Rows of Cupola read in turn. -/
theorem State.readRows_reads (rows : List (Nat × Nat)) : Reads s (s.readRows c rows).1 := by
  induction rows using List.reverseRecOn with
  | nil => exact .refl s
  | append_singleton rows r ih =>
    rw [State.readRows_append]
    exact ih.trans (State.cupRead_reads _ c _ _)

theorem State.readRows_bytes (h : s.mem.wf = true) (rows : List (Nat × Nat)) :
    (s.readRows c rows).2.1.map bytesOf = rows.map fun r => (List.range r.2).map fun b => Machine.cupByte s c (r.1 + b) := by
  induction rows using List.reverseRecOn with
  | nil => rfl
  | append_singleton rows r ih =>
    have before : Reads s (s.readRows c rows).1 := State.readRows_reads rows
    rw [State.readRows_append]
    simp only [List.map_append, ih, List.map_cons, List.map_nil, State.cupRead_bytes (before.wf h), before.cupByte]

/-! ### Stores -/

/-- Bytes `bs` have been stored from `a`: no other byte differs, and of the rest of the die the Belfry alone may (R236). -/
structure Stored (s t : State) (a : Nat) (bs : List Byte) : Prop where
  die : t = { s with mem := t.mem, blf := t.blf }
  wf : t.mem.wf = true
  byteAt : ∀ b, t.mem.byteAt b = if a ≤ b ∧ b < a + bs.length then bs.getD (b - a) 0 else s.mem.byteAt b

theorem State.rmw_reads (a n : Nat) : Reads s (s.rmw a n) := by
  unfold State.rmw
  split
  · exact .refl s
  · extract_lets t
    have first : Reads s t := by
      simp only [t]
      split
      · exact s.demand_reads a 1
      · exact .refl s
    split
    · exact first.trans (t.demand_reads _ _)
    · exact first

theorem State.storeP_stored (h : s.mem.wf = true) (a : Nat) (bs : Marked) : Stored s (s.storeP a bs) a (bytesOf bs) := by
  have before : Reads s (s.rmw a bs.length) := State.rmw_reads a bs.length
  obtain ⟨f, hf⟩ : ∃ f, s.storeP a bs = (s.rmw a bs.length).store a (bytesOf bs) f := by
    unfold State.storeP
    dsimp only
    split <;> exact ⟨_, rfl⟩
  rw [hf]
  exact {
    die := by rw [State.store, before.die]; rfl
    wf := State.store_wf _ a _ f (before.wf h)
    byteAt := fun b => by rw [State.store_byteAt _ a _ f (before.wf h), before.byteAt] }

section

variable {t : State} {a : Nat} {bs : List Byte} (h : Stored s t a bs)
include h

theorem Stored.core_eq (d : CoreId) : t.core d = s.core d := by rw [h.die]; rfl

theorem Stored.outside {b : Nat} (hb : b < a ∨ a + bs.length ≤ b) : t.mem.byteAt b = s.mem.byteAt b := by
  rw [h.byteAt, if_neg (by omega)]

theorem Stored.inside {i : Nat} (hi : i < bs.length) : t.mem.byteAt (a + i) = bs[i] := by
  rw [h.byteAt, if_pos (by omega), Nat.add_sub_cancel_left, List.getD_eq_getElem _ _ hi]

theorem Stored.load : t.mem.load a bs.length = bs := by
  rw [Memory.load_eq _ h.wf]
  apply List.ext_getElem
  · simp
  · intro i _ hi
    simp [h.inside hi]

end

end

end Sys2Proof.Machine

end

/-! ## LOADB_STAGING: the tile as its bytes stand in the Lantern (R37, R38, R130 to R132) -/

section

namespace Sys2Proof.Machine

open Sys2Proof.Claims

/-! ### What staging reads and what it writes -/

/-- The index area of a 2:4 tile, as it is read. -/
def idxRows (d : Desc) : List (Nat × Nat) := if lGeom d = 1 then [(lIdx d, 256)] else []

/-- The rows of a LOADB's values, in bytes. -/
def valRows (d : Desc) : List (Nat × Nat) := (loadbRows d).map fun x => (x.1, x.2 * ((fmtOf (lFmt d)).getD .fp16).size)

/-- Blocks of K with a scale of their own. -/
def kBlocks (d : Desc) : Nat := (lK d + blockLen (lMode d) - 1) / blockLen (lMode d)

/-- The rows of a LOADB's scales. -/
def sclRows (d : Desc) : List (Nat × Nat) := if lMode d = 0 then [] else (List.range (kBlocks d)).map fun b => (lScale d + b * 32, lN d)

/-- Stored row `r` of the tile, widened and filled beyond its extents, from the bytes read for it. -/
def stagedRow (d : Desc) (idx : Marked) (r : Nat) (row : Marked) : List (Nat × Bool) :=
  (elements ((fmtOf (lFmt d)).getD .fp16).size (geomN (lGeom d)) row).zipIdx.map fun v =>
    if v.2 < lN d ∧ storedK (lGeom d) (bytesOf idx) r v.2 < lK d
      then (if lGeom d = 2 then v.1.1 else widen16 ((fmtOf (lFmt d)).getD .fp16) v.1.1, v.1.2) else (0, v.1.2)

/-- The tile's values as the B-stage takes them. -/
def stagedBytes (d : Desc) (idx : Marked) (vals : List Marked) : Marked :=
  (vals.zipIdx.map fun x => stagedRow d idx x.2 x.1).flatMap fun row =>
    spell (geomFmt (lGeom d)).size row ++ List.replicate (64 - (geomFmt (lGeom d)).size * geomN (lGeom d)) (0, false)

/-- The tile's scales as the B-stage takes them. -/
def stagedScales (d : Desc) (scl : List Marked) : Marked :=
  if lMode d = 0 then List.replicate 32 (0x7F, false) else scl.flatMap fun row => row ++ List.replicate (32 - lN d) (0x7F, false)

/-- The elements of a staged LOADB. -/
def stagedEls (en : QEntry) (idx bytes scales : Marked) : Array (Array El) :=
  tileElems (lGeom en.bits) (lMode en.bits) en.subn (lK en.bits) (lN en.bits) (bytesOf bytes) (bytesOf idx) (bytesOf scales)

/-- The record of a staged tile. -/
def stagedTile (en : QEntry) (area : Option (Fin 4)) (idx bytes scales : Marked) : Tile :=
  let t := stagedEls en idx bytes scales
  { geom := BitVec.ofNat 2 (lGeom en.bits), scaleMode := BitVec.ofNat 2 (lMode en.bits), subn := en.subn
    colMax := (List.range (geomN (lGeom en.bits))).map fun j => maxExps ((List.range 32).map fun r => elAt t r j)
    rowMax := t.toList.map fun r => maxExps r.toList
    zeroMap := BitVec.ofNat 64 (zeroBlocks (lGeom en.bits) t), flushed := t.toList.any fun r => r.toList.any (·.flushed)
    poisoned := bytes.any (·.2) || scales.any (·.2) || idx.any (·.2), area := area, k := lK en.bits, n := lN en.bits, installed := false }

variable (s : State) (c : CoreId) (e : EngId)

/-- The tile's bytes are stored in the Lantern. -/
def State.storeTile (s : State) (c : CoreId) (e : EngId) (slot : Fin 16) (area : Option (Fin 4)) (idx bytes scales : Marked) : State :=
  let s := (s.storeP (slotBase c e slot) bytes).storeP (scaleBase c e slot) scales
  match area with
  | some a => s.storeP (areaBase c e a) idx
  | none => s

theorem State.stageInto_eq (en : QEntry) (slot : Fin 16) (area : Option (Fin 4)) : s.stageInto c e en slot area =
    let i := s.readRows c (idxRows en.bits)
    let v := i.1.readRows c (valRows en.bits)
    let w := v.1.readRows c (sclRows en.bits)
    let idx := i.2.1.flatten
    let bytes := stagedBytes en.bits idx v.2.1
    let scales := stagedScales en.bits w.2.1
    ((w.1.storeTile c e slot area idx bytes scales).logBounds c (.eng e) false (i.2.2 ++ v.2.2 ++ w.2.2)).modEng c e fun x =>
      { x with slots := upd x.slots slot fun _ => some (stagedTile en area idx bytes scales), q := x.q.mark en.id (.staged slot), stageWait := none } := by
  unfold State.stageInto
  obtain ⟨i, hi⟩ : ∃ i, i = s.readRows c (idxRows en.bits) := ⟨_, rfl⟩
  obtain ⟨v, hv⟩ : ∃ v, v = i.1.readRows c (valRows en.bits) := ⟨_, rfl⟩
  obtain ⟨w, hw⟩ : ∃ w, w = v.1.readRows c (sclRows en.bits) := ⟨_, rfl⟩
  simp only [idxRows, valRows, kBlocks, sclRows] at hi hv hw ⊢
  simp only [← hi, ← hv, ← hw]
  rfl

/-! ### The formats of a LOADB -/

theorem size_fmtOf (code : Nat) : ((fmtOf code).getD .fp16).size = esize code := by
  unfold fmtOf esize
  split <;> simp_all [Fmt.size]

/-- Bytes of an element that the B-stage holds: a row fills its 64 bytes. -/
theorem size_geomFmt (g : Nat) : (geomFmt g).size * geomN g = 64 := by
  unfold geomFmt geomN
  split_ifs <;> rfl

theorem size_geomFmt_esize (g : Nat) : (geomFmt g).size = esize (if g = 2 then 0 else 1) := by
  unfold geomFmt
  split_ifs <;> rfl

/-- An element as its geometry holds it. -/
theorem held_eq {g code : Nat} (h : fmtFits g code = true) (b : Nat) : (if g = 2 then b else widen16 ((fmtOf code).getD .fp16) b) = held code b := by
  unfold fmtFits at h
  unfold held
  split_ifs at h with hg
  · simp_all
  · have : code ≠ 0 := by rintro rfl; simp at h
    simp [hg, this]

theorem widen16_lt_of_e4m3 : ∀ b, b < 256 → widen16 .e4m3 b < 65536 := by decide +kernel

/-- A widened element fits the bytes its geometry gives it. -/
theorem held_lt {g code b : Nat} (h : fmtFits g code = true) (hb : b < 256 ^ esize code) : held code b < 256 ^ (geomFmt g).size := by
  unfold fmtFits at h
  unfold held geomFmt
  split_ifs at h with hg
  · simp_all [esize, Fmt.size]
  · have codes : code = 1 ∨ code = 2 ∨ code = 3 := by simpa [or_assoc] using h
    rw [if_neg hg]
    rcases codes with rfl | rfl | rfl
    · exact hb
    · exact widen16_lt_of_e4m3 b (by simpa [esize] using hb)
    · simp [esize] at hb
      simp [fmtOf, widen16, Fmt.size]
      omega

/-! ### A LOADB that is not refused -/

/-- The extents and formats that Tables ENG-7 and TIL-16 ask of a LOADB. -/
structure LoadbGood (d : Desc) : Prop where
  geom : lGeom d < 3
  fits : fmtFits (lGeom d) (lFmt d) = true
  mode : lMode d < 3
  k : lK d ≤ geomK (lGeom d)
  n : lN d ≤ geomN (lGeom d)

theorem loadbGood {d : Desc} (h : loadbBad d = false) : LoadbGood d := by
  have geom : lGeom d < 2 ^ 2 := field_lt _ _ _
  have mode : lMode d < 2 ^ 2 := field_lt _ _ _
  simp only [loadbBad, Bool.or_eq_false_iff, beq_eq_false_iff_ne, Bool.not_eq_false', decide_eq_false_iff_not] at h
  obtain ⟨⟨⟨⟨⟨⟨⟨⟨⟨⟨⟨hg, hf⟩, hm⟩, -⟩, hk⟩, -⟩, hn⟩, -⟩, -⟩, -⟩, -⟩, -⟩ := h
  exact ⟨by omega, hf, by omega, by omega, by omega⟩

theorem geomN_le (g : Nat) : geomN g ≤ 32 := by
  unfold geomN
  split_ifs <;> decide

section

variable {s c} {d : Desc} (good : LoadbGood d)
include good

/-- The scales fill the space of one slot, or of two for a 2:4 tile (R52). -/
theorem LoadbGood.kBlocks_le : 32 * kBlocks d ≤ if lGeom d = 1 then 128 else 64 := by
  have k := good.k
  unfold kBlocks blockLen
  unfold geomK at k
  split_ifs at k ⊢ <;> omega

/-! ### The tile by rows and columns -/

/-- Row `r` of the values, from the bytes read: each element as `held` gives it. -/
theorem LoadbGood.stagedRow_nums (idx : Marked) (r : Nat) (row : Marked) : (stagedRow d idx r row).map (·.1) = (List.range (geomN (lGeom d))).map fun j =>
    if j < lN d ∧ storedK (lGeom d) (bytesOf idx) r j < lK d then held (lFmt d) (leNat (((bytesOf row).drop (esize (lFmt d) * j)).take (esize (lFmt d))))
    else 0 := by
  have els := elements_eq (esize (lFmt d)) (geomN (lGeom d)) row
  have len : (elements (esize (lFmt d)) (geomN (lGeom d)) row).length = geomN (lGeom d) := by simpa using congrArg List.length els
  unfold stagedRow
  rw [size_fmtOf]
  apply List.ext_getElem
  · simp [len]
  · intro j hj _
    have el : ((elements (esize (lFmt d)) (geomN (lGeom d)) row)[j]'(by simpa using hj)).1
        = leNat (((bytesOf row).drop (esize (lFmt d) * j)).take (esize (lFmt d))) := by
      have := List.getElem_of_eq els (i := j) (by simpa using hj)
      simpa using this
    simp only [List.getElem_map, List.getElem_zipIdx, Nat.zero_add, List.getElem_range, apply_ite Prod.fst, el, held_eq good.fits]

end

/-- The bytes of stored row `r` of a LOADB's tile. -/
def tileRow (s : State) (c : CoreId) (d : Desc) (r : Nat) : List Byte :=
  (List.range (geomN (lGeom d))).flatMap fun j => leBytes (tileNum s c d r j) (geomFmt (lGeom d)).size

theorem length_tileRow (d : Desc) (r : Nat) : (tileRow s c d r).length = 64 := by
  simp [tileRow, ← size_geomFmt (lGeom d), Nat.mul_comm]

/-- The scales of block `b` of a LOADB's tile. -/
def scaleRow (s : State) (c : CoreId) (d : Desc) (b : Nat) : List Byte :=
  ((List.range (lN d)).map fun j => cupByte s c (lScale d + b * 32 + j)) ++ List.replicate (32 - lN d) 0x7F

theorem LoadbGood.length_scaleRow {d : Desc} (good : LoadbGood d) (b : Nat) : (scaleRow s c d b).length = 32 := by
  have n : lN d ≤ 32 := good.n.trans (geomN_le _)
  simp [scaleRow, Nat.add_sub_cancel' n]

/-- What has been read for a LOADB: the bytes of the Cupola at its index area, its values and its scales. -/
structure LoadbRead (s : State) (c : CoreId) (d : Desc) (idx : Marked) (vals scl : List Marked) : Prop where
  idx : bytesOf idx = if lGeom d = 1 then (List.range 256).map fun b => cupByte s c (lIdx d + b) else []
  vals : vals.map bytesOf = (valRows d).map fun r => (List.range r.2).map fun b => cupByte s c (r.1 + b)
  scl : scl.map bytesOf = (sclRows d).map fun r => (List.range r.2).map fun b => cupByte s c (r.1 + b)

section

variable {s c} {d : Desc} {idx : Marked} {vals scl : List Marked} (read : LoadbRead s c d idx vals scl)
include read

theorem LoadbRead.storedK_eq {r j : Nat} (hr : r < 32) (hj : j < 32) : storedK (lGeom d) (bytesOf idx) r j = servedK s c d r j := by
  unfold storedK servedK
  split
  case isFalse => rfl
  case isTrue hg =>
    have byte : ((bytesOf idx)[r / 2 * 16 + j / 2]?).getD 0 = cupByte s c (lIdx d + (r / 2 * 16 + j / 2)) := by
      rw [read.idx, if_pos hg, List.getElem?_map, List.getElem?_range (by omega)]
      rfl
    simp only [indexPair, byte, cupNum_one, ← Nat.add_assoc, field, Nat.shiftRight_eq_div_pow]
    obtain ⟨b, hb, small⟩ : ∃ b, (cupByte s c (lIdx d + r / 2 * 16 + j / 2)).toNat = b ∧ b < 256 := ⟨_, rfl, BitVec.isLt _⟩
    rw [hb]
    rcases Nat.mod_two_eq_zero_or_one j with hj | hj <;> rcases Nat.mod_two_eq_zero_or_one r with hr | hr <;> simp [hj, hr] <;> omega

theorem LoadbRead.length_vals : vals.length = 32 := by
  simpa [valRows, loadbRows] using congrArg List.length read.vals

/-- A stored row with an element inside the extents is read whole, from the start of its row. -/
theorem LoadbRead.row_bytes {r j : Nat} (hk : servedK s c d r j < lK d) (h : r < vals.length) : bytesOf vals[r]
    = (List.range (lN d * esize (lFmt d))).map fun b =>
        cupByte s c ((if lGeom d = 1 then lVal d + r * 32 * esize (lFmt d) else lVal d + r * lPitch d) + b) := by
  have row := List.getElem_of_eq read.vals (i := r) (by simpa using h)
  have served : servedK s c d r j = if lGeom d = 1 then servedK s c d r j else r := by
    unfold servedK
    split_ifs <;> rfl
  have first : lGeom d = 1 → 4 * (r / 2) < lK d := fun hg => by
    unfold servedK at hk
    rw [if_pos hg] at hk
    dsimp only at hk
    omega
  simp only [List.getElem_map, valRows, loadbRows, size_fmtOf, List.getElem_range] at row
  rw [row]
  by_cases hg : lGeom d = 1
  · simp only [hg, if_true, first hg]
  · rw [if_neg hg] at served
    rw [served] at hk
    simp only [hg, if_false, hk, if_true]

variable (good : LoadbGood d)
include good

/-- Stored row `r`: the elements of the LOADB's tile. -/
theorem LoadbRead.row {r : Nat} (hr : r < 32) (h : r < vals.length) :
    (stagedRow d idx r vals[r]).map (·.1) = (List.range (geomN (lGeom d))).map fun j => tileNum s c d r j := by
  rw [good.stagedRow_nums]
  refine List.map_congr_left fun j hj => ?_
  have hj : j < 32 := (List.mem_range.mp hj).trans_le (geomN_le _)
  unfold tileNum
  rw [read.storedK_eq hr hj]
  dsimp only
  by_cases inside : j < lN d ∧ servedK s c d r j < lK d
  · obtain ⟨hn, hk⟩ := inside
    have room : esize (lFmt d) * j + esize (lFmt d) ≤ lN d * esize (lFmt d) := by
      rw [Nat.mul_comm (lN d), ← Nat.mul_succ]
      exact Nat.mul_le_mul_left _ hn
    rw [if_pos ⟨hn, hk⟩, if_pos ⟨hn, hk⟩, read.row_bytes hk h, map_range_drop_take _ room, cupNum_eq]
    simp only [Nat.add_assoc, Nat.mul_comm j]
  · rw [if_neg inside, if_neg inside]

/-- The values that the B-stage takes: 32 rows of 64 bytes, each element in its place. -/
theorem LoadbRead.bytes : bytesOf (stagedBytes d idx vals) = (List.range 32).flatMap (tileRow s c d) := by
  have rows : (vals.zipIdx.map fun x => (stagedRow d idx x.2 x.1).map (·.1))
      = (List.range 32).map fun r => (List.range (geomN (lGeom d))).map fun j => tileNum s c d r j := by
    apply List.ext_getElem
    · simp [read.length_vals]
    · intro r hr hr'
      have hr' : r < 32 := by simpa using hr'
      simp only [List.getElem_map, List.getElem_zipIdx, Nat.zero_add, List.getElem_range]
      exact read.row good hr' _
  have spelled : ∀ row : List (Nat × Bool), bytesOf (spell (geomFmt (lGeom d)).size row)
      = (row.map (·.1)).flatMap fun x => leBytes x (geomFmt (lGeom d)).size := fun row => by
    rw [bytesOf_spell, List.flatMap_map]
  simp only [stagedBytes, size_geomFmt, Nat.sub_self, List.replicate_zero, List.append_nil, bytesOf_flatMap, spelled]
  rw [← List.flatMap_map (f := fun row : List (Nat × Bool) => row.map (·.1)) (g := fun xs => xs.flatMap fun x => leBytes x (geomFmt (lGeom d)).size), List.map_map]
  simp only [Function.comp_def, rows, List.flatMap_map]
  rfl

omit read in
theorem LoadbGood.tileNum_lt (r j : Nat) : tileNum s c d r j < 256 ^ (geomFmt (lGeom d)).size := by
  unfold tileNum
  extract_lets es row
  split
  · refine held_lt good.fits ?_
    rw [cupNum_eq]
    simpa using leNat_lt ((List.range es).map fun b => cupByte s c (row + j * es + b))
  · exact Nat.pos_of_neZero _

omit good in
/-- The scales that stand with the tile, block by block. -/
theorem LoadbRead.scales (hmode : lMode d ≠ 0) : bytesOf (stagedScales d scl) = (List.range (kBlocks d)).flatMap (scaleRow s c d) := by
  have rows := read.scl
  rw [sclRows, if_neg hmode, List.map_map] at rows
  have padded : ∀ row : Marked, bytesOf (row ++ List.replicate (32 - lN d) (0x7F, false)) = bytesOf row ++ List.replicate (32 - lN d) 0x7F := fun row => by
    rw [bytesOf_append, bytesOf, bytesOf, List.map_replicate]
  rw [stagedScales, if_neg hmode, bytesOf_flatMap]
  simp only [padded]
  rw [← List.flatMap_map (f := bytesOf) (g := fun bs => bs ++ List.replicate (32 - lN d) 0x7F), rows, List.flatMap_map]
  rfl

theorem LoadbRead.length_bytes : (bytesOf (stagedBytes d idx vals)).length = 2048 := by
  rw [read.bytes good]
  simp [length_tileRow]

theorem LoadbRead.length_scales : (bytesOf (stagedScales d scl)).length = if lMode d = 0 then 32 else 32 * kBlocks d := by
  split
  case isTrue hmode => simp [stagedScales, hmode, bytesOf]
  case isFalse hmode =>
    rw [read.scales hmode]
    simp [good.length_scaleRow, Nat.mul_comm]

/-- Scale `j` of block `b`. -/
theorem LoadbRead.scale_at (hmode : lMode d ≠ 0) {b j : Nat} (hb : b < kBlocks d) (hj : j < lN d) :
    (bytesOf (stagedScales d scl))[32 * b + j]? = some (cupByte s c (lScale d + 32 * b + j)) := by
  have n : lN d ≤ 32 := good.n.trans (geomN_le _)
  have block := drop_take_flatMap (good.length_scaleRow s c) hb
  rw [← read.scales hmode] at block
  have entry := congrArg (·[j]?) block
  rw [List.getElem?_take_of_lt (by omega), List.getElem?_drop] at entry
  rw [entry, scaleRow, List.getElem?_append_left (by simpa using hj)]
  simp [hj, Nat.mul_comm]

/-- Element (r, j) among the values' bytes. -/
theorem LoadbRead.bytes_at {r j : Nat} (hr : r < 32) (hj : j < geomN (lGeom d)) :
    ((bytesOf (stagedBytes d idx vals)).drop (64 * r + (geomFmt (lGeom d)).size * j)).take (geomFmt (lGeom d)).size
      = leBytes (tileNum s c d r j) (geomFmt (lGeom d)).size := by
  have size := size_geomFmt (lGeom d)
  have row := drop_take_flatMap (length_tileRow s c d) hr
  have el := drop_take_flatMap (fun j => length_leBytes (tileNum s c d r j) (geomFmt (lGeom d)).size) hj
  have room : (geomFmt (lGeom d)).size * j + (geomFmt (lGeom d)).size ≤ 64 := by
    rw [← size, ← Nat.mul_succ]
    exact Nat.mul_le_mul_left _ hj
  rw [← read.bytes good] at row
  rw [← tileRow] at el
  rw [← el, ← row, List.drop_take, List.take_take, List.drop_drop, Nat.min_eq_left (by omega)]

end

/-! ### The tile as it stands in the Lantern -/

/-- The bytes of a tile stand in slot `slot` of engine `e` and, for a 2:4 tile, in index area `area`; nothing else of the SRAM differs. -/
structure TileStored (s t : State) (c : CoreId) (e : EngId) (slot : Fin 16) (area : Option (Fin 4)) (idx bytes scales : List Byte) : Prop where
  die : t = { s with mem := t.mem, blf := t.blf }
  wf : t.mem.wf = true
  values : t.mem.load (slotBase c e slot) bytes.length = bytes
  scales : t.mem.load (scaleBase c e slot) scales.length = scales
  index : ∀ a, area = some a → t.mem.load (areaBase c e a) idx.length = idx
  frame : ∀ b, b < lanternBase c e + 0x10000 ∨ lanternBase c e + 0x19000 ≤ b → t.mem.byteAt b = s.mem.byteAt b

theorem Stored.load_outside {s t : State} {a : Nat} {bs : List Byte} (h : Stored s t a bs) (hs : s.mem.wf = true) {x n : Nat}
    (hx : x + n ≤ a ∨ a + bs.length ≤ x) : t.mem.load x n = s.mem.load x n := by
  rw [Memory.load_eq _ h.wf, Memory.load_eq _ hs]
  exact List.map_congr_left fun i hi => h.outside (by have := List.mem_range.mp hi; omega)

section

variable {s} {slot : Fin 16} {area : Option (Fin 4)} {idx bytes scales : Marked}

theorem State.storeTile_stored (h : s.mem.wf = true) (hb : bytes.length = 2048) (hs : 64 * slot.val + scales.length ≤ 1024) (hi : idx.length ≤ 256) :
    TileStored s (s.storeTile c e slot area idx bytes scales) c e slot area (bytesOf idx) (bytesOf bytes) (bytesOf scales) := by
  have slot16 := slot.isLt
  have first := State.storeP_stored h (slotBase c e slot) bytes
  have second := State.storeP_stored first.wf (scaleBase c e slot) scales
  have both : TileStored s ((s.storeP (slotBase c e slot) bytes).storeP (scaleBase c e slot) scales) c e slot none (bytesOf idx) (bytesOf bytes)
      (bytesOf scales) := {
    die := by rw [second.die, first.die]
    wf := second.wf
    values := by
      rw [second.load_outside first.wf (by simp only [slotBase, scaleBase, bytesOf_length, hb]; omega)]
      exact first.load
    scales := second.load
    index := fun a ha => nomatch ha
    frame := fun b hb' => by
      rw [second.outside (by simp only [scaleBase, bytesOf_length]; omega), first.outside (by simp only [slotBase, bytesOf_length, hb]; omega)] }
  cases area with
  | none => exact both
  | some a =>
    have a4 := a.isLt
    have third := State.storeP_stored both.wf (areaBase c e a) idx
    exact {
      die := by rw [State.storeTile, third.die, both.die]
      wf := third.wf
      values := by
        rw [State.storeTile, third.load_outside both.wf (by simp only [slotBase, areaBase, bytesOf_length, hb]; omega)]
        exact both.values
      scales := by
        rw [State.storeTile, third.load_outside both.wf (by simp only [scaleBase, areaBase, bytesOf_length]; omega)]
        exact both.scales
      index := fun x hx => by
        obtain rfl : a = x := Option.some.inj hx
        exact third.load
      frame := fun b hb' => by
        rw [State.storeTile, third.outside (by simp only [areaBase, bytesOf_length]; omega), both.frame b hb'] }

end

/-! ### The staged elements -/

theorem Memory.load_getElem? {m : Memory} (h : m.wf = true) (a : Nat) {n i : Nat} (hi : i < n) : (m.load a n)[i]? = some (m.byteAt (a + i)) := by
  rw [Memory.load_eq m h, List.getElem?_map, List.getElem?_range hi, Option.map_some]

theorem numberAt_eq_load {t : State} (h : t.mem.wf = true) (a : Nat) {k n N : Nat} (hN : k + n ≤ N) :
    numberAt t (a + k) n = leNat (((t.mem.load a N).drop k).take n) := by
  rw [Memory.load_eq _ h, map_range_drop_take _ hN, numberAt]
  simp only [Nat.add_assoc]

/-- The elements of a tile depend on its scales only where a scale applies to an element inside the extents. -/
theorem tileElems_congr_scales {geom mode kExt nExt : Nat} (subn : Bool) (vals area : List Byte) {scales scales' : List Byte}
    (h : mode ≠ 0 → ∀ r j, r < 32 → j < nExt → storedK geom area r j < kExt →
      scales[scaleK geom r / blockLen mode * 32 + j]? = scales'[scaleK geom r / blockLen mode * 32 + j]?) :
    tileElems geom mode subn kExt nExt vals area scales = tileElems geom mode subn kExt nExt vals area scales' := by
  unfold tileElems
  dsimp only
  congr 1
  refine List.map_congr_left fun r hr => congrArg List.toArray (List.map_congr_left fun x _ => ?_)
  by_cases inside : x.2 < nExt ∧ storedK geom area r x.2 < kExt
  · by_cases hm : mode = 0
    · simp only [hm, if_true]
    · rw [h hm r x.2 (List.mem_range.mp hr) inside.1 inside.2]
  · rw [if_neg inside, if_neg inside]

theorem scaleK_le_storedK (geom : Nat) (area : List Byte) (r n : Nat) : scaleK geom r ≤ storedK geom area r n := by
  unfold scaleK storedK
  split
  · exact Nat.le_add_right _ _
  · exact Nat.le_refl _

theorem LoadbGood.block_lt {d : Desc} {k : Nat} (hk : k < lK d) : k / blockLen (lMode d) < kBlocks d := by
  unfold kBlocks blockLen
  split_ifs <;> omega

/-! ### Rows and columns of a tile's elements -/

theorem elAt_row (t : Array (Array El)) {r : Nat} (hr : r < t.size) : t[r].toList = (List.range t[r].size).map fun j => elAt t r j := by
  apply List.ext_getElem
  · simp
  · intro j hj _
    have hj : j < t[r].size := by simpa using hj
    simp [elAt, hr, hj]

section

variable (geom mode : Nat) (subn : Bool) (kExt nExt : Nat) (vals area scales : List Byte)

theorem tileElems_size : (tileElems geom mode subn kExt nExt vals area scales).size = 32 := by simp [tileElems]

theorem tileElems_row_size {r : Nat} (hr : r < (tileElems geom mode subn kExt nExt vals area scales).size) :
    ((tileElems geom mode subn kExt nExt vals area scales)[r]).size = geomN geom := by
  simp [tileElems, chunksOf_eq]

/-- The maxima of a tile's rows, by row and column. -/
theorem tileElems_rowMax {r : Nat} (hr : r < 32) : let t := tileElems geom mode subn kExt nExt vals area scales
    (t.toList.map fun r => maxExps r.toList)[r]? = some (maxExps ((List.range (geomN geom)).map fun j => elAt t r j)) := by
  intro t
  have hr : r < t.size := hr.trans_eq (tileElems_size ..).symm
  have row := elAt_row t hr
  rw [tileElems_row_size] at row
  rw [List.getElem?_map, List.getElem?_eq_getElem (by simpa using hr), Option.map_some, Array.getElem_toList, row]

end

/-! ### The staged state -/

theorem Reads.tileStored {s t r : State} {c : CoreId} {e : EngId} {slot : Fin 16} {area : Option (Fin 4)} {idx bytes scales : List Byte} (h : Reads s t)
    (h' : TileStored t r c e slot area idx bytes scales) : TileStored s r c e slot area idx bytes scales :=
  { h' with
    die := by rw [h'.die, h.die]
    frame := fun b hb => (h'.frame b hb).trans (h.byteAt b) }

/-- Log entries leave the bytes of the tile as they stand. -/
theorem TileStored.logged {s t r : State} {c : CoreId} {e : EngId} {slot : Fin 16} {area : Option (Fin 4)} {idx bytes scales : List Byte}
    (h : TileStored s t c e slot area idx bytes scales) (hr : r = { t with blf := r.blf }) : TileStored s r c e slot area idx bytes scales := by
  have mem : r.mem = t.mem := by rw [hr]
  exact {
    die := by rw [hr, h.die]
    wf := by rw [mem]; exact h.wf
    values := by rw [mem]; exact h.values
    scales := by rw [mem]; exact h.scales
    index := by rw [mem]; exact h.index
    frame := by rw [mem]; exact h.frame }

variable {s c e}

theorem State.readRows_idx (h : s.mem.wf = true) (d : Desc) : bytesOf (s.readRows c (idxRows d)).2.1.flatten
    = if lGeom d = 1 then (List.range 256).map fun b => cupByte s c (lIdx d + b) else [] := by
  have flat : bytesOf (s.readRows c (idxRows d)).2.1.flatten = ((s.readRows c (idxRows d)).2.1.map bytesOf).flatten := by
    rw [bytesOf, List.map_flatten]
    rfl
  rw [flat, State.readRows_bytes h, idxRows]
  split <;> simp

/-- Staging stores the tile and records it, with the queue entry marked. -/
theorem State.stageInto_stored (h : s.mem.wf = true) {en : QEntry} (good : LoadbGood en.bits) {slot : Fin 16} (area : Option (Fin 4))
    (hslot : 64 * slot.val + (if lGeom en.bits = 1 then 128 else 64) ≤ 1024) : ∃ idx vals scl r, LoadbRead s c en.bits idx vals scl
      ∧ TileStored s r c e slot area (bytesOf idx) (bytesOf (stagedBytes en.bits idx vals)) (bytesOf (stagedScales en.bits scl))
      ∧ s.stageInto c e en slot area = r.modEng c e fun x =>
          { x with slots := upd x.slots slot fun _ => some (stagedTile en area idx (stagedBytes en.bits idx vals) (stagedScales en.bits scl))
                   q := x.q.mark en.id (.staged slot), stageWait := none } := by
  have firstRead : Reads s (s.readRows c (idxRows en.bits)).1 := State.readRows_reads _
  have secondRead := firstRead.trans (State.readRows_reads (c := c) (valRows en.bits))
  have thirdRead := secondRead.trans (State.readRows_reads (c := c) (sclRows en.bits))
  have vals := State.readRows_bytes (c := c) (firstRead.wf h) (valRows en.bits)
  have scl := State.readRows_bytes (c := c) (secondRead.wf h) (sclRows en.bits)
  simp only [firstRead.cupByte] at vals
  simp only [secondRead.cupByte] at scl
  have read : LoadbRead s c en.bits _ _ _ := ⟨State.readRows_idx h en.bits, vals, scl⟩
  have bytes := read.length_bytes good
  have scales := read.length_scales good
  have room := good.kBlocks_le
  have idx := congrArg List.length read.idx
  rw [bytesOf_length] at bytes scales idx
  have stored := State.storeTile_stored (c := c) (e := e) (slot := slot) (area := area) (thirdRead.wf h) bytes
    (by rw [scales]; split_ifs at room hslot ⊢ <;> omega) (by rw [idx]; split_ifs <;> simp)
  exact ⟨_, _, _, _, read, (thirdRead.tileStored stored).logged (State.logBounds_changes_blf ..), s.stageInto_eq c e en slot area⟩

end Sys2Proof.Machine

namespace Sys2Proof.Claims

open Sys2Proof.Machine

/-! ### The oldest LOADB, case by case -/

section

variable {s : State} {c : CoreId} {e : EngId} {en : QEntry} (h : StageHead s c e en)
include h

theorem StageHead.steps : exec (.loadbStaging c e) s = .next (s.stage c e) := by
  obtain ⟨hp, -⟩ := h
  exact ev_powered s (·.stage c e) hp

theorem StageHead.stage_eq : s.stage c e =
    if en.taken = .malformed ∨ predOk (dPred en.bits) = false then
      (s.modEng c e fun x => { x with q := x.q.mark en.id .refused, stageWait := none }).refuse c (.eng e) en.off
    else if mayRun s c en = false then s.modEng c e fun x => { x with q := x.q.mark en.id .skipped, stageWait := none }
    else if loadbBad en.bits = true then
      (s.modEng c e fun x => { x with q := x.q.mark en.id .refused, stageWait := none }).refuse c (.eng e) en.off
    else match (s.eng c e).freeSlot (lGeom en.bits), (if lGeom en.bits = 1 then (s.eng c e).freeArea.map some else some none) with
      | some slot, some area => s.stageInto c e en slot area
      | _, _ => s.modEng c e fun x => { x with q := x.q.decide en.id true, stageWait := none } := by
  obtain ⟨-, live, running, oldest, reached⟩ := h
  have running : ((s.core c).eng[e]).q.freeze = none := running
  have oldest : ((s.core c).eng[e]).q.oldestLoadb = some en := oldest
  have met := (reached_iff s c en).mp reached
  unfold State.stage
  simp only [live, running, oldest, Bool.not_true, Option.isSome_none, Bool.or_self, Bool.false_eq_true, if_false, if_neg met, Bool.not_eq_true']
  rfl

theorem StageHead.refused (hbad : en.taken = .malformed ∨ predOk (dPred en.bits) = false ∨ (mayRun s c en = true ∧ loadbBad en.bits = true)) :
    ∃ t, exec (.loadbStaging c e) s = .next t ∧ UnitRefused (s.modEng c e fun x => { x with q := x.q.mark en.id .refused, stageWait := none }) t c (.eng e) en.off := by
  have running : (s.modEng c e fun x => { x with q := x.q.mark en.id .refused, stageWait := none }).frozen c (.eng e) = none := by
    obtain ⟨-, -, running, -⟩ := h
    change ((s.modEng c e _).eng c e).q.freeze = none
    rw [State.eng_modEng]
    exact running
  refine ⟨_, h.steps, ?_⟩
  rw [h.stage_eq]
  have refusal := State.refuse_unitRefused _ c running en.off
  rcases hbad with hm | hp | ⟨hrun, hbad⟩
  · rwa [if_pos (.inl hm)]
  · rwa [if_pos (.inr hp)]
  · rw [if_neg (by simp [hrun] : ¬ mayRun s c en = false), if_pos hbad, ite_self]
    exact refusal

theorem StageHead.skipped (hm : en.taken ≠ .malformed) (hp : predOk (dPred en.bits) = true) (hrun : mayRun s c en = false) :
    exec (.loadbStaging c e) s = .next (s.modEng c e fun x => { x with q := x.q.mark en.id .skipped, stageWait := none }) := by
  rw [h.steps, h.stage_eq, if_neg (by simp [hm, hp]), if_pos hrun]

theorem StageHead.staged (hm : en.taken ≠ .malformed) (hp : predOk (dPred en.bits) = true) (hrun : mayRun s c en = true) (hbad : loadbBad en.bits = false)
    {slot : Fin 16} {area : Fin 4} (hslot : (s.eng c e).freeSlot (lGeom en.bits) = some slot)
    (harea : if lGeom en.bits = 1 then (s.eng c e).freeArea = some area else area = 0) :
    exec (.loadbStaging c e) s = .next (s.stageInto c e en slot (if lGeom en.bits = 1 then some area else none)) := by
  have place : (if lGeom en.bits = 1 then (s.eng c e).freeArea.map some else some none) = some (if lGeom en.bits = 1 then some area else none) := by
    split
    case isTrue hg => rw [if_pos hg] at harea; rw [harea]; rfl
    case isFalse => rfl
  rw [h.steps, h.stage_eq, if_neg (by simp [hm, hp]), if_neg (by simp [hrun]), if_neg (by simp [hbad]), hslot, place]

end

/-- A 2:4 tile takes the scale space of two slots (R52). -/
theorem freeSlot_room {x : Engine} {g : Nat} {slot : Fin 16} (h : x.freeSlot g = some slot) : 64 * slot.val + (if g = 1 then 128 else 64) ≤ 1024 := by
  have free := List.find?_some h
  have slot16 := slot.isLt
  split
  case isTrue hg =>
    have : slot.val ≤ 14 := by simp_all
    omega
  case isFalse => omega

end Sys2Proof.Claims

end

/-! ## The staged tile and its install (R37 to R42, R130 to R132, R172) -/

section

namespace Sys2Proof.Machine

open Sys2Proof.Claims

variable {s r t : State} {c : CoreId} {e : EngId}

/-! ### The staged tile -/

theorem toNat_ofNat_geom {d : Desc} (good : LoadbGood d) : (BitVec.ofNat 2 (lGeom d)).toNat = lGeom d := by
  have := good.geom
  rw [BitVec.toNat_ofNat]
  omega

theorem toNat_ofNat_mode {d : Desc} (good : LoadbGood d) : (BitVec.ofNat 2 (lMode d)).toNat = lMode d := by
  have := good.mode
  rw [BitVec.toNat_ofNat]
  omega

theorem stagedTile_colMax (en : QEntry) (area : Option (Fin 4)) (idx bytes scales : Marked) {j : Nat} (hj : j < geomN (lGeom en.bits)) :
    ((stagedTile en area idx bytes scales).colMax[j]?).join = maxExps ((List.range 32).map fun r => elAt (stagedEls en idx bytes scales) r j) := by
  simp only [stagedTile, List.getElem?_map, List.getElem?_range hj]
  rfl

section

variable {en : QEntry} {idx : Marked} {vals scl : List Marked} (read : LoadbRead s c en.bits idx vals scl) (good : LoadbGood en.bits)
  {slot : Fin 16} {a : Fin 4}
  (stored : TileStored s r c e slot (if lGeom en.bits = 1 then some a else none) (bytesOf idx) (bytesOf (stagedBytes en.bits idx vals))
    (bytesOf (stagedScales en.bits scl)))
include read good stored

omit good in
theorem TileStored.index_load (hg : lGeom en.bits = 1) : r.mem.load (areaBase c e a) 256 = bytesOf idx := by
  have len : (bytesOf idx).length = 256 := by rw [read.idx, if_pos hg]; simp
  rw [← len]
  exact stored.index a (if_pos hg)

/-- Scale `j` of block `b`, where it stands. -/
theorem TileStored.scale_byte (hmode : lMode en.bits ≠ 0) {b j : Nat} (hb : b < kBlocks en.bits) (hj : j < lN en.bits) :
    r.mem.byteAt (scaleBase c e slot + (32 * b + j)) = cupByte s c (lScale en.bits + 32 * b + j) := by
  have entry := read.scale_at good hmode hb hj
  obtain ⟨inside, -⟩ := List.getElem?_eq_some_iff.mp entry
  have here := Memory.load_getElem? stored.wf (scaleBase c e slot) inside
  rw [stored.scales, entry] at here
  exact (Option.some.inj here).symm

/-- The elements of the tile read back from the Lantern are those that were staged. -/
theorem TileStored.tileEls (bytes scales : Marked) (hbytes : bytes = stagedBytes en.bits idx vals) (hscales : scales = stagedScales en.bits scl) :
    r.tileEls c e slot (stagedTile en (if lGeom en.bits = 1 then some a else none) idx bytes scales) = stagedEls en idx bytes scales := by
  have len := read.length_bytes good
  have values := stored.values
  rw [len] at values
  subst hbytes hscales
  have index : r.tileArea c e (stagedTile en (if lGeom en.bits = 1 then some a else none) idx (stagedBytes en.bits idx vals) (stagedScales en.bits scl))
      = bytesOf idx := by
    unfold State.tileArea stagedTile
    by_cases hg : lGeom en.bits = 1
    · simp only [hg, if_true]
      exact stored.index_load read hg
    · simp only [hg, if_false]
      rw [read.idx, if_neg hg]
  have geom : (BitVec.ofNat 2 (lGeom en.bits) = 1) ↔ lGeom en.bits = 1 := by
    rw [← BitVec.toNat_inj, toNat_ofNat_geom good]
    rfl
  unfold State.tileEls
  rw [index]
  simp only [stagedTile, toNat_ofNat_geom good, toNat_ofNat_mode good, values, geom]
  refine tileElems_congr_scales en.subn _ _ fun hmode r j hr hj hk => ?_
  have block := LoadbGood.block_lt ((scaleK_le_storedK _ _ _ _).trans_lt hk)
  have room := good.kBlocks_le
  have n : lN en.bits ≤ 32 := good.n.trans (geomN_le _)
  rw [Nat.mul_comm _ 32, Memory.load_getElem? stored.wf _ (by omega), stored.scale_byte read good hmode block hj, read.scale_at good hmode block hj]

/-- Element (r, j) of the B-stage. -/
theorem TileStored.element {i j : Nat} (hi : i < 32) (hj : j < geomN (lGeom en.bits)) :
    numberAt r (slotBase c e slot + 64 * i + (geomFmt (lGeom en.bits)).size * j) (geomFmt (lGeom en.bits)).size = tileNum s c en.bits i j := by
  have size := size_geomFmt (lGeom en.bits)
  have room : (geomFmt (lGeom en.bits)).size * j + (geomFmt (lGeom en.bits)).size ≤ 64 := by
    rw [← size, ← Nat.mul_succ]
    exact Nat.mul_le_mul_left _ hj
  have values := stored.values
  rw [read.length_bytes good] at values
  rw [Nat.add_assoc, numberAt_eq_load stored.wf _ (N := 2048) (by omega), values, read.bytes_at good hi hj, leNat_leBytes,
    Nat.mod_eq_of_lt (good.tileNum_lt i j)]

omit good in
theorem TileStored.index_byte (hg : lGeom en.bits = 1) {b : Nat} (hb : b < 256) :
    (r.mem.byteAt (areaBase c e a + b)).toNat = cupNum s c (lIdx en.bits + b) 1 := by
  have here := Memory.load_getElem? stored.wf (areaBase c e a) hb
  rw [stored.index_load read hg, read.idx, if_pos hg, List.getElem?_map, List.getElem?_range hb] at here
  rw [cupNum_one, ← Option.some.inj here]

end

/-! ### A slot copied into the array (R39, R235) -/

section

variable (s c e) (slot : Fin 16) (tile : Tile)

theorem State.copyTile_reads : Reads s (s.copyTile c e slot tile).1 := by
  have both := (s.readP_reads (slotBase c e slot) 2048).trans ((s.readP (slotBase c e slot) 2048).1.readP_reads (scaleBase c e slot)
    (if tile.geom = 1 then 128 else 64))
  unfold State.copyTile
  dsimp only
  split
  · exact both.trans (State.readP_reads _ _ _)
  · exact both

/-- The copy holds the tile's elements as they stand in the B-stage. -/
theorem State.copyTile_els : (s.copyTile c e slot tile).2.els = s.tileEls c e slot tile := by
  have first := s.readP_reads (slotBase c e slot) 2048
  have both := first.trans ((s.readP (slotBase c e slot) 2048).1.readP_reads (scaleBase c e slot) (if tile.geom = 1 then 128 else 64))
  have index : (s.copyTile c e slot tile).2.area = s.tileArea c e tile := by
    unfold State.copyTile State.tileArea
    dsimp only
    split
    · rw [State.readP_bytes, both.load]
    · rfl
  have scales : (s.copyTile c e slot tile).2.scales = s.mem.load (scaleBase c e slot) (if tile.geom = 1 then 128 else 64) := by
    rw [← first.load, ← State.readP_bytes]
    rfl
  have vals : (s.copyTile c e slot tile).2.vals = s.mem.load (slotBase c e slot) 2048 := State.readP_bytes ..
  unfold ArrayTile.els State.tileEls
  rw [index, scales, vals]
  rfl

theorem State.copyTile_tile : ∃ p, (s.copyTile c e slot tile).2.tile = { tile with installed := true, poisoned := p } ∧ (tile.poisoned = true → p = true) :=
  ⟨_, rfl, fun h => by simp [h]⟩

end

/-! ### The install (R39 to R42) -/

/-- The engine with tile `a` in its array, copied from the slot at the head of its installs. -/
def Engine.withTile (x : Engine) (a : ArrayTile) (rest : List (Fin 16)) : Engine :=
  { x with array := some a, toInstall := rest, restore := .none, installCk := x.installCk + 32
           slots := upd x.slots a.slot fun t => t.map fun t => { t with installed := true } }

theorem State.install_held (h : (s.eng c e).installHeld = true) : s.install c e = s := by
  have h : ((s.core c).eng[e]).installHeld = true := h
  simp only [State.install, h, Bool.or_true, if_true]

theorem State.install_next {slot : Fin 16} {rest : List (Fin 16)} {tile : Tile} (live : (s.core c).live = true) (running : (s.eng c e).q.freeze = none)
    (held : (s.eng c e).installHeld = false) (hnext : (s.eng c e).toInstall = slot :: rest) (htile : (s.eng c e).slots[slot] = some tile) :
    s.install c e = (s.copyTile c e slot tile).1.modEng c e fun x => (x.withTile (s.copyTile c e slot tile).2 rest).freeSlots := by
  have held : ((s.core c).eng[e]).installHeld = false := held
  have goes : ((s.core c).eng[e]).q.goesOn = true := by
    have running : ((s.core c).eng[e]).q.freeze = none := running
    rw [UnitQ.goesOn, running]
  have hnext : ((s.core c).eng[e]).toInstall = slot :: rest := hnext
  have htile : ((s.core c).eng[e]).slots[slot] = some tile := htile
  simp only [State.install, live, goes, held, hnext, htile, Bool.not_true, Bool.or_self, Bool.false_eq_true, if_false]
  rfl

theorem Engine.freeSlots_slots (x : Engine) (k : Fin 16) : x.freeSlots.slots[k]
    = if (x.slots[k]).any (·.installed) && x.installed != some k && !x.toInstall.contains k && !x.flight.any (fun f => f.slot == k) then none
      else x.slots[k] := by
  unfold Engine.freeSlots
  simp only [Fin.getElem_fin, Vector.getElem_ofFn]
  cases x.slots[k.val] with
  | none => simp
  | some t => rfl

end Sys2Proof.Machine

namespace Sys2Proof.Claims

open Sys2Proof.Machine

theorem installHeld_of {x : Engine} (h : x.q.feeding.isSome = true
    ∨ ∃ f ∈ x.flight, f.overflow = true ∧ (x.restore ≠ .none ∨ ∀ a, x.array = some a → a.slot ≠ f.slot)) : x.installHeld = true := by
  unfold Engine.installHeld
  rcases h with h | ⟨f, hf, hover, h | h⟩
  · simp [h]
  · have : x.flight.any (·.overflow) = true := List.any_eq_true.mpr ⟨f, hf, hover⟩
    simp [h, this]
  · have other : (x.installed != some f.slot) = true := by
      cases ha : x.array with
      | none => simp [Engine.installed, ha]
      | some a => simpa [Engine.installed, ha] using h a ha
    have : x.restoreDue = true := List.any_eq_true.mpr ⟨f, hf, by simp [hover, other]⟩
    simp [this]

theorem installHeld_none {x : Engine} (hfeed : x.q.feeding = none) (h : ∀ f ∈ x.flight, f.overflow = false) : x.installHeld = false := by
  have quiet : x.flight.any (·.overflow) = false := by simpa using h
  have due : x.restoreDue = false := by
    unfold Engine.restoreDue
    rw [List.any_eq_false]
    intro f hf
    simp [h f hf]
  simp [Engine.installHeld, hfeed, quiet, due]

/-- O20 (a): the oldest LOADB's cases, and the install. -/
theorem tilesAreStagedAndInstalled : TilesAreStagedAndInstalled := by
  intro s c e en hwf d x i
  refine ⟨fun h hm hp hrun hbad slot area hslot harea => ?_, fun h hm hp hrun => h.skipped hm hp hrun, fun h hbad => ?_,
    fun slot rest tile hp live running hnext htile hfeed hover => ?_, fun h => ?_⟩
  · have good := loadbGood hbad
    obtain ⟨idx, vals, scl, r, read, stored, ht⟩ := State.stageInto_stored (c := c) (e := e) hwf good (if lGeom d = 1 then some area else none)
      (freeSlot_room hslot)
    have step := h.staged hm hp hrun hbad hslot harea
    let tile := stagedTile en (if lGeom d = 1 then some area else none) idx (stagedBytes d idx vals) (stagedScales d scl)
    let f : Engine → Engine := fun x => { x with slots := upd x.slots slot fun _ => some tile, q := x.q.mark en.id (.staged slot), stageWait := none }
    rw [ht] at step
    have core : ∀ b, r.core b = s.core b := fun b => by rw [stored.die]; rfl
    have eng : (r.modEng c e f).eng c e = f (s.eng c e) := by
      rw [State.eng_modEng, State.eng, core]
      rfl
    have els : (r.modEng c e f).tileEls c e slot tile = stagedEls en idx (stagedBytes d idx vals) (stagedScales d scl) := stored.tileEls read good _ _ rfl rfl
    refine ⟨r.modEng c e f, tile, step, ?_, toNat_ofNat_geom good, rfl, rfl, rfl, rfl, by rw [eng], fun i j hi hj => ?_, fun hmode b j hb hj => ?_,
      fun hg b hb => stored.index_byte read hg hb, fun j hj => ?_, fun i hi => ?_, stored.frame, fun b hb => ?_, ?_, ?_, by rw [eng], by rw [eng]⟩
    · rw [eng]
      exact upd_same _ _ _
    · rw [← size_geomFmt_esize]
      exact stored.element read good hi hj
    · rw [cupNum_one, Nat.add_assoc]
      exact congrArg BitVec.toNat (stored.scale_byte read good hmode hb hj)
    · rw [els]
      exact stagedTile_colMax en _ _ _ _ hj
    · rw [els]
      exact congrArg Option.join (tileElems_rowMax _ _ _ _ _ _ _ _ hi)
    · rw [State.modEng, State.core_modCore_other _ c b _ hb, core]
    · rw [SameDie, stored.die]
      rfl
    · rw [State.core_modEng, core]
  · obtain ⟨t, ht, refused⟩ := h.refused hbad
    exact ⟨t, ht, refused.frozen, refused.code, refused.cls, refused.detail, fun b => by rw [refused.mem]; rfl⟩
  · let y := s.copyTile c e slot tile
    let g : Engine → Engine := fun x => (x.withTile y.2 rest).freeSlots
    have copied : Reads s y.1 := s.copyTile_reads c e slot tile
    have step : exec (.tileInstall c e) s = .next (y.1.modEng c e g) := by
      rw [← State.install_next live running (installHeld_none hfeed hover) hnext htile]
      exact ev_powered s (·.install c e) hp
    have eng : (y.1.modEng c e g).eng c e = g x := by rw [State.eng_modEng, copied.eng_eq]
    obtain ⟨p, htilep, hpoison⟩ := s.copyTile_tile c e slot tile
    refine ⟨y.1.modEng c e g, y.2, step, fun b hb => ?_, ?_, copied.sameBytes, fun clean => ?_, by rw [eng]; rfl, rfl, s.copyTile_els c e slot tile, ?_, ?_,
      by rw [eng]; rfl, by rw [eng]; rfl, by rw [eng]; rfl, by rw [eng]; rfl, by rw [eng]; rfl, by rw [eng]; rfl, by rw [eng]; rfl, ?_, ?_, fun k hk => ?_⟩
    · rw [State.modEng, State.core_modCore_other _ c b _ hb, copied.core_eq]
    · rw [SameDie, copied.die]
      rfl
    · rw [copied.clean clean]
      exact ⟨rfl, rfl⟩
    · rw [htilep]
    · rw [htilep]
      exact hpoison
    · rw [State.core_modEng, copied.core_eq]
    · have here : (x.withTile y.2 rest).slots[slot] = some { tile with installed := true } := by
        have := upd_same x.slots slot fun t => t.map fun t => { t with installed := true }
        rwa [htile] at this
      have installed : (x.withTile y.2 rest).installed = some slot := rfl
      rw [eng, Engine.freeSlots_slots, installed, here]
      simp
    · have other : (x.withTile y.2 rest).slots[k] = x.slots[k] := upd_other _ slot k _ hk
      have installed : (x.withTile y.2 rest).installed = some slot := rfl
      have ne : (some slot != some k) = true := by simpa using hk.symm
      rw [eng, Engine.freeSlots_slots, installed, other, ne, Bool.and_true]
      rfl
  · have held : s.install c e = s := State.install_held (installHeld_of h)
    change execTileInstall c e s = _
    rw [execTileInstall, ev, held, ite_self]

end Sys2Proof.Claims

end

/-! ## STEP_ENTRY and STEP_REPLAY: a step's A elements, its chunks and its replay (R42, R46, R50, R106 to R110, R173) -/

section

namespace Sys2Proof.Machine

open Sys2Proof.Claims

variable {s : State} {c : CoreId}

/-! ### The A elements of a row (R45, R50, R173) -/

/-- What holds before the first number and is kept by each step holds after a fold over the numbers below `n`. -/
theorem foldl_range_holds {α : Type} (f : α → Nat → α) (p : Nat → α → Prop) (h : ∀ k a, p k a → p (k + 1) (f a k)) {a : α} (ha : p 0 a) (n : Nat) :
    p n ((List.range n).foldl f a) := by
  induction n with
  | zero => exact ha
  | succ n ih =>
    rw [List.range_succ, List.foldl_append, List.foldl_cons, List.foldl_nil]
    exact h n _ ih

/-- An A element as the feeder holds it: its bits and its scale code. -/
def AElem.plain (x : AElem) : Nat × Nat := (x.bits, x.scale)

theorem held_source (code b : Nat) : (if (fmtOf code).getD .fp16 = .fp32 then b else widen16 ((fmtOf code).getD .fp16) b) = held code b := by
  have fp32 : (fmtOf code).getD .fp16 = .fp32 ↔ code = 0 := by
    unfold fmtOf
    split <;> simp_all
  rw [held]
  exact if_congr fp32 rfl rfl

/-- Table TIL-6 and R50 by the model's addresses. -/
theorem aNum_eq (d : Desc) (m k : Nat) : aNum s c d m k = if sK d ≤ k then (0, 0x7F) else
    match aAddrOf d m k with
    | none => (0, 0x7F)
    | some (a, sa) => (held (sFmt d) (cupNum s c a (esize (sFmt d))), if sMode d = 0 then 0x7F else cupNum s c sa 1) := by
  unfold aNum aAddrOf
  by_cases hk : sK d ≤ k
  · simp only [hk, if_true]
  by_cases hc : sConv d = true
  · simp only [hk, hc, if_true, if_false, size_fmtOf, Bool.not_true, Bool.false_eq_true]
    have hy : ((sM0 d + m : Nat) : Int) / sOutW d * sSy d + ((sK0 d + k : Nat) : Int) / (sC d * sFw d) * sDy d
        = ((sM0 d + m) / sOutW d * sSy d + (sK0 d + k) / (sC d * sFw d) * sDy d : Nat) := by push_cast; rfl
    have hx : ((sM0 d + m : Nat) : Int) % sOutW d * sSx d + ((sK0 d + k : Nat) : Int) / sC d % sFw d * sDx d
        = ((sM0 d + m) % sOutW d * sSx d + (sK0 d + k) / sC d % sFw d * sDx d : Nat) := by push_cast; rfl
    rw [hy, hx]
    generalize ((((sM0 d + m) / sOutW d * sSy d + (sK0 d + k) / (sC d * sFw d) * sDy d : Nat) : Int) - sPy d) = iy
    generalize ((((sM0 d + m) % sOutW d * sSx d + (sK0 d + k) / sC d % sFw d * sDx d : Nat) : Int) - sPx d) = ix
    split
    case isTrue => rfl
    case isFalse inside =>
      have pixel : (iy * sInW d + ix).toNat = iy.toNat * sInW d + ix.toNat := by
        obtain ⟨y, rfl⟩ := Int.eq_ofNat_of_zero_le (a := iy) (by omega)
        obtain ⟨x, rfl⟩ := Int.eq_ofNat_of_zero_le (a := ix) (by omega)
        rfl
      simp only [pixel, blockLen]
  · simp [hk, hc, size_fmtOf, blockLen]

theorem Reads.cupNum {t : State} (h : Reads s t) (off n : Nat) : Claims.cupNum t c off n = Claims.cupNum s c off n := by
  simp only [cupNum_eq, h.cupByte]

/-- The scale of an A element, read where the STREAM has scales. -/
def State.readScale (s : State) (c : CoreId) (d : Desc) (sa : Nat) : State × Marked :=
  if sMode d = 0 then (s, [(0x7F, false)]) else s.cupRead c sa 1

theorem State.readScale_reads (d : Desc) (sa : Nat) : Reads s (s.readScale c d sa).1 := by
  unfold State.readScale
  split
  · exact .refl s
  · exact s.cupRead_reads c sa 1

theorem State.readScale_num (h : s.mem.wf = true) (d : Desc) (sa : Nat) :
    leNat (bytesOf (s.readScale c d sa).2) = if sMode d = 0 then 0x7F else cupNum s c sa 1 := by
  unfold State.readScale
  split
  · rfl
  · rw [State.cupRead_bytes h, cupNum_eq]

/-- Reading a row of A gives its elements. -/
theorem State.readARow_reads (h : s.mem.wf = true) (d : Desc) (m : Nat) : Reads s (s.readARow c d m).1
    ∧ (s.readARow c d m).2.1.map AElem.plain
      = (List.range (if sOrient d then geomN (sGeom d) else geomK (sGeom d))).map fun k => aNum s c d m k := by
  unfold State.readARow
  extract_lets src len
  refine foldl_range_holds _ (fun k (acc : State × List AElem × List Nat × Option Nat) => Reads s acc.1
    ∧ acc.2.1.map AElem.plain = (List.range k).map fun k => aNum s c d m k) ?_ ⟨.refl s, rfl⟩ len
  rintro k ⟨r, els, outs, mark⟩ ⟨read, nums⟩
  rw [List.range_succ, List.map_append, List.map_cons, List.map_nil, aNum_eq, ← nums]
  by_cases hk : sK d ≤ k
  · simp only [if_pos hk, List.map_append]
    exact ⟨read, rfl⟩
  cases ha : aAddrOf d m k with
  | none =>
    simp only [if_neg hk, List.map_append]
    exact ⟨read, rfl⟩
  | some at' =>
    obtain ⟨a, sa⟩ := at'
    have value : Reads r (r.cupRead c a src.size).1 := r.cupRead_reads c a src.size
    have scale : Reads _ ((r.cupRead c a src.size).1.readScale c d sa).1 := State.readScale_reads d sa
    have bits : leNat (bytesOf (r.cupRead c a src.size).2) = cupNum s c a (esize (sFmt d)) := by
      rw [State.cupRead_bytes (read.wf h), ← cupNum_eq, read.cupNum, size_fmtOf]
    have code := State.readScale_num (c := c) (value.wf (read.wf h)) d sa
    rw [(read.trans value).cupNum] at code
    simp only [if_neg hk, List.map_append]
    refine ⟨(read.trans value).trans scale, congrArg (_ ++ [·]) ?_⟩
    rw [← held_source, ← bits, ← code]
    rfl

/-- The rows of A that a step of `n` rows from `i0` takes. -/
def State.readStep (s : State) (c : CoreId) (d : Desc) (i0 n : Nat) : State × List (List AElem) × List Nat × Option Nat :=
  (List.range n).foldl (fun (acc : State × List (List AElem) × List Nat × Option Nat) i =>
    let y := acc.1.readARow c d (i0 + i)
    (y.1, acc.2.1 ++ [y.2.1], acc.2.2.1 ++ y.2.2.1, acc.2.2.2.orElse fun _ => y.2.2.2)) (s, [], [], none)

theorem Reads.aNum {t : State} (h : Reads s t) (d : Desc) (m k : Nat) : Claims.aNum t c d m k = Claims.aNum s c d m k := by
  simp only [aNum_eq, h.cupNum]

theorem State.readStep_reads (h : s.mem.wf = true) (d : Desc) (i0 n : Nat) : Reads s (s.readStep c d i0 n).1
    ∧ (s.readStep c d i0 n).2.1.map (·.map AElem.plain) = (List.range n).map fun i =>
        (List.range (if sOrient d then geomN (sGeom d) else geomK (sGeom d))).map fun k => Claims.aNum s c d (i0 + i) k := by
  refine foldl_range_holds _ (fun n (acc : State × List (List AElem) × List Nat × Option Nat) => Reads s acc.1
    ∧ acc.2.1.map (·.map AElem.plain) = (List.range n).map fun i =>
        (List.range (if sOrient d then geomN (sGeom d) else geomK (sGeom d))).map fun k => Claims.aNum s c d (i0 + i) k) ?_ ⟨.refl s, rfl⟩ n
  rintro i ⟨r, rows, outs, mark⟩ ⟨read, nums⟩
  obtain ⟨row, els⟩ := State.readARow_reads (c := c) (read.wf h) d (i0 + i)
  simp only [read.aNum] at els
  refine ⟨read.trans row, ?_⟩
  simp only [List.map_append, List.map_cons, List.map_nil, List.range_succ, nums, els]

/-- Rows whose plain elements are given by row and column have that shape. -/
theorem plain_lengths {rows : List (List AElem)} {n len : Nat} {f : Nat → Nat → Nat × Nat}
    (h : rows.map (·.map AElem.plain) = (List.range n).map fun i => (List.range len).map (f i)) : rows.length = n ∧ ∀ row ∈ rows, row.length = len := by
  refine ⟨by simpa using congrArg List.length h, fun row hrow => ?_⟩
  have image := List.mem_map_of_mem (f := (·.map AElem.plain)) hrow
  rw [h] at image
  obtain ⟨i, -, hi⟩ := List.mem_map.mp image
  simpa using (congrArg List.length hi).symm

/-- A row of A is no longer than the contraction of its geometry. -/
theorem contraction_le (orient : Bool) (geom : Nat) : (if orient then geomN geom else geomK geom) ≤ geomK geom := by
  simp only [geomN, geomK]
  split_ifs <;> omega

/-! ### A step enters (R46, R57, R106) -/

/-- Where the step stands in the A-feed. -/
def Engine.feedEntry (x : Engine) (geom : Nat) : Nat := if geom = 1 then (x.feedPos + x.feedPos % 2) % 256 else x.feedPos % 256

/-- A step's result through the array with the STREAM's headroom. -/
def ArrayTile.stepOf (ar : ArrayTile) (a : Active) (rows : List (List AElem)) : StepResult :=
  stepResult ar.tile ar.els ar.area (sOrient a.entry.bits) a.entry.subn a.entry.zgate (sHr a.entry.bits) (rows.map (·.map AElem.plain))

/-- The step that enters behind those in flight. -/
def Engine.stepIn (x : Engine) (a : Active) (ar : ArrayTile) (rows : List (List AElem)) (mark : Option Nat) : FlightStep :=
  let d := a.entry.bits
  let res := ar.stepOf a rows
  { id := x.nextStep, slot := ar.slot, group := sGroup d, row0 := stepRow0 d a.steps, a := rows.map (·.map AElem.plain), orient := sOrient d
    subn := a.entry.subn, zgate := a.entry.zgate, flushed := res.flushed, poisoned := ar.tile.poisoned || rows.any fun row => row.any (·.poison)
    poisonAt := mark.getD 0, overflow := res.overflow, chunks := if res.overflow then [] else res.chunks, desc := a.entry.id }

/-- The engine with a step behind those in flight. -/
def Engine.entered (x : Engine) (a : Active) (st : FlightStep) (res : StepResult) (outs : List Nat) (pos : Nat) : Engine :=
  { x with
    q := x.q.modActive a.entry.id fun y => { y with steps := y.steps + 1, boundsLogged := y.boundsLogged || !outs.isEmpty }
    flight := x.flight ++ [st], nextStep := x.nextStep + 1, feedPos := (pos + if sGeom a.entry.bits = 1 then 2 else 1) % 256
    orient := sOrient a.entry.bits, stepCount := x.stepCount + 1, zgateCount := x.zgateCount + BitVec.ofNat 64 res.gated
    flags := if res.overflow then x.flags ||| fACCR else x.flags
    replayCount := if res.overflow then satAdd x.replayCount 1 else x.replayCount }

/-- The step's rows stand in the A-feed. -/
def State.fed (s : State) (c : CoreId) (e : EngId) (a : Active) (pos : Nat) (rows : List (List AElem)) (outs : List Nat) : State :=
  let img := feedImage (sGeom a.entry.bits) rows (sMode a.entry.bits)
  ((s.logBounds c (.eng e) a.boundsLogged outs).storeP (feedBase c e pos) img.1).storeP (feedScaleBase c e pos) img.2

/-- A step that overflowed counts for its group (R106). -/
def State.countReplay (s : State) (c : CoreId) (e : EngId) (g : GroupId) (overflow : Bool) : State :=
  if overflow then s.modGroup c e g fun x => { x with replayed := satAdd x.replayed 1 } else s

variable {e : EngId} {a : Active} {ar : ArrayTile} {n : Nat}

theorem stepEntry_eq (h : Feeds s c e a ar n) {r : State} {rows : List (List AElem)} {outs : List Nat} {mark : Option Nat}
    (hr : s.readStep c a.entry.bits (a.steps * geomRows (sGeom a.entry.bits)) n = (r, rows, outs, mark)) : s.stepEntry c e =
    let x := s.eng c e
    let pos := x.feedEntry (sGeom a.entry.bits)
    ((r.fed c e a pos rows outs).modEng c e fun y => y.entered a (x.stepIn a ar rows mark) (ar.stepOf a rows) outs pos).countReplay c e
      (sGroup a.entry.bits) (ar.stepOf a rows).overflow := by
  obtain ⟨-, live, goes, hfeed, harray, hn, hholds, hahead⟩ := h
  have goes : ((s.core c).eng[e]).q.goesOn = true := goes
  have hfeed : ((s.core c).eng[e]).q.feeding = some a := hfeed
  have harray : ((s.core c).eng[e]).array = some ar := harray
  have hn : n = min (geomRows (sGeom a.entry.bits)) (sM a.entry.bits - a.steps * geomRows (sGeom a.entry.bits)) := hn
  have hholds : ((s.core c).eng[e]).holdsEntry (sGroup a.entry.bits) (stepRow0 a.entry.bits a.steps) n = false := hholds
  have hahead : ((s.core c).eng[e]).q.writesAhead a ((List.range n).map fun i => a.steps * geomRows (sGeom a.entry.bits) + i) = false := hahead
  unfold State.stepEntry
  dsimp only
  simp only [hfeed, harray]
  rw [State.readStep] at hr
  rw [← hn, live, goes, hholds, hahead, if_neg (by decide), hr]
  rfl

/-! ### The bytes of the A-feed (R46) -/

/-- Only bytes of the A-feed entries and of their scales differ. -/
structure FeedOnly (s t : State) (c : CoreId) (e : EngId) : Prop where
  die : t = { s with mem := t.mem, blf := t.blf }
  frame : ∀ b, b < lanternBase c e ∨ (lanternBase c e + 0x10000 ≤ b ∧ b < lanternBase c e + 0x18400) ∨ lanternBase c e + 0x18C00 ≤ b →
    t.mem.byteAt b = s.mem.byteAt b

theorem length_flatMap_const {α β : Type} {l : List α} {f : α → List β} {m : Nat} (h : ∀ x ∈ l, (f x).length = m) : (l.flatMap f).length = l.length * m := by
  rw [List.length_flatMap, List.map_congr_left h, List.map_const', List.sum_replicate, smul_eq_mul]

theorem length_spell (size : Nat) (xs : List (Nat × Bool)) : (spell size xs).length = xs.length * size :=
  length_flatMap_const fun x _ => by simp

/-- An A-feed entry of 256 bytes holds a step, and two consecutive ones a step of a 2:4 tile. -/
theorem feedImage_length {geom mode len : Nat} {rows : List (List AElem)} (hlen : ∀ r ∈ rows, r.length = len) (hrows : rows.length ≤ geomRows geom)
    (hmax : len ≤ geomK geom) : (feedImage geom rows mode).1.length ≤ (if geom = 1 then 512 else 256)
      ∧ (feedImage geom rows mode).2.length ≤ if geom = 1 then 16 else 8 := by
  have vals : (feedImage geom rows mode).1.length = rows.length * (len * (geomFmt geom).size) :=
    length_flatMap_const fun r hr => by rw [length_spell, List.length_map, hlen r hr]
  have scls : (feedImage geom rows mode).2.length = rows.length * if geom = 1 then 4 else 2 :=
    length_flatMap_const fun r _ => by simp
  rw [vals, scls]
  have step : len * (geomFmt geom).size ≤ geomK geom * (geomFmt geom).size := Nat.mul_le_mul_right _ hmax
  have all := Nat.mul_le_mul hrows step
  refine ⟨all.trans ?_, (Nat.mul_le_mul_right _ hrows).trans ?_⟩
  · by_cases h1 : geom = 1
    · subst h1
      decide
    by_cases h2 : geom = 2
    · subst h2
      decide
    · simp [geomRows, geomK, geomFmt, h1, h2, Fmt.size]
  · unfold geomRows
    split_ifs <;> omega

theorem Engine.feedEntry_room (x : Engine) (geom : Nat) : x.feedEntry geom * 256 + (if geom = 1 then 512 else 256) ≤ 0x10000 := by
  unfold Engine.feedEntry
  split <;> omega

theorem State.fed_feedOnly (h : s.mem.wf = true) {rows : List (List AElem)} {pos len : Nat} (outs : List Nat) (hlen : ∀ r ∈ rows, r.length = len)
    (hrows : rows.length ≤ geomRows (sGeom a.entry.bits)) (hmax : len ≤ geomK (sGeom a.entry.bits))
    (hpos : pos * 256 + (if sGeom a.entry.bits = 1 then 512 else 256) ≤ 0x10000) : FeedOnly s (s.fed c e a pos rows outs) c e := by
  obtain ⟨vals, scls⟩ := feedImage_length (mode := sMode a.entry.bits) hlen hrows hmax
  rw [← bytesOf_length] at vals scls
  have logged := s.logBounds_changes_blf c (.eng e) a.boundsLogged outs
  have mem : (s.logBounds c (.eng e) a.boundsLogged outs).mem = s.mem := by rw [logged]
  have first := State.storeP_stored (by rw [mem]; exact h) (feedBase c e pos) (feedImage (sGeom a.entry.bits) rows (sMode a.entry.bits)).1
  have second := State.storeP_stored first.wf (feedScaleBase c e pos) (feedImage (sGeom a.entry.bits) rows (sMode a.entry.bits)).2
  exact {
    die := by rw [State.fed, second.die, first.die, logged]
    frame := fun b hb => by
      have outFirst : b < feedBase c e pos ∨ feedBase c e pos + (bytesOf (feedImage (sGeom a.entry.bits) rows (sMode a.entry.bits)).1).length ≤ b := by
        unfold feedBase
        split_ifs at vals hpos <;> omega
      have outSecond : b < feedScaleBase c e pos ∨ feedScaleBase c e pos + (bytesOf (feedImage (sGeom a.entry.bits) rows (sMode a.entry.bits)).2).length ≤ b := by
        unfold feedScaleBase
        split_ifs at scls hpos <;> omega
      exact (second.outside outSecond).trans ((first.outside outFirst).trans (by rw [mem])) }

end Sys2Proof.Machine

namespace Sys2Proof.Machine

open Sys2Proof.Claims

variable {s t : State} {c : CoreId} {e : EngId}

/-! ### What a step's entry leaves -/

theorem State.countReplay_onlyCore (g : GroupId) (b : Bool) : OnlyCore s (s.countReplay c e g b) c := by
  cases b
  · exact ⟨rfl, fun _ _ => rfl, rfl⟩
  · exact s.modCore_onlyCore c fun _ => rfl

theorem State.countReplay_eng (g : GroupId) (b : Bool) : ∃ y, (s.countReplay c e g b).eng c e = { s.eng c e with groups := y }
    ∧ (y[g]).replayed = if b then satAdd ((s.eng c e).groups[g]).replayed 1 else ((s.eng c e).groups[g]).replayed := by
  cases b
  · exact ⟨_, rfl, rfl⟩
  · exact ⟨_, s.eng_modEng c e _, congrArg Group.replayed (upd_same _ g _)⟩

theorem UnitQ.modActive_others {q : UnitQ} {id : Nat} {f : Active → Active} (hf : ∀ a, (f a).entry = a.entry) {b : Active}
    (hb : b ∈ (q.modActive id f).active) (hid : b.entry.id ≠ id) : b ∈ q.active := by
  obtain ⟨a, ha, rfl⟩ := List.mem_map.mp hb
  split at hid
  case isTrue h => exact absurd (by rw [hf]; exact h) hid
  case isFalse h => rwa [if_neg h]

/-- A change of an engine depends on what it gives for that engine alone. -/
theorem State.modEng_congr {f g : Engine → Engine} (h : f (s.eng c e) = g (s.eng c e)) : s.modEng c e f = s.modEng c e g := by
  have h : f (s.cores[c.val].eng[e.val]) = g (s.cores[c.val].eng[e.val]) := h
  simp only [State.modEng, State.modCore, upd, h]

end Sys2Proof.Machine

namespace Sys2Proof.Claims

open Sys2Proof.Machine

section

variable {s : State} {c : CoreId} {e : EngId}

theorem exec_stepReplay (hp : s.powered = true) : exec (.stepReplay c e) s = .next (s.stepReplay c e) := ev_powered s (·.stepReplay c e) hp

variable {st : FlightStep} {ar : ArrayTile} (live : (s.core c).live = true) (hover : (s.eng c e).flight.find? (·.overflow) = some st)
  (harray : (s.eng c e).array = some ar)
include live hover harray

theorem stepReplay_here (hslot : ar.slot = st.slot) : s.stepReplay c e = s.replayStep c e ar st := by
  simp only [State.stepReplay, hover, harray, live, Bool.not_true, Bool.false_eq_true, if_false, if_pos hslot]

theorem stepReplay_restores (hslot : ar.slot ≠ st.slot) : s.stepReplay c e = s.restoreTile c e st.slot := by
  simp only [State.stepReplay, hover, harray, live, Bool.not_true, Bool.false_eq_true, if_false, if_neg hslot]

end

/-- O20 (b): a step's entry, its replay with its tile in the array, and the restore of that tile. -/
theorem stepsEnterAndReplay : StepsEnterAndReplay := by
  intro s c e hwf x
  refine ⟨fun a ar n h => ?_, fun st ar hp live hover harray hslot => ?_, fun st ar tile hp live hover harray hslot htile => ?_⟩
  · intro d h' len
    obtain ⟨read, nums⟩ := State.readStep_reads (c := c) hwf d (a.steps * geomRows (sGeom d)) n
    obtain ⟨⟨r, rows, outs, mark⟩, hr⟩ : ∃ r, s.readStep c d (a.steps * geomRows (sGeom d)) n = r := ⟨_, rfl⟩
    have entry := stepEntry_eq h hr
    rw [hr] at read nums
    dsimp only at read nums
    obtain ⟨hp, -, -, -, -, hn, -, -⟩ := h
    obtain ⟨rowsLength, lengths⟩ := plain_lengths nums
    have few : rows.length ≤ geomRows (sGeom d) := by
      rw [rowsLength, hn]
      exact Nat.min_le_left _ _
    let pos := x.feedEntry (sGeom d)
    let f : Engine → Engine := fun y => y.entered a (x.stepIn a ar rows mark) (ar.stepOf a rows) outs pos
    let fed := r.fed c e a pos rows outs
    have only : FeedOnly r fed c e := State.fed_feedOnly (read.wf hwf) outs lengths few (contraction_le _ _) (x.feedEntry_room _)
    have change : Machine.OnlyCore fed (fed.modEng c e f) c := fed.modCore_onlyCore c fun _ => rfl
    have last : Machine.OnlyCore fed ((fed.modEng c e f).countReplay c e (sGroup d) (ar.stepOf a rows).overflow) c :=
      change.trans (State.countReplay_onlyCore _ _)
    have core : ∀ b, fed.core b = s.core b := fun b => by rw [← read.core_eq b, only.die]; rfl
    have die : SameDie s fed := by rw [SameDie, only.die, read.die]
    have entered : (fed.modEng c e f).eng c e = f x := by rw [State.eng_modEng, State.eng, core]; rfl
    obtain ⟨groups, eng, replayed⟩ := State.countReplay_eng (s := fed.modEng c e f) (c := c) (e := e) (sGroup d) (ar.stepOf a rows).overflow
    rw [entered] at eng replayed
    generalize hs' : (fed.modEng c e f).countReplay c e (sGroup d) (ar.stepOf a rows).overflow = s' at last eng
    have step : exec (.stepEntry c e) s = .next s' := by
      rw [← hs', ← entry]
      exact ev_powered s (·.stepEntry c e) hp
    refine ⟨s', x.stepIn a ar rows mark, step, by rw [eng]; rfl, rfl, by rw [eng]; rfl, rfl, rfl, rfl, rfl, nums,
      ⟨rfl, rfl, by rw [eng]; rfl, by rw [eng]; rfl, by rw [eng]; rfl, by rw [eng]; rfl, ?_⟩, by rw [eng]; rfl, fun b hb hid => ?_, fun b hb => ?_,
      fun b hb => ?_, ?_, ?_⟩
    · rw [State.group, eng]
      exact replayed
    · rw [eng] at hb
      exact UnitQ.modActive_others (q := x.q) (f := fun y => { y with steps := y.steps + 1, boundsLogged := y.boundsLogged || !outs.isEmpty })
        (fun _ => rfl) hb hid
    · rw [last.mem, only.frame b hb, read.byteAt]
    · rw [last.others b hb, core]
    · rw [SameDie, last.die, die]
    · rw [last.cnt, core]
  · intro res
    let g : Engine → Engine := fun x => { x with
      flight := x.flight.map fun f => if f.id = st.id then { f with overflow := false, chunks := res.chunks, flushed := res.flushed } else f
      zgateCount := x.zgateCount + BitVec.ofNat 64 res.gated, restore := if x.restore = .none then .none else .restored }
    have eng : (s.modEng c e g).eng c e = g x := s.eng_modEng c e g
    have step : exec (.stepReplay c e) s = .next (s.modEng c e g) := by
      rw [exec_stepReplay hp, stepReplay_here live hover harray hslot]
      rfl
    refine ⟨_, step, by rw [eng], State.modEng_congr ?_, by rw [eng], by rw [eng]⟩
    rw [eng]
  · let y := s.copyTile c e st.slot tile
    let g : Engine → Engine := fun z => { z with
      array := some y.2, toInstall := ar.slot :: z.toInstall, restore := .restoring, installCk := z.installCk + (Config.stoppedCk s.free).setWidth 64
      slots := upd z.slots ar.slot fun t => t.map fun t => { t with installed := false } }
    have copied : Reads s y.1 := s.copyTile_reads c e st.slot tile
    have step : exec (.stepReplay c e) s = .next (y.1.modEng c e g).takeFree := by
      rw [exec_stepReplay hp, stepReplay_restores live hover harray hslot]
      have htile : (s.eng c e).slots[st.slot] = some tile := htile
      have installed : (s.eng c e).installed = some ar.slot := by rw [Engine.installed, harray]; rfl
      simp only [State.restoreTile, htile, installed]
      rfl
    have eng : (y.1.modEng c e g).takeFree.eng c e = g x := (y.1.eng_modEng c e g).trans (by rw [copied.eng_eq])
    refine ⟨_, y.2, step, fun b hb => ?_, copied.sameBytes, ?_, by rw [eng], rfl, s.copyTile_els c e st.slot tile, by rw [eng], by rw [eng], by rw [eng], ?_,
      fun k hk => ?_, by rw [eng], by rw [eng], by rw [eng], ?_⟩
    · exact (State.core_modCore_other _ c b _ hb).trans (copied.core_eq b)
    · rw [copied.die]
      rfl
    · rw [eng]
      exact upd_same _ _ _
    · rw [eng]
      exact upd_other _ _ k _ hk
    · have cnt : ((y.1.modEng c e g).core c).cnt = (y.1.core c).cnt := by rw [State.core_modEng]
      exact cnt.trans (by rw [copied.core_eq])

end Sys2Proof.Claims

open Sys2Proof.Claims

/-- Settles O20: the tiles of `tilesAreStagedAndInstalled` with the steps of `stepsEnterAndReplay`. -/
theorem tilesAndStepsRunInTheirEngine : Obligations.TilesAndStepsRunInTheirEngine := ⟨tilesAreStagedAndInstalled, stepsEnterAndReplay⟩

end

/-! ## Cold reset (R195, R416) -/

section

namespace Sys2Proof.Machine

theorem core_reset (c : CoreId) : ∃ present fmax, State.reset.core c = Core.reset present fmax :=
  ⟨_, _, Vector.getElem_ofFn _⟩

theorem dieState_reset : State.reset.dieState = 0 := by
  have up : State.reset.dstate = .up := rfl
  have before : State.reset.blf.started = false := rfl
  rw [State.dieState, up, before]
  rfl

end Sys2Proof.Machine

open Sys2Proof Sys2Proof.Machine Sys2Proof.Claims

theorem unitsReset_coreReset (present : Bool) (fmax : BitVec 6) : UnitsReset (Core.reset present fmax) :=
  ⟨rfl, rfl, rfl, rfl, rfl, rfl, rfl, rfl, rfl, rfl, rfl⟩

/-- Settles O60, part by part: a register of one copy by its name, a core by `core_reset`, the other entries of a vector by their index. -/
theorem resetLeavesTheStatedValues : Obligations.ResetLeavesTheStatedValues := by
  refine ⟨Memory.empty_wf, rfl, fun _ => rfl, fun c => ?cores, dieState_reset, fun c e => ?engines, fun c => ?vectors, rfl, rfl, rfl, rfl, rfl,
    fun j => ?windows, fun n j => ?keys, fun e => ?edges, rfl, rfl, rfl, rfl, rfl, rfl, rfl, rfl, rfl, rfl, rfl, rfl, rfl, fun u => ?scrubbers,
    fun p => ?ports, fun n => ?semaphores, rfl⟩
  case cores =>
    obtain ⟨present, fmax, h⟩ := core_reset c
    rw [h]
    exact ⟨unitsReset_coreReset present fmax, rfl, rfl, rfl, rfl, rfl⟩
  case engines =>
    obtain ⟨present, fmax, h⟩ := core_reset c
    simp [h, Core.reset, Engine.reset]
  case vectors =>
    obtain ⟨present, fmax, h⟩ := core_reset c
    simp [h, Core.reset, VecEngine.reset, Sequencer.reset, seeded, BitVec.ofNat_mul]
  case windows => simp [State.reset, coldState, Spire.reset, Window.reset]
  case keys => simp [State.reset, coldState, Spire.reset]
  case edges => simp [State.reset, coldState, Edge.reset]
  case scrubbers =>
    have on : ∀ u : Fin 24, (0xFFFFFF : BitVec 24).getLsbD u = true := by decide
    refine ⟨on u, ?_⟩
    simp only [State.reset, coldState, Belfry.reset, Fin.getElem_fin, Vector.getElem_ofFn]
    split <;> rfl
  case ports => simp [State.reset, coldState, State.port, Belfry.reset, PortState.reset]
  case semaphores => simp [State.reset, coldState, Belfry.reset]

end

/-! ## Rounding (R79) -/

section

namespace Sys2Proof.Machine

open Sys2Proof.Claims

variable (x : Exact) (mode : RMode) (r : Nat) (u : Int)

/-- The places a magnitude is cut by at the unit 2^u. -/
def Exact.cut : Nat := (u - x.e).toNat

/-- The whole units of 2^u below a magnitude. -/
def Exact.whole : Nat := if x.e ≥ u then x.m * 2 ^ (x.e - u).toNat else x.m / 2 ^ x.cut u

/-- What is left of the magnitude above them, in its own last places. -/
def Exact.rest : Nat := if x.e ≥ u then 0 else x.m % 2 ^ x.cut u

/-- The decision of R79 on the rest in integers. -/
def Exact.goesUp : Bool :=
  match mode with
  | .rne => x.e < u && ((2 * x.rest u > 2 ^ x.cut u || (2 * x.rest u == 2 ^ x.cut u && x.sticky))
      || ((2 * x.rest u == 2 ^ x.cut u && !x.sticky) && x.whole u % 2 == 1))
  | .rtz => false
  | .ru => (x.rest u != 0 || x.sticky) && !x.neg
  | .rd => (x.rest u != 0 || x.sticky) && x.neg
  | .sr => decide (65536 ≤ x.rest u * 65536 / 2 ^ x.cut u + r)

theorem roundAt_eq : roundAt mode r x u = (x.whole u + b2n (x.goesUp mode r u), x.rest u != 0 || x.sticky) := rfl

theorem Exact.rest_lt : x.rest u < 2 ^ x.cut u := by
  unfold Exact.rest
  split
  · positivity
  · exact Nat.mod_lt _ (by positivity)

theorem Exact.rest_of_le (h : u ≤ x.e) : x.rest u = 0 := if_pos h

/-- A magnitude is its whole units and the rest. -/
theorem exactSize_eq : exactSize x = (x.whole u + x.rest u / 2 ^ x.cut u) * (2 : ℚ) ^ u := by
  unfold exactSize Exact.whole Exact.rest
  split
  case isTrue h =>
    obtain ⟨k, hk⟩ := Int.eq_ofNat_of_zero_le (a := x.e - u) (by omega)
    have he : x.e = k + u := by omega
    rw [hk, Int.toNat_natCast, he, zpow_add₀ two_ne_zero]
    push_cast
    simp only [zpow_natCast]
    ring
  case isFalse h =>
    have hu : u = x.cut u + x.e := by unfold Exact.cut; omega
    have split : (x.m : ℚ) = 2 ^ x.cut u * (x.m / 2 ^ x.cut u : Nat) + (x.m % 2 ^ x.cut u : Nat) := by exact_mod_cast (Nat.div_add_mod _ _).symm
    generalize x.cut u = k at hu split ⊢
    have pos : (2 : ℚ) ^ k ≠ 0 := by positivity
    rw [hu, zpow_add₀ two_ne_zero, zpow_natCast]
    field_simp
    rw [split, mul_comm]

/-- Of n + f units, n are the whole ones and f is the rest. -/
theorem whole_rest_of_exactSize {n : ℤ} {f : ℚ} (h : exactSize x = (n + f) * (2 : ℚ) ^ u) (h0 : 0 ≤ f) (h1 : f < 1) :
    n = x.whole u ∧ f = x.rest u / 2 ^ x.cut u := by
  have unit : (2 : ℚ) ^ u ≠ 0 := zpow_ne_zero _ two_ne_zero
  have same : (n : ℚ) + f = x.whole u + x.rest u / 2 ^ x.cut u := mul_right_cancel₀ unit (h.symm.trans (exactSize_eq x u))
  have rest0 : (0 : ℚ) ≤ x.rest u / 2 ^ x.cut u := by positivity
  have rest1 : (x.rest u : ℚ) / 2 ^ x.cut u < 1 := by
    rw [div_lt_one (by positivity)]
    exact_mod_cast x.rest_lt u
  have hn : n = x.whole u := by
    have below : ((n - x.whole u : ℤ) : ℚ) < 1 := by push_cast; linarith
    have above : (-1 : ℚ) < (n - x.whole u : ℤ) := by push_cast; linarith
    have : n - x.whole u < 1 := by exact_mod_cast below
    have : -1 < n - x.whole u := by exact_mod_cast above
    omega
  refine ⟨hn, ?_⟩
  rw [hn] at same
  push_cast at same
  linarith

/-- The decision in integers is R79's. -/
theorem goesUp_iff (exact : x.sticky = false) : x.goesUp mode r u = true ↔ roundsAway mode x.neg r (x.whole u) (x.rest u / 2 ^ x.cut u) := by
  have rest0 : (0 : ℚ) < x.rest u / 2 ^ x.cut u ↔ x.rest u ≠ 0 := by
    rw [div_pos_iff_of_pos_right (by positivity), Nat.cast_pos, Nat.pos_iff_ne_zero]
  have half : (x.rest u : ℚ) / 2 ^ x.cut u > 1 / 2 ↔ 2 * x.rest u > 2 ^ x.cut u := by
    rw [gt_iff_lt, div_lt_div_iff₀ two_pos (by positivity), one_mul, mul_comm]
    exact_mod_cast Iff.rfl
  have tie : (x.rest u : ℚ) / 2 ^ x.cut u = 1 / 2 ↔ 2 * x.rest u = 2 ^ x.cut u := by
    rw [div_eq_div_iff (by positivity) two_ne_zero, one_mul, mul_comm]
    exact_mod_cast Iff.rfl
  cases mode with
  | rne =>
    have short : x.rest u ≠ 0 → x.e < u := fun h => by by_contra hu; exact h (x.rest_of_le u (by omega))
    have pos : 0 < 2 ^ x.cut u := Nat.two_pow_pos _
    have odd : (x.whole u : ℤ) % 2 = 1 ↔ x.whole u % 2 = 1 := by omega
    simp only [Exact.goesUp, roundsAway, exact, half, tie, odd]
    simp
    omega
  | rtz => simp [Exact.goesUp, roundsAway]
  | ru => simp only [Exact.goesUp, roundsAway, rest0, exact]; simp
  | rd => simp only [Exact.goesUp, roundsAway, rest0, exact]; simp
  | sr =>
    have floor : ⌊(x.rest u : ℚ) / 2 ^ x.cut u * 65536⌋ = ((x.rest u * 65536 / 2 ^ x.cut u : Nat) : ℤ) := by
      have := Rat.floor_intCast_div_natCast (x.rest u * 65536 : ℤ) (2 ^ x.cut u)
      push_cast at this ⊢
      rw [← this]
      congr 1
      ring
    simp only [Exact.goesUp, roundsAway, floor, decide_eq_true_eq]
    omega

end Sys2Proof.Machine

open Sys2Proof Sys2Proof.Machine Sys2Proof.Claims

/-- Settles O1: n is the whole units and f the rest (`whole_rest_of_exactSize`), on which the model decides as R79 does (`goesUp_iff`). -/
theorem roundingFollowsTheModes : Obligations.RoundingFollowsTheModes := by
  intro mode r x u exact n f h h0 h1
  obtain ⟨hn, hf⟩ := whole_rest_of_exactSize x u h h0 h1
  have away := goesUp_iff x mode r u exact
  have inexact : x.rest u ≠ 0 ↔ f ≠ 0 := by
    rw [hf, Ne, Ne, div_eq_zero_iff]
    simp
  rw [← hf, ← hn] at away
  rw [roundAt_eq, ← away, ← inexact, exact, hn]
  cases x.goesUp mode r u <;> simp [b2n]

end

/-! ## Encodings: sign and magnitude, the input flush, MAX and MIN (R70, R85, R94) -/

section

namespace Sys2Proof.Machine

open Sys2Proof.Claims

variable (f : Fmt)

/-! ### Sign and magnitude -/

/-- The weight of a sign. -/
def Fmt.sign (neg : Bool) : Nat := if neg then f.signBit else 0

theorem Fmt.signBit_pos : 0 < f.signBit := Nat.two_pow_pos _

theorem width_eq : 2 ^ width f = 2 * f.signBit := by
  rw [width, Fmt.signBit, Nat.add_assoc, Nat.add_comm 1, Nat.pow_succ, Nat.mul_comm]

theorem Fmt.mag_lt (b : Nat) : f.mag b < f.signBit := Nat.mod_lt _ f.signBit_pos

theorem Fmt.neg_eq (b : Nat) : f.neg b = decide (b / f.signBit % 2 = 1) := by
  rw [Fmt.neg, bitOf, field, Nat.shiftRight_eq_div_pow, Nat.pow_one, Fmt.signBit]
  rfl

variable {f}

theorem Fmt.neg_sign_add (n : Bool) {m : Nat} (h : m < f.signBit) : f.neg (f.sign n + m) = n := by
  have pos := f.signBit_pos
  rw [Fmt.neg_eq, Fmt.sign]
  cases n <;> simp [Nat.div_eq_of_lt h, Nat.add_div_left _ pos]

theorem Fmt.mag_sign_add (n : Bool) {m : Nat} (h : m < f.signBit) : f.mag (f.sign n + m) = m := by
  rw [Fmt.mag, Fmt.sign]
  cases n <;> simp [Nat.mod_eq_of_lt h]

theorem Fmt.sign_add_lt (n : Bool) {m : Nat} (h : m < f.signBit) : f.sign n + m < 2 ^ width f := by
  rw [width_eq, Fmt.sign]
  split <;> omega

theorem Fmt.sign_add_mag {b : Nat} (h : b < 2 ^ width f) : f.sign (f.neg b) + f.mag b = b := by
  have quotient : b / f.signBit < 2 := by
    rw [Nat.div_lt_iff_lt_mul f.signBit_pos, ← width_eq]
    exact h
  have split : f.signBit * (b / f.signBit) + b % f.signBit = b := Nat.div_add_mod _ _
  rw [Fmt.neg_eq, Fmt.sign, Fmt.mag]
  interval_cases b / f.signBit <;> simp_all

/-- Encodings have different places in the order of Table NUM-9. -/
theorem orderKey_injective {a b : Nat} (ha : a < 2 ^ width f) (hb : b < 2 ^ width f) (h : orderKey f a = orderKey f b) : a = b := by
  have signs : f.neg a = f.neg b ∧ f.mag a = f.mag b := by
    unfold orderKey at h
    split at h <;> split at h <;> simp_all <;> omega
  rw [← Fmt.sign_add_mag ha, ← Fmt.sign_add_mag hb, signs.1, signs.2]

/-! ### The input flush (R85) -/

theorem flushIn_fst (subn : Bool) (b : Nat) : (flushIn f subn b).1 = if !subn && f.subnormal b then f.sign (f.neg b) else b := by
  unfold flushIn Fmt.sign
  split <;> rfl

theorem flushIn_snd (subn : Bool) (b : Nat) : (flushIn f subn b).2 = if !subn && f.subnormal b then fFLUSH else 0 := by
  unfold flushIn
  split <;> rfl

theorem flushIn_lt (subn : Bool) {b : Nat} (h : b < 2 ^ width f) : (flushIn f subn b).1 < 2 ^ width f := by
  rw [flushIn_fst]
  split
  · exact Fmt.sign_add_lt (m := 0) _ f.signBit_pos
  · exact h

/-- FLUSH is the one flag a flush sets. -/
theorem flushIn_flag (subn : Bool) (b k : Nat) : (flushIn f subn b).2.getLsbD k = (k == 4 && (!subn && f.subnormal b)) := by
  rw [flushIn_snd]
  split
  case isTrue h =>
    have : fFLUSH = BitVec.twoPow 8 4 := rfl
    rw [this, BitVec.getLsbD_twoPow, h]
    simp [eq_comm, beq_eq_decide]
  case isFalse h => simp [h]

/-! ### MAX and MIN -/

/-- NV where an operand is a signalling NaN. -/
def sigFlag (x y : FVal) : Flags := if x.isSig || y.isSig then fNV else 0

/-- The choice between two flushed operands (Table NUM-9). -/
def maxMinOf (f : Fmt) (up : Bool) (x y : Nat) : Nat :=
  if (decodeF f x).isNan && (decodeF f y).isNan then f.nanBits
  else if (decodeF f x).isNan then y else if (decodeF f y).isNan then x
  else if (orderKey f x < orderKey f y) == up then y else x

theorem fMaxMin_eq (up subn : Bool) (a b : Nat) : fMaxMin up f subn a b =
    (maxMinOf f up (flushIn f subn a).1 (flushIn f subn b).1,
      (flushIn f subn a).2 ||| (flushIn f subn b).2 ||| sigFlag (decodeF f (flushIn f subn a).1) (decodeF f (flushIn f subn b).1)) := rfl

theorem sigFlag_bit (x y : FVal) (k : Nat) : (sigFlag x y).getLsbD k = (k == 0 && (x.isSig || y.isSig)) := by
  unfold sigFlag
  split
  case isTrue h =>
    have : fNV = BitVec.twoPow 8 0 := rfl
    rw [this, BitVec.getLsbD_twoPow, h]
    simp [eq_comm, beq_eq_decide]
  case isFalse h => simp [h]

section

variable (up : Bool) {x y : Nat}

theorem maxMinOf_comm (hx : x < 2 ^ width f) (hy : y < 2 ^ width f) : maxMinOf f up x y = maxMinOf f up y x := by
  unfold maxMinOf
  cases (decodeF f x).isNan <;> cases (decodeF f y).isNan <;> simp
  rcases lt_trichotomy (orderKey f x) (orderKey f y) with h | h | h
  · cases up <;> simp [h, h.le.not_gt]
  · rw [orderKey_injective hx hy h]
  · cases up <;> simp [h, h.le.not_gt]

theorem maxMinOf_nans (hx : (decodeF f x).isNan = true) (hy : (decodeF f y).isNan = true) : maxMinOf f up x y = f.nanBits := by
  simp [maxMinOf, hx, hy]

theorem maxMinOf_number (hx : (decodeF f x).isNan = false) (hy : (decodeF f y).isNan = true) : maxMinOf f up x y = x := by
  simp [maxMinOf, hx, hy]

theorem maxMinOf_numbers (hx : (decodeF f x).isNan = false) (hy : (decodeF f y).isNan = false) :
    (maxMinOf f up x y = x ∨ maxMinOf f up x y = y) ∧ if up then orderKey f x ≤ orderKey f (maxMinOf f up x y) ∧ orderKey f y ≤ orderKey f (maxMinOf f up x y)
      else orderKey f (maxMinOf f up x y) ≤ orderKey f x ∧ orderKey f (maxMinOf f up x y) ≤ orderKey f y := by
  by_cases h : orderKey f x < orderKey f y <;> cases up <;> simp [maxMinOf, hx, hy, h] <;> omega

end

end Sys2Proof.Machine

open Sys2Proof Sys2Proof.Machine Sys2Proof.Claims

/-- Settles O3, by the choice `maxMinOf` between the flushed operands and the flags of the flushes and of a signalling NaN. -/
theorem maxAndMinFollowTheirTable : Obligations.MaxAndMinFollowTheirTable := by
  intro up subn f a b _ ha hb x y out
  have hx : x < 2 ^ width f := flushIn_lt subn ha
  have hy : y < 2 ^ width f := flushIn_lt subn hb
  have value : out.1 = maxMinOf f up x y := rfl
  have flag : ∀ k, out.2.getLsbD k = ((k == 4 && (!subn && f.subnormal a)) || (k == 4 && (!subn && f.subnormal b))
      || (k == 0 && ((decodeF f x).isSig || (decodeF f y).isSig))) := fun k => by
    rw [congrArg Prod.snd (fMaxMin_eq up subn a b), BitVec.getLsbD_or, BitVec.getLsbD_or, flushIn_flag, flushIn_flag, sigFlag_bit]
  refine ⟨?_, fun nx ny => maxMinOf_nans up nx ny, fun nx ny => maxMinOf_number up nx ny, fun nx ny => maxMinOf_numbers up nx ny, ?_, ?_⟩
  · refine Prod.ext (maxMinOf_comm up hx hy) ?_
    have sig : sigFlag (decodeF f x) (decodeF f y) = sigFlag (decodeF f y) (decodeF f x) := by rw [sigFlag, sigFlag, Bool.or_comm]
    rw [show out = _ from fMaxMin_eq up subn a b, fMaxMin_eq, sig, BitVec.or_comm (flushIn f subn a).2]
  · rw [flag]
    simp
  · rw [flag]
    cases subn <;> simp

end

/-! ## Narrowing (R79, R82, R84, R85, R93) -/

section

namespace Sys2Proof.Machine

open Sys2Proof.Claims

/-! ### What the formats' numbers have to do with one another (Tables NUM-1, NUM-2) -/

/-- The exponent field of the largest finite value. -/
def Fmt.top (f : Fmt) : Nat := if f = .e4m3 then 15 else 2 ^ f.ebits - 2

section

variable (f : Fmt)

theorem Fmt.emin_add_bias : f.emin + f.bias = 1 := by simp [Fmt.emin]

theorem Fmt.emax_add_bias : f.emax + f.bias = f.top := by cases f <;> rfl

theorem Fmt.top_pos : 0 < f.top := by cases f <;> decide

theorem Fmt.maxSig_bounds : 2 ^ f.mbits ≤ f.maxSig ∧ f.maxSig < 2 ^ (f.mbits + 1) := by cases f <;> decide

theorem Fmt.maxBits_eq : f.maxBits + 2 ^ f.mbits = f.top * 2 ^ f.mbits + f.maxSig := by cases f <;> rfl

theorem Fmt.maxBits_lt : f.maxBits < f.signBit := by cases f <;> decide

theorem Fmt.infBits_lt : f.infBits < f.signBit := by cases f <;> decide

theorem Fmt.nanBits_lt : f.nanBits < f.signBit := by cases f <;> decide

/-- Up to the largest finite magnitude an encoding is a number. -/
theorem decodeF_finite {b : Nat} (h : f.mag b ≤ f.maxBits) : decodeF f b =
    if f.mag b / 2 ^ f.mbits = 0 then .fin (f.neg b) (f.mag b % 2 ^ f.mbits) (f.emin - f.mbits)
    else .fin (f.neg b) (2 ^ f.mbits + f.mag b % 2 ^ f.mbits) ((f.mag b / 2 ^ f.mbits : Nat) - f.bias - f.mbits) := by
  have number : ¬ (f = .e4m3 ∧ f.mag b / 2 ^ f.mbits = 15 ∧ f.mag b % 2 ^ f.mbits = 7) ∧ ¬ (f ≠ .e4m3 ∧ f.mag b / 2 ^ f.mbits = 2 ^ f.ebits - 1) := by
    generalize f.mag b = m at h
    cases f <;> simp [Fmt.maxBits, Fmt.mbits, Fmt.ebits] at h ⊢ <;> omega
  unfold decodeF
  extract_lets neg ex m
  rw [if_neg number.1, if_neg number.2]

end

/-! ### Bounds of a rounded magnitude -/

section

variable (x : Exact) (mode : RMode) (r : Nat)

/-- The exponent of the leading bit as `roundTo` takes it. -/
def Exact.lead : Int := if x.m = 0 then x.e - 1 else x.exp

theorem Exact.lead_of_ne (h : x.m ≠ 0) : x.lead = x.exp := if_neg h

variable {x} {u : Int} {k : Nat}

theorem Exact.whole_lt (h : x.lead - k ≤ u) : x.whole u < 2 ^ (k + 1) := by
  unfold Exact.whole
  by_cases hm : x.m = 0
  · simp [hm]
  rw [x.lead_of_ne hm, Exact.exp] at h
  have top : x.m < 2 ^ (x.m.log2 + 1) := Nat.lt_log2_self
  split
  · calc x.m * 2 ^ (x.e - u).toNat < 2 ^ (x.m.log2 + 1) * 2 ^ (x.e - u).toNat := Nat.mul_lt_mul_of_pos_right top (by positivity)
      _ = 2 ^ (x.m.log2 + 1 + (x.e - u).toNat) := (Nat.pow_add _ _ _).symm
      _ ≤ 2 ^ (k + 1) := Nat.pow_le_pow_right two_pos (by omega)
  · rw [Nat.div_lt_iff_lt_mul (by positivity), ← Nat.pow_add]
    exact top.trans_le (Nat.pow_le_pow_right two_pos (by unfold Exact.cut; omega))

theorem Exact.le_whole (hm : x.m ≠ 0) (h : u = x.exp - k) : 2 ^ k ≤ x.whole u := by
  unfold Exact.whole
  rw [Exact.exp] at h
  have low : 2 ^ x.m.log2 ≤ x.m := Nat.log2_self_le hm
  split
  · calc 2 ^ k = 2 ^ (x.m.log2 + (x.e - u).toNat) := by congr 1; omega
      _ = 2 ^ x.m.log2 * 2 ^ (x.e - u).toNat := Nat.pow_add _ _ _
      _ ≤ x.m * 2 ^ (x.e - u).toNat := Nat.mul_le_mul_right _ low
  · rw [Nat.le_div_iff_mul_le (by positivity), ← Nat.pow_add]
    exact (Nat.pow_le_pow_right two_pos (by unfold Exact.cut; omega)).trans low

theorem roundAt_le (h : x.lead - k ≤ u) : (roundAt mode r x u).1 ≤ 2 ^ (k + 1) := by
  have := Exact.whole_lt h
  rw [roundAt_eq, b2n]
  split <;> omega

theorem le_roundAt (hm : x.m ≠ 0) (h : u = x.exp - k) : 2 ^ k ≤ (roundAt mode r x u).1 :=
  (Exact.le_whole hm h).trans (Nat.le_add_right _ _)

end

/-! ### `roundTo` in named parts -/

section

variable (f : Fmt) (mode : RMode) (r : Nat) (sat subn : Bool) (x : Exact)

/-- The exponent of the rounding unit. -/
def Exact.unitOf : Int := max x.lead f.emin - f.mbits

/-- Tiny after rounding with an unbounded exponent (R84). -/
def tinyIn : Bool :=
  x.lead < f.emin && !((roundAt mode r x (x.lead - f.mbits)).1 == 2 ^ (f.mbits + 1) && x.lead + 1 == f.emin)

/-- `n` units of 2^u lie above the largest finite value. -/
def exceeds (u : Int) (n : Nat) : Bool := u > f.emax - f.mbits || (u == f.emax - f.mbits && n > f.maxSig)

/-- The encoding of `n` units of 2^u without its sign. -/
def unitBits (u : Int) (n : Nat) : Nat := (u + f.mbits + f.bias).toNat * 2 ^ f.mbits + n - 2 ^ f.mbits

/-- NX, with UF where the result is tiny as well. -/
def inexactFlags (inexact tiny : Bool) : Flags := (if inexact then fNX else 0) ||| (if tiny && inexact then fUF else 0)

theorem roundTo_eq : roundTo f mode r sat subn x =
    if x.m = 0 ∧ x.sticky = false then (f.sign x.neg, 0)
    else if tinyIn f mode r x && !subn then (f.sign x.neg, fFLUSH ||| fUF ||| fNX)
    else if exceeds f (x.unitOf f) (roundAt mode r x (x.unitOf f)).1 then (overflowBits f mode sat x.neg, fOF ||| fNX)
    else (f.sign x.neg + unitBits f (x.unitOf f) (roundAt mode r x (x.unitOf f)).1,
      inexactFlags (roundAt mode r x (x.unitOf f)).2 (tinyIn f mode r x)) := rfl

/-- The overflow result of Table NUM-4 without its sign. -/
def overflowMag (neg : Bool) : Nat :=
  if sat = true ∨ mode = .rtz ∨ (mode = .rd ∧ neg = false) ∨ (mode = .ru ∧ neg = true) then f.maxBits else f.infBits

theorem overflowBits_eq (neg : Bool) : overflowBits f mode sat neg = f.sign neg + overflowMag f mode sat neg := by
  simp only [overflowBits, overflowMag, Fmt.sign]

theorem overflowMag_lt (neg : Bool) : overflowMag f mode sat neg < f.signBit := by
  unfold overflowMag
  split
  · exact f.maxBits_lt
  · exact f.infBits_lt

end

/-! ### The encoding of the rounded value -/

section

variable {f : Fmt} {u : Int} {n : Nat}

theorem unitBits_le (hu : f.emin - f.mbits ≤ u) (hn : n ≤ 2 ^ (f.mbits + 1)) (h : exceeds f u n = false) : unitBits f u n ≤ f.maxBits := by
  have bias := f.emin_add_bias
  have top := f.emax_add_bias
  have sig := f.maxBits_eq
  have one := f.maxSig_bounds.1
  simp only [exceeds, Bool.or_eq_false_iff, Bool.and_eq_false_iff, decide_eq_false_iff_not, beq_eq_false_iff_ne] at h
  unfold unitBits
  rw [Nat.pow_succ] at hn
  by_cases last : u = f.emax - f.mbits
  · have : (u + f.mbits + f.bias).toNat = f.top := by omega
    rw [this]
    omega
  · have : (u + f.mbits + f.bias).toNat + 1 ≤ f.top := by omega
    have := Nat.mul_le_mul_right (2 ^ f.mbits) this
    rw [Nat.add_mul] at this
    omega

theorem magnitude_unitBits (neg : Bool) (hu : f.emin - f.mbits ≤ u) (hn : n ≤ 2 ^ (f.mbits + 1)) (hnormal : f.emin - f.mbits < u → 2 ^ f.mbits ≤ n)
    (h : exceeds f u n = false) : magnitude (decodeF f (f.sign neg + unitBits f u n)) = some ((n : ℚ) * (2 : ℚ) ^ u) := by
  have le := unitBits_le hu hn h
  have mag : f.mag (f.sign neg + unitBits f u n) = unitBits f u n := Fmt.mag_sign_add neg (le.trans_lt f.maxBits_lt)
  have bias := f.emin_add_bias
  obtain ⟨E, hE⟩ : ∃ E : Nat, u = E - f.bias - f.mbits := ⟨(u + f.mbits + f.bias).toNat, by omega⟩
  have bits : unitBits f u n + 2 ^ f.mbits = E * 2 ^ f.mbits + n := by
    have one := Nat.mul_le_mul_right (2 ^ f.mbits) (show 1 ≤ E by omega)
    have : (u + f.mbits + f.bias).toNat = E := by omega
    rw [unitBits, this]
    omega
  have pos : 0 < 2 ^ f.mbits := Nat.two_pow_pos _
  rw [decodeF_finite f (by rw [mag]; exact le), mag]
  rw [Nat.pow_succ] at hn
  rcases Nat.lt_or_ge n (2 ^ f.mbits) with small | large
  · have first : E = 1 := by omega
    have : unitBits f u n = n := by rw [first] at bits; omega
    rw [this, Nat.div_eq_of_lt small, if_pos rfl, Nat.mod_eq_of_lt small, show f.emin - f.mbits = u by omega, magnitude]
  rcases Nat.lt_or_ge n (2 * 2 ^ f.mbits) with normal | carry
  · have split : unitBits f u n = (n - 2 ^ f.mbits) + E * 2 ^ f.mbits := by omega
    have div : unitBits f u n / 2 ^ f.mbits = E := by rw [split, Nat.add_mul_div_right _ _ pos, Nat.div_eq_of_lt (by omega), Nat.zero_add]
    have mod : 2 ^ f.mbits + unitBits f u n % 2 ^ f.mbits = n := by
      rw [split, Nat.add_mul_mod_self_right, Nat.mod_eq_of_lt (by omega)]
      omega
    rw [div, mod, if_neg (by omega), ← hE, magnitude]
  · have split : unitBits f u n = (E + 1) * 2 ^ f.mbits := by rw [Nat.add_mul]; omega
    have twice : (n : ℚ) = 2 ^ f.mbits * 2 := by exact_mod_cast (show n = 2 ^ f.mbits * 2 by omega)
    have next : ((E + 1 : Nat) : ℤ) - f.bias - f.mbits = u + 1 := by omega
    rw [split, Nat.mul_div_cancel _ pos, Nat.mul_mod_left, if_neg (by omega), next, magnitude, twice, zpow_add_one₀ two_ne_zero]
    push_cast
    ring_nf

/-- The largest finite value is exceeded by the number of units and their exponent. -/
theorem exceeds_iff (hn : n ≤ 2 ^ (f.mbits + 1)) (hnormal : f.emin - f.mbits < u → 2 ^ f.mbits ≤ n) :
    exceeds f u n = true ↔ largest f < (n : ℚ) * (2 : ℚ) ^ u := by
  obtain ⟨low, high⟩ := f.maxSig_bounds
  have bias := f.emin_add_bias
  have top := f.emax_add_bias
  have tops := f.top_pos
  have unit : ∀ e : ℤ, (0 : ℚ) < 2 ^ e := fun e => by positivity
  rw [largest]
  rcases lt_trichotomy u (f.emax - f.mbits) with below | last | above
  · have no : exceeds f u n = false := by simp [exceeds]; omega
    obtain ⟨d, hd⟩ := Int.eq_ofNat_of_zero_le (a := f.emax - f.mbits - u - 1) (by omega)
    have hd : f.emax - f.mbits = u + (d + 1 : Nat) := by push_cast; omega
    have : n ≤ f.maxSig * 2 ^ (d + 1) := by
      have := Nat.mul_le_mul low (Nat.pow_le_pow_right two_pos (show 1 ≤ d + 1 by omega))
      rw [Nat.pow_one, ← Nat.pow_succ] at this
      exact hn.trans this
    have le : (n : ℚ) * 2 ^ u ≤ f.maxSig * 2 ^ (f.emax - f.mbits) := by
      rw [hd, zpow_add₀ two_ne_zero, zpow_natCast, mul_comm ((2 : ℚ) ^ u), ← mul_assoc]
      exact mul_le_mul_of_nonneg_right (by exact_mod_cast this) (unit u).le
    simp [no, le]
  · subst last
    rw [mul_lt_mul_iff_left₀ (unit _)]
    simp [exceeds]
  · have yes : exceeds f u n = true := by simp [exceeds]; omega
    obtain ⟨d, hd⟩ := Int.eq_ofNat_of_zero_le (a := u - (f.emax - f.mbits) - 1) (by omega)
    have hd : u = f.emax - f.mbits + (d + 1 : Nat) := by push_cast; omega
    have : f.maxSig < n * 2 ^ (d + 1) := by
      have := Nat.mul_le_mul (hnormal (by omega)) (Nat.pow_le_pow_right two_pos (show 1 ≤ d + 1 by omega))
      rw [Nat.pow_one, ← Nat.pow_succ] at this
      exact high.trans_le this
    have lt : (f.maxSig : ℚ) * 2 ^ (f.emax - f.mbits) < n * 2 ^ u := by
      rw [hd, zpow_add₀ two_ne_zero, zpow_natCast, mul_comm ((2 : ℚ) ^ (f.emax - f.mbits)), ← mul_assoc]
      exact mul_lt_mul_of_pos_right (by exact_mod_cast this) (unit _)
    simp [yes, lt]

end

section

variable (f : Fmt) (mode : RMode) (r : Nat) (sat subn : Bool) (x : Exact)

theorem Exact.emin_le_unitOf : f.emin - f.mbits ≤ x.unitOf f := by unfold Exact.unitOf; omega

theorem roundAt_unitOf_le : (roundAt mode r x (x.unitOf f)).1 ≤ 2 ^ (f.mbits + 1) := roundAt_le mode r (by unfold Exact.unitOf; omega)

theorem le_roundAt_unitOf (hm : x.m ≠ 0) (h : f.emin - f.mbits < x.unitOf f) : 2 ^ f.mbits ≤ (roundAt mode r x (x.unitOf f)).1 :=
  le_roundAt mode r hm (by rw [← x.lead_of_ne hm]; unfold Exact.unitOf at h ⊢; omega)

/-- R84 in the value rounded with an unbounded exponent. -/
theorem tinyIn_iff (hm : x.m ≠ 0) : tinyIn f mode r x = true ↔
    ((roundAt mode r x (x.exp - f.mbits)).1 : ℚ) * (2 : ℚ) ^ (x.exp - f.mbits) < (2 : ℚ) ^ f.emin := by
  have low := le_roundAt mode r (k := f.mbits) hm rfl
  have high : (roundAt mode r x (x.exp - f.mbits)).1 ≤ 2 ^ (f.mbits + 1) := roundAt_le mode r (by rw [x.lead_of_ne hm])
  simp only [tinyIn, x.lead_of_ne hm]
  generalize (roundAt mode r x (x.exp - f.mbits)).1 = n at low high ⊢
  rcases lt_trichotomy (x.exp + 1) f.emin with below | at_ | above
  · have yes : x.exp < f.emin ∧ x.exp + 1 ≠ f.emin := by omega
    have lt : (n : ℚ) * 2 ^ (x.exp - f.mbits) < 2 ^ f.emin := calc
      (n : ℚ) * 2 ^ (x.exp - f.mbits) ≤ 2 ^ (f.mbits + 1) * 2 ^ (x.exp - f.mbits) := mul_le_mul_of_nonneg_right (by exact_mod_cast high) (by positivity)
      _ = 2 ^ (x.exp + 1) := by rw [← zpow_natCast, ← zpow_add₀ two_ne_zero]; congr 1; push_cast; ring
      _ < 2 ^ f.emin := zpow_lt_zpow_right₀ one_lt_two below
    simp [yes.1, yes.2, lt]
  · have split : (2 : ℚ) ^ f.emin = 2 ^ (f.mbits + 1) * 2 ^ (x.exp - f.mbits) := by
      rw [← at_, ← zpow_natCast, ← zpow_add₀ two_ne_zero]
      congr 1
      push_cast
      ring
    have lt : (n : ℚ) * 2 ^ (x.exp - f.mbits) < 2 ^ f.emin ↔ n < 2 ^ (f.mbits + 1) := by
      rw [split, mul_lt_mul_iff_left₀ (by positivity)]
      exact_mod_cast Iff.rfl
    rw [lt]
    simp [← at_]
    omega
  · have no : ¬ x.exp < f.emin := by omega
    have le : (2 : ℚ) ^ f.emin ≤ n * 2 ^ (x.exp - f.mbits) := calc
      (2 : ℚ) ^ f.emin ≤ 2 ^ x.exp := zpow_le_zpow_right₀ one_le_two (by omega)
      _ = 2 ^ f.mbits * 2 ^ (x.exp - f.mbits) := by rw [← zpow_natCast, ← zpow_add₀ two_ne_zero]; congr 1; ring
      _ ≤ n * 2 ^ (x.exp - f.mbits) := mul_le_mul_of_nonneg_right (by exact_mod_cast low) (by positivity)
    simp [no, le]

/-- An encoding of `roundTo`: a sign and a magnitude within the format. -/
theorem roundTo_signed : ∃ m, (roundTo f mode r sat subn x).1 = f.sign x.neg + m ∧ m < f.signBit := by
  rw [roundTo_eq]
  split_ifs with zero tiny above
  · exact ⟨0, rfl, f.signBit_pos⟩
  · exact ⟨0, rfl, f.signBit_pos⟩
  · exact ⟨_, overflowBits_eq f mode sat x.neg, overflowMag_lt f mode sat x.neg⟩
  · exact ⟨_, rfl, (unitBits_le (x.emin_le_unitOf f) (roundAt_unitOf_le f mode r x) (by simpa using above)).trans_lt f.maxBits_lt⟩

theorem roundTo_lt : (roundTo f mode r sat subn x).1 < 2 ^ width f := by
  obtain ⟨m, hm, lt⟩ := roundTo_signed f mode r sat subn x
  rw [hm]
  exact Fmt.sign_add_lt _ lt

theorem roundTo_neg : f.neg (roundTo f mode r sat subn x).1 = x.neg := by
  obtain ⟨m, hm, lt⟩ := roundTo_signed f mode r sat subn x
  rw [hm]
  exact Fmt.neg_sign_add _ lt

variable {f mode r sat subn x}

theorem roundTo_flushed (hm : x.m ≠ 0) (h : tinyIn f mode r x = true) (hs : subn = false) :
    f.mag (roundTo f mode r sat subn x).1 = 0 ∧ (roundTo f mode r sat subn x).2 = fFLUSH ||| fUF ||| fNX := by
  rw [roundTo_eq, if_neg (by simp [hm]), if_pos (by simp [h, hs])]
  exact ⟨Fmt.mag_sign_add (m := 0) _ f.signBit_pos, rfl⟩

variable (hm : x.m ≠ 0) (h : ¬ (tinyIn f mode r x = true ∧ subn = false))
include hm h

theorem roundTo_overflow (above : exceeds f (x.unitOf f) (roundAt mode r x (x.unitOf f)).1 = true) :
    (roundTo f mode r sat subn x).2 = fOF ||| fNX ∧ f.mag (roundTo f mode r sat subn x).1 = overflowMag f mode sat x.neg := by
  rw [roundTo_eq, if_neg (by simp [hm]), if_neg (by simpa using h), if_pos above, overflowBits_eq]
  exact ⟨rfl, Fmt.mag_sign_add _ (overflowMag_lt f mode sat x.neg)⟩

theorem roundTo_rounded (fits : exceeds f (x.unitOf f) (roundAt mode r x (x.unitOf f)).1 = false) : roundTo f mode r sat subn x =
    (f.sign x.neg + unitBits f (x.unitOf f) (roundAt mode r x (x.unitOf f)).1, inexactFlags (roundAt mode r x (x.unitOf f)).2 (tinyIn f mode r x)) := by
  rw [roundTo_eq, if_neg (by simp [hm]), if_neg (by simpa using h), if_neg (by simp [fits])]

end

theorem inexactFlags_bits (inexact tiny : Bool) : (inexactFlags inexact tiny).getLsbD 3 = inexact ∧ (inexactFlags inexact tiny).getLsbD 2 = (tiny && inexact)
    ∧ (inexactFlags inexact tiny).getLsbD 1 = false ∧ (inexactFlags inexact tiny).getLsbD 0 = false ∧ (inexactFlags inexact tiny).getLsbD 4 = false := by
  cases inexact <;> cases tiny <;> decide

end Sys2Proof.Machine

namespace Sys2Proof.Claims

open Sys2Proof.Machine

/-- O2 (a): a tiny result flushed, an overflow, or the encoding of the rounded units. -/
theorem narrowingDeliversTheRoundedValue : NarrowingDeliversTheRoundedValue := by
  intro f mode r sat subn x exact hm u n out whole tiny
  have unit : u = x.unitOf f := by rw [Exact.unitOf, x.lead_of_ne hm]; rfl
  have tiny_iff : tinyIn f mode r x = true ↔ tiny := tinyIn_iff f mode r x hm
  have few : n ≤ 2 ^ (f.mbits + 1) := by simp only [n, unit]; exact roundAt_unitOf_le f mode r x
  have normal : f.emin - f.mbits < u → 2 ^ f.mbits ≤ n := by simp only [n, unit]; exact le_roundAt_unitOf f mode r x hm
  have excess := exceeds_iff few normal
  refine ⟨roundTo_lt f mode r sat subn x, roundTo_neg f mode r sat subn x, fun ht hs => roundTo_flushed hm (tiny_iff.mpr ht) hs, fun ht above => ?_,
    fun ht fits => ?_⟩
  · rw [← tiny_iff] at ht
    exact roundTo_overflow hm ht (unit ▸ excess.mpr above)
  · rw [← tiny_iff] at ht
    have fits : exceeds f u n = false := by rw [← Bool.not_eq_true, excess]; exact not_lt.mpr fits
    have rounded : out = (f.sign x.neg + unitBits f u n, inexactFlags (roundAt mode r x u).2 (tinyIn f mode r x)) := by
      simp only [n, unit] at fits ⊢
      exact roundTo_rounded hm ht fits
    obtain ⟨nx, uf, of, nv, flush⟩ := inexactFlags_bits (roundAt mode r x u).2 (tinyIn f mode r x)
    rw [rounded]
    refine ⟨magnitude_unitBits x.neg (unit ▸ x.emin_le_unitOf f) few normal fits, by rw [nx], ?_, of, nv, flush⟩
    rw [uf, Bool.and_eq_true, tiny_iff]

end Sys2Proof.Claims

end

/-! ## Results of operations: their width and their flags (R82, R88, R93) -/

section

namespace Sys2Proof.Machine

open Sys2Proof.Claims

variable (f : Fmt) (subn : Bool)

/-! ### Widths -/

theorem nanBits_lt_width : f.nanBits < 2 ^ width f := by
  have := f.nanBits_lt
  rw [width_eq]
  omega

theorem finish_lt (v : RV) : (finish f subn v).1 < 2 ^ width f := by
  cases v with
  | nan nv => exact nanBits_lt_width f
  | inf n =>
    have signed : (finish f subn (.inf n)).1 = f.sign n + f.infBits := by cases n <;> simp [finish, Fmt.sign]
    rw [signed]
    exact Fmt.sign_add_lt n f.infBits_lt
  | num x => exact roundTo_lt ..

theorem fAdd_lt (a b : Nat) : (fAdd f subn a b).1 < 2 ^ width f := finish_lt f subn _

theorem fFma_lt (a b c : Nat) : (fFma f subn a b c).1 < 2 ^ width f := finish_lt f subn _

theorem fMaxMin_lt (up : Bool) {a b : Nat} (ha : a < 2 ^ width f) (hb : b < 2 ^ width f) : (fMaxMin up f subn a b).1 < 2 ^ width f := by
  have hx := flushIn_lt subn ha
  have hy := flushIn_lt subn hb
  have hn := nanBits_lt_width f
  rw [fMaxMin_eq, maxMinOf]
  split_ifs <;> assumption

/-! ### Flags -/

/-- R93 of a result: OF and UF bring NX, and NV comes with the canonical NaN and none of the three. -/
def FlagsAgree (r : Nat × Flags) : Prop :=
  (r.2.getLsbD 1 = true → r.2.getLsbD 3 = true) ∧ (r.2.getLsbD 2 = true → r.2.getLsbD 3 = true)
    ∧ (r.2.getLsbD 0 = true → r.1 = f.nanBits ∧ r.2.getLsbD 1 = false ∧ r.2.getLsbD 2 = false ∧ r.2.getLsbD 3 = false)

variable {f}

/-- A flush sets FLUSH alone, of which R93 does not speak. -/
theorem FlagsAgree.or_flush {v : Nat} {fl : Flags} (h : FlagsAgree f (v, fl)) (b : Nat) : FlagsAgree f (v, fl ||| (flushIn f subn b).2) := by
  unfold FlagsAgree at h ⊢
  simp only [BitVec.getLsbD_or, flushIn_flag]
  simpa using h

theorem roundTo_flagsAgree (x : Exact) : FlagsAgree f (roundTo f .rne 0 false subn x) := by
  rw [roundTo_eq]
  split_ifs with zero tiny above
  · simp [FlagsAgree]
  · simp [FlagsAgree, fFLUSH, fUF, fNX]
  · simp [FlagsAgree, fOF, fNX]
  · obtain ⟨nx, uf, of, nv, -⟩ := inexactFlags_bits (roundAt .rne 0 x (x.unitOf f)).2 (tinyIn f .rne 0 x)
    refine ⟨fun h => absurd h (by rw [of]; decide), fun h => ?_, fun h => absurd h (by rw [nv]; decide)⟩
    rw [uf, Bool.and_eq_true] at h
    rw [nx, h.2]

theorem finish_flagsAgree (v : RV) : FlagsAgree f (finish f subn v) := by
  cases v with
  | nan nv => cases nv <;> simp [FlagsAgree, finish, fNV]
  | inf n => simp [FlagsAgree, finish]
  | num x => exact roundTo_flagsAgree subn x

theorem lane2_flagsAgree (op : FVal → FVal → RV) (a b : Nat) : FlagsAgree f (lane2 op f subn a b) :=
  ((finish_flagsAgree subn _).or_flush subn a).or_flush subn b

theorem fFma_flagsAgree (a b c : Nat) : FlagsAgree f (fFma f subn a b c) :=
  (((finish_flagsAgree subn _).or_flush subn a).or_flush subn b).or_flush subn c

theorem fSpecial_flagsAgree (op : Special) (a : Nat) : FlagsAgree f (fSpecial op f subn a) := (finish_flagsAgree subn _).or_flush subn a

end Sys2Proof.Machine

namespace Sys2Proof.Claims

open Sys2Proof.Machine

/-- O2 (b): each operation delivers a finished result with the flags of its flushes. -/
theorem overflowAndUnderflowComeWithInexact : OverflowAndUnderflowComeWithInexact := by
  intro f subn a b c
  simp only [List.forall_mem_cons]
  exact ⟨lane2_flagsAgree subn _ a b, lane2_flagsAgree subn _ a b, lane2_flagsAgree subn _ a b, fFma_flagsAgree subn a b c,
    fSpecial_flagsAgree subn _ a, fSpecial_flagsAgree subn _ a, fSpecial_flagsAgree subn _ a, fSpecial_flagsAgree subn _ a, by simp⟩

end Sys2Proof.Claims

open Sys2Proof Sys2Proof.Claims

/-- Settles O2: the delivered value of `narrowingDeliversTheRoundedValue` with the flags of `overflowAndUnderflowComeWithInexact`. -/
theorem narrowingAndItsFlagsFollowTheFormats : Obligations.NarrowingAndItsFlagsFollowTheFormats :=
  ⟨narrowingDeliversTheRoundedValue, overflowAndUnderflowComeWithInexact⟩

end

/-! ## A computing instruction of the vector engine (R194, R196, R199, R203, R214) -/

section

namespace Sys2Proof.Machine

open Sys2Proof.Claims

/-! ### What an instruction that computes leaves -/

/-- The vector registers after the writes `l`. -/
def writeRegs (v : Vector VReg 32) (l : List (Nat × VReg)) : Vector VReg 32 := l.foldl (fun r x => upd r (Fin.ofNat 32 x.1) fun _ => x.2) v

/-- The vector engine with the results of an instruction. -/
def VecEngine.wrote (v : VecEngine) (o : VOut) : VecEngine :=
  { v with v := writeRegs v.v o.regs, flags := v.flags ||| o.flags, sr := o.sr.getD v.sr }

/-- The vector engine whose descriptor has consumed poison. -/
def VecEngine.poisoned (v : VecEngine) : VecEngine :=
  { v with
    flags := v.flags ||| fPOISON
    q := { v.q with active := v.q.active.map fun a => if a.progress = .busy then { a with poisonLogged := true } else a } }

/-- … with the results, and the poison where some was consumed. -/
def VecEngine.computed (v : VecEngine) (o : VOut) : VecEngine := if o.hot then ((movedOn v).wrote o).poisoned else (movedOn v).wrote o

section

variable (s : State) (c : CoreId)

theorem State.vecPoison_eq : s.vecPoison c =
    (if (s.core c).vec.q.active.any fun a => a.progress == .busy && !a.poisonLogged then s.logPoison c .vec (s.core c).vec.desc 0 else s).modVec c
      VecEngine.poisoned := rfl

/-- `t` is `s` with the vector engine of core `c` replaced, and what reads and the fault log change. -/
structure VecOnly (s t : State) (c : CoreId) (v : VecEngine) : Prop where
  die : t = { s with cores := upd s.cores c fun k => { k with vec := v }, mem := t.mem, blf := t.blf }
  cells : t.mem.cells = s.mem.cells

variable {s c} {t r : State} {v w : VecEngine}

theorem VecOnly.core (h : VecOnly s t c v) : t.core c = { s.core c with vec := v } := by
  rw [h.die]
  exact upd_same s.cores c _

theorem VecOnly.vec (h : VecOnly s t c v) : (t.core c).vec = v := by rw [h.core]

theorem VecOnly.others (h : VecOnly s t c v) : SameCores s t c := fun d hd => by
  rw [h.die]
  exact upd_other s.cores c d _ hd

theorem VecOnly.sameDie (h : VecOnly s t c v) : SameDie s t := by rw [SameDie, h.die]

theorem VecOnly.sameBytes (h : VecOnly s t c v) : SameBytes s t := fun a => by simp only [Memory.byteAt, h.cells]

theorem VecOnly.modVec (h : VecOnly s t c v) (f : VecEngine → VecEngine) : VecOnly s (t.modVec c f) c (f v) where
  die := by
    have twice : upd (upd s.cores c fun k => { k with vec := v }) c (fun k => { k with vec := f k.vec }) = upd s.cores c fun k => { k with vec := f v } := by
      simp [upd]
    rw [State.modVec, State.modCore, h.die]
    simp only [twice]
  cells := h.cells

theorem VecOnly.log (h : VecOnly s t c v) (i : FaultInfo) : VecOnly s (t.log i) c v where
  die := by rw [State.log_changes_blf, h.die]
  cells := by rw [State.log_mem, h.cells]

theorem VecOnly.poison (h : VecOnly s t c v) : VecOnly s (t.vecPoison c) c v.poisoned := by
  rw [State.vecPoison_eq]
  split
  · exact (h.log _).modVec _
  · exact h.modVec _

/-- An instruction's word is fetched, and the program counter moves on. -/
def State.issuedVec (s : State) (c : CoreId) : State := (s.demand (coreBase c + (s.core c).vec.pc) 8).modVec c movedOn

theorem State.issuedVec_vecOnly : VecOnly s (s.issuedVec c) c (movedOn (s.core c).vec) := by
  have read := s.demand_reads (coreBase c + (s.core c).vec.pc) 8
  have same : VecOnly s (s.demand (coreBase c + (s.core c).vec.pc) 8) c (s.core c).vec := {
    die := by
      have keep : (upd s.cores c fun k => { k with vec := (s.core c).vec }) = s.cores := by
        simp only [upd]
        exact Vector.set_getElem_self _
      rw [keep]
      exact read.die
    cells := read.cells }
  exact same.modVec movedOn

theorem State.issuedVec_clean (h : Undamaged s (coreBase c + (s.core c).vec.pc) 8) : (s.issuedVec c).mem = s.mem ∧ (s.issuedVec c).blf = s.blf := by
  rw [State.issuedVec, s.demand_clean _ _ h]
  exact ⟨rfl, rfl⟩

end

/-! ### The row of an instruction that is not refused -/

section

variable {s : State} {c : CoreId} {i : VIns} (h : Runs s c i)
include h

theorem vecRow_runs (f : VIns → State → State) : s.vecRow c i.op (fun _ _ => false) f = f i (s.issuedVec c) := by
  have known : (opUse i.op).isNone = false := by
    have fields := h.fields
    unfold VIns.fieldsBad at fields
    cases use : opUse i.op with
    | none => simp [use] at fields
    | some u => rfl
  have inside := h.inside
  unfold State.vecRow
  simp only [h.live, h.running, h.unfrozen, h.word, known, h.fields, h.operands, not_le.mpr inside, Bool.not_true, Bool.or_false, Option.isSome_none,
    Bool.false_eq_true, ne_eq, not_true_eq_false, if_false]
  rfl

/-- What an instruction that computes leaves of the die. -/
theorem vecCompute_runs (f : VecEngine → VIns → VOut) {o : VOut} (ho : f (movedOn (s.core c).vec) i = o) :
    VecOnly s (s.vecCompute c i.op f) c ((s.core c).vec.computed o)
      ∧ (Undamaged s (coreBase c + (s.core c).vec.pc) 8 → o.hot = false → (s.vecCompute c i.op f).mem = s.mem ∧ (s.vecCompute c i.op f).blf = s.blf) := by
  have start : VecOnly s (s.issuedVec c) c (movedOn (s.core c).vec) := State.issuedVec_vecOnly
  have step : s.vecCompute c i.op f = let t := (s.issuedVec c).modVec c fun v => v.wrote o
      if o.hot then t.vecPoison c else t := by
    rw [State.vecCompute, vecRow_runs h]
    dsimp only
    rw [start.vec, ho]
    rfl
  rw [step, VecEngine.computed]
  have wrote := start.modVec fun v => v.wrote o
  cases hot : o.hot
  · exact ⟨wrote, fun clean _ => State.issuedVec_clean clean⟩
  · exact ⟨wrote.poison, fun _ no => absurd no (by decide)⟩

end

/-- The vector engine of core `c` has run an instruction that left `o`: registers, flags, random sources, and the rest of the die as before. -/
structure Computes (s t : State) (c : CoreId) (o : VOut) : Prop where
  frame : VecFrame s t c o.hot
  moved : Moved (s.core c).vec (t.core c).vec o.hot
  regs : (t.core c).vec.v = writeRegs (s.core c).vec.v o.regs
  sr : (t.core c).vec.sr = o.sr.getD (s.core c).vec.sr
  flags : (t.core c).vec.flags = (s.core c).vec.flags ||| o.flags ||| if o.hot then fPOISON else 0

theorem moved_computed (v : VecEngine) (o : VOut) : Moved v (v.computed o) o.hot := by
  unfold VecEngine.computed
  cases o.hot
  · exact ⟨rfl, rfl, fun _ => rfl⟩
  · exact ⟨rfl, rfl, fun h => absurd h (by decide)⟩

theorem computes_of_runs {s : State} {c : CoreId} {i : VIns} (h : Runs s c i) {op : Nat} (hop : i.op = op) (f : VecEngine → VIns → VOut) {o : VOut}
    (ho : f (movedOn (s.core c).vec) i = o) : ∃ t, ev s (·.vecCompute c op f) = .next t ∧ Computes s t c o := by
  subst hop
  obtain ⟨only, clean⟩ := vecCompute_runs h f ho
  refine ⟨_, ev_powered s _ h.powered, ?_⟩
  generalize s.vecCompute c i.op f = t at only clean
  have vec := only.vec
  exact {
    frame := ⟨only.others, by rw [vec]; exact only.core, only.sameDie, only.sameBytes, clean⟩
    moved := by rw [vec]; exact moved_computed _ o
    regs := by rw [vec, VecEngine.computed]; cases o.hot <;> rfl
    sr := by rw [vec, VecEngine.computed]; cases o.hot <;> rfl
    flags := by
      rw [vec, VecEngine.computed]
      cases o.hot
      · exact (BitVec.or_zero).symm
      · rfl }

end Sys2Proof.Machine

end

/-! ## Registers by their parts (R194, R196) -/

section

namespace Sys2Proof.Machine

open Sys2Proof.Claims

/-! ### A register written by parts -/

/-- The bytes of a part. -/
def PartSize (sz : Nat) : Prop := sz = 1 ∨ sz = 2 ∨ sz = 4

theorem Fmt.partSize (f : Fmt) : PartSize f.size := by cases f <;> simp [PartSize, Fmt.size]

theorem VIns.partSize (i : VIns) : PartSize i.size := by unfold VIns.size PartSize; split <;> simp

theorem VReg.part_lt (r : VReg) (sz j : Nat) : r.part sz j < 2 ^ (8 * sz) := field_lt _ _ _

/-- A number's digits in base `B` are those it was made from. -/
theorem digit_of_sum {B : Nat} (w : Nat → Nat) (hw : ∀ p, w p < B) (n : Nat) {p : Nat} (hp : p < n) :
    ((List.range n).map fun p => w p * B ^ p).sum / B ^ p % B = w p ∧ ((List.range n).map fun p => w p * B ^ p).sum < B ^ n := by
  have pos : 0 < B := (Nat.zero_le _).trans_lt (hw 0)
  have below : ∀ n, ((List.range n).map fun p => w p * B ^ p).sum < B ^ n := fun n => by
    induction n with
    | zero => simp
    | succ n ih =>
      have top := Nat.mul_le_mul_right (B ^ n) (Nat.succ_le_of_lt (hw n))
      rw [List.range_succ, List.map_append, List.sum_append, Nat.pow_succ, Nat.mul_comm (B ^ n)]
      simp at top ⊢
      rw [Nat.add_mul] at top
      omega
  refine ⟨?_, below n⟩
  induction n with
  | zero => omega
  | succ n ih =>
    rw [List.range_succ, List.map_append, List.sum_append]
    simp only [List.map_cons, List.map_nil, List.sum_cons, List.sum_nil, Nat.add_zero]
    rcases Nat.lt_or_ge p n with h | h
    · obtain ⟨d, rfl⟩ : ∃ d, n = p + d + 1 := ⟨n - p - 1, by omega⟩
      have split : w (p + d + 1) * B ^ (p + d + 1) = B ^ p * (B * (w (p + d + 1) * B ^ d)) := by ring
      rw [split, Nat.add_mul_div_left _ _ (by positivity), Nat.add_mul_mod_self_left]
      exact ih h
    · obtain rfl : p = n := by omega
      rw [Nat.add_mul_div_right _ _ (by positivity), Nat.div_eq_of_lt (below p), Nat.zero_add, Nat.mod_eq_of_lt (hw p)]

/-- A lane's bytes as the parts of `sz` bytes they hold. -/
theorem field_digits {sz : Nat} (hsz : PartSize sz) {w : Nat → Nat} (hw : ∀ p, w p < 2 ^ (8 * sz)) {p : Nat} (hp : p < 4 / sz) :
    field (BitVec.ofNat 32 ((List.range (4 / sz)).map fun p => w p * 2 ^ (8 * sz * p)).sum).toNat (8 * sz * p) (8 * sz) = w p := by
  have whole : (2 ^ (8 * sz)) ^ (4 / sz) = 2 ^ 32 := by
    rcases hsz with rfl | rfl | rfl <;> rfl
  obtain ⟨digit, small⟩ := digit_of_sum w hw (4 / sz) hp
  rw [whole] at small
  simp only [← Nat.pow_mul] at digit small
  rw [field, Nat.shiftRight_eq_div_pow, BitVec.toNat_ofNat, Nat.mod_eq_of_lt small, digit]
section

variable {sz : Nat} (hsz : PartSize sz) (r : VReg) (f : Array (Option Part))
include hsz

/-- Part `j` lies in lane `j * sz / 4`, at the place its remainder gives. -/
theorem part_place {j : Nat} (hj : j < 1024 / sz) :
    ∃ k p, k < 256 ∧ p < 4 / sz ∧ j = k * (4 / sz) + p ∧ j * sz / 4 = k ∧ 8 * (j * sz % 4) = 8 * sz * p := by
  refine ⟨j * sz / 4, j % (4 / sz), ?_⟩
  rcases hsz with rfl | rfl | rfl <;> simp at hj ⊢ <;> omega

theorem VReg.part_blend (hf : ∀ (j : Nat) (x : Part), (f[j]?).join = some x → x.1 < 2 ^ (8 * sz)) {j : Nat} (hj : j < 1024 / sz) :
    (r.blend sz f).part sz j = ((f[j]?).join.map Prod.fst).getD (r.part sz j) := by
  obtain ⟨k, p, hk, hp, hjk, hlane, hbit⟩ := part_place hsz hj
  have lane : Fin.ofNat 256 (j * sz / 4) = ⟨k, hk⟩ := by rw [hlane]; exact Fin.ext (Nat.mod_eq_of_lt hk)
  let w := fun p => ((f[k * (4 / sz) + p]?).join.map Prod.fst).getD (field (r.lane[k]).toNat (8 * sz * p) (8 * sz))
  have small : ∀ p, w p < 2 ^ (8 * sz) := fun p => by
    simp only [w]
    cases h : (f[k * (4 / sz) + p]?).join with
    | none => exact field_lt _ _ _
    | some x => exact hf _ _ h
  have bits : (r.blend sz f).lane[k] = BitVec.ofNat 32 ((List.range (4 / sz)).map fun p => w p * 2 ^ (8 * sz * p)).sum := by
    simp only [VReg.blend, Vector.getElem_ofFn, w]
    congr 3
    funext p
    cases (f[k * (4 / sz) + p]?).join <;> rfl
  have partAt : ∀ q : VReg, q.part sz j = field (q.lane[k]).toNat (8 * sz * p) (8 * sz) := fun q => by
    simp only [VReg.part, lane, hbit, Fin.getElem_fin]
  rw [partAt, bits, field_digits hsz small hp, partAt, hjk]

omit hsz in
theorem VReg.poison_blend (k : Fin 256) :
    (r.blend sz f).poison[k] = (List.range (4 / sz)).any fun p => ((f[k.val * (4 / sz) + p]?).join.map Prod.snd).getD r.poison[k] := by
  simp only [VReg.blend, Fin.getElem_fin, Vector.getElem_ofFn]
  congr 1
  funext p
  cases (f[k.val * (4 / sz) + p]?).join <;> rfl

/-- Parts written where `on` holds, by `g` and with the marks `hot`. -/
theorem written_blend {on : Nat → Bool} {g : Nat → Nat} {hot : Nat → Bool}
    (hf : ∀ j, j < 1024 / sz → (f[j]?).join = if on j then some (g j, hot j) else none) (hout : ∀ j, 1024 / sz ≤ j → (f[j]?).join = none)
    (hg : ∀ j, on j = true → g j < 2 ^ (8 * sz)) : Written sz r (r.blend sz f) on g hot := by
  have small : ∀ (j : Nat) (x : Part), (f[j]?).join = some x → x.1 < 2 ^ (8 * sz) := fun j x hx => by
    rcases Nat.lt_or_ge j (1024 / sz) with hj | hj
    · rw [hf j hj] at hx
      split at hx
      case isTrue h => rw [← Option.some.inj hx]; exact hg j h
      case isFalse => exact absurd hx (by simp)
    · rw [hout j hj] at hx
      exact absurd hx (by simp)
  refine ⟨fun j hj => ?_, fun k => ?_⟩
  · rw [VReg.part_blend hsz r f small hj, hf j hj]
    split <;> rfl
  · rw [VReg.poison_blend]
    rw [Bool.eq_iff_iff, List.any_eq_true, List.any_eq_true]
    simp only [List.mem_range]
    refine exists_congr fun p => and_congr_right fun hp => ?_
    have inside : k.val * (4 / sz) + p < 1024 / sz := by
      have := k.isLt
      rcases hsz with rfl | rfl | rfl <;> simp at hp ⊢ <;> omega
    rw [hf _ inside]
    split <;> rfl

end

end Sys2Proof.Machine

end

/-! ## Flags, marks and registers of an instruction that computes (R196, R203, R214) -/

section

namespace Sys2Proof.Machine

open Sys2Proof.Claims

/-! ### Flags joined -/

theorem foldl_or_bit {α : Type} (g : α → Flags) (l : List α) (a : Flags) (b : Nat) :
    (l.foldl (fun f x => f ||| g x) a).getLsbD b = (a.getLsbD b || l.any fun x => (g x).getLsbD b) := by
  induction l generalizing a with
  | nil => simp
  | cons x l ih => rw [List.foldl_cons, ih, BitVec.getLsbD_or, List.any_cons, Bool.or_assoc]

theorem zero_bit (b : Nat) : (0 : Flags).getLsbD b = false := BitVec.getLsbD_zero

/-- Results joined where there are any: `F` is such a step, whichever match spells it. -/
theorem foldl_some_or_bit {α : Type} {F : Flags → Option α → Flags} {g : α → Flags} (hsome : ∀ f x, F f (some x) = f ||| g x)
    (hnone : ∀ f, F f none = f) (l : List (Option α)) (b : Nat) : (l.foldl F 0).getLsbD b = l.any fun r => r.any fun x => (g x).getLsbD b := by
  have step : F = fun f r => f ||| r.elim 0 g := by
    funext f r
    cases r with
    | none => rw [hnone]; exact BitVec.or_zero.symm
    | some x => exact hsome f x
  rw [step, foldl_or_bit, zero_bit, Bool.false_or]
  congr 1
  funext r
  cases r <;> simp

theorem joinFlags_bit (l : List Flags) (b : Nat) : (joinFlags l).getLsbD b = l.any fun f => f.getLsbD b := by
  rw [joinFlags, foldl_or_bit (fun f => f), zero_bit, Bool.false_or]

/-- Only the first `k` of `n` lanes hold something. -/
theorem any_range_lt {n k : Nat} (hk : k ≤ n) (h : Nat → Bool) : ((List.range n).any fun j => decide (j < k) && h j) = (List.range k).any h := by
  rw [Bool.eq_iff_iff, List.any_eq_true, List.any_eq_true]
  simp only [List.mem_range, Bool.and_eq_true, decide_eq_true_eq]
  exact ⟨fun ⟨j, _, hj⟩ => ⟨j, hj⟩, fun ⟨j, hj⟩ => ⟨j, hj.1.trans_le hk, hj⟩⟩

/-! ### Registers written -/

section

variable {v : Vector VReg 32} {l : List (Nat × VReg)}

theorem writeRegs_other {n : Nat} (hn : n < 32) (hl : ∀ x ∈ l, x.1 < 32) (h : ∀ x ∈ l, x.1 ≠ n) : (writeRegs v l)[Fin.ofNat 32 n] = v[Fin.ofNat 32 n] := by
  induction l generalizing v with
  | nil => rfl
  | cons x l ih =>
    simp only [List.forall_mem_cons] at hl h
    have apart : Fin.ofNat 32 n ≠ Fin.ofNat 32 x.1 := fun e => h.1 (by
      have := congrArg Fin.val e
      simp only [Fin.val_ofNat] at this
      omega)
    exact (ih hl.2 h.2).trans (upd_other _ _ _ _ apart)

theorem writeRegs_same {n : Nat} {r : VReg} (hl : ∀ x ∈ l, x.1 < 32) (distinct : (l.map Prod.fst).Nodup) (h : (n, r) ∈ l) :
    (writeRegs v l)[Fin.ofNat 32 n] = r := by
  induction l generalizing v with
  | nil => exact absurd h List.not_mem_nil
  | cons x l ih =>
    rw [List.map_cons, List.nodup_cons] at distinct
    simp only [List.forall_mem_cons] at hl
    rcases List.mem_cons.mp h with rfl | h
    · exact (writeRegs_other hl.1 hl.2 fun y hy e => distinct.1 (List.mem_map.mpr ⟨y, hy, e⟩)).trans (upd_same _ _ _)
    · exact ih hl.2 distinct.2 h

end

section

variable {s t : State} {c : CoreId} {o : VOut} (h : Computes s t c o)
include h

theorem Computes.reg_same {n : Nat} {r : VReg} (hl : ∀ x ∈ o.regs, x.1 < 32) (distinct : (o.regs.map Prod.fst).Nodup) (hn : (n, r) ∈ o.regs) :
    (t.core c).vec.reg n = r := by
  rw [VecEngine.reg, h.regs]
  exact writeRegs_same hl distinct hn

theorem Computes.otherRegs {l : List Nat} (hl : ∀ x ∈ o.regs, x.1 < 32) (names : ∀ x ∈ o.regs, x.1 ∈ l) : OtherRegs (s.core c).vec (t.core c).vec l := by
  intro n hn hnl
  rw [VecEngine.reg, h.regs]
  exact writeRegs_other hn hl fun x hx e => hnl (e ▸ names x hx)

theorem Computes.flagsOf {n : Nat} {g : Nat → Flags} {hot : Bool} (hhot : o.hot = hot)
    (hf : ∀ b, o.flags.getLsbD b = (List.range n).any fun j => (g j).getLsbD b) : FlagsOf (s.core c).vec.flags (t.core c).vec.flags n g hot := by
  intro b _
  have poison : (if o.hot then fPOISON else 0).getLsbD b = (b == 6 && hot) := by
    rw [hhot]
    cases hot
    · simp
    · rw [if_pos rfl, show fPOISON = BitVec.twoPow 8 6 from rfl, BitVec.getLsbD_twoPow]
      simp [eq_comm, beq_eq_decide]
  rw [h.flags, BitVec.getLsbD_or, BitVec.getLsbD_or, hf, poison]

end

end Sys2Proof.Machine

namespace Sys2Proof.Claims

open Sys2Proof.Machine

/-! ### The fields of an instruction that is not refused -/

section

variable {s : State} {c : CoreId} {i : VIns} (h : Runs s c i)
include h

theorem Runs.regs_lt : i.vd < 32 ∧ i.va < 32 ∧ i.vb < 32 ∧ i.vc < 32 := by
  rw [← h.word]
  exact ⟨field_lt _ _ _, field_lt _ _ _, field_lt _ _ _, field_lt _ _ _⟩

/-- What Table VEC-4 asks of the fields of a known opcode. -/
theorem Runs.fits {u : OpUse} (hu : opUse i.op = some u) : u.vd.fits i.vd = true ∧ u.va.fits i.va = true ∧ i.fmt ∈ u.fmts
    ∧ (i.op = 0x60 ∨ i.op = 0x61 → i.rm ≤ 4) := by
  have fields := h.fields
  simp only [VIns.fieldsBad, hu, Bool.or_eq_false_iff, Bool.not_eq_false', Bool.and_eq_true, List.contains_iff_mem] at fields
  obtain ⟨⟨⟨⟨⟨⟨hd, ha⟩, -⟩, -⟩, -⟩, hf⟩, hr⟩ := fields
  refine ⟨hd, ha, hf, fun hop => ?_⟩
  rw [if_pos hop] at hr
  simpa using hr

/-- An instruction of FP32 or FP16 lanes. -/
theorem Runs.lanes {u : OpUse} (hu : opUse i.op = some u) (hf : u.fmts = [0, 1]) :
    (i.fmt = 0 ∧ i.fm = .fp32 ∧ i.size = 4 ∧ i.lanes = 256) ∨ (i.fmt = 1 ∧ i.fm = .fp16 ∧ i.size = 2 ∧ i.lanes = 512) := by
  obtain ⟨-, -, fmt, -⟩ := h.fits hu
  rw [hf] at fmt
  simp only [List.mem_cons, List.not_mem_nil, or_false] at fmt
  rcases fmt with fmt | fmt
  · exact .inl ⟨fmt, by simp [VIns.fm, fmt, fmtOf], by simp [VIns.size, fmt], by simp [VIns.lanes, fmt]⟩
  · exact .inr ⟨fmt, by simp [VIns.fm, fmt, fmtOf], by simp [VIns.size, fmt], by simp [VIns.lanes, fmt]⟩

end

end Sys2Proof.Claims

namespace Sys2Proof.Machine

open Sys2Proof.Claims

/-! ### A register of +0 but for its first part -/

section

variable {sz : Nat} (hsz : PartSize sz) (x : Part)
include hsz

theorem firstOnly_array (j : Nat) : (((some x :: List.replicate (1024 / sz - 1) (some ((0, false) : Part))).toArray)[j]?).join
    = if j = 0 then some x else if j < 1024 / sz then some (0, false) else none := by
  have pos : 0 < 1024 / sz := by rcases hsz with rfl | rfl | rfl <;> decide
  cases j with
  | zero => simp
  | succ j =>
    simp only [List.getElem?_toArray, List.getElem?_cons_succ, List.getElem?_replicate]
    by_cases hj : j < 1024 / sz - 1
    · simp [hj, show j + 1 < 1024 / sz by omega]
    · simp [hj, show ¬ j + 1 < 1024 / sz by omega]

theorem firstOnly_part (hx : x.1 < 2 ^ (8 * sz)) {j : Nat} (hj : j < 1024 / sz) : (firstOnly sz x).part sz j = if j = 0 then x.1 else 0 := by
  rw [firstOnly, VReg.part_blend hsz _ _ ?small hj, firstOnly_array hsz, if_pos hj]
  case small =>
    intro k y hy
    rw [firstOnly_array hsz] at hy
    split_ifs at hy
    · rw [← Option.some.inj hy]; exact hx
    · rw [← Option.some.inj hy]; positivity
  split <;> rfl

theorem firstOnly_poison (k : Fin 256) : (firstOnly sz x).poison[k] = (k.val == 0 && x.2) := by
  have pos : 0 < 4 / sz := by rcases hsz with rfl | rfl | rfl <;> decide
  have zero : VReg.zero.poison[k] = false := by simp [VReg.zero]
  rw [firstOnly, VReg.poison_blend, zero, Bool.eq_iff_iff, List.any_eq_true]
  simp only [List.mem_range, firstOnly_array hsz, Bool.and_eq_true, beq_iff_eq]
  constructor
  · rintro ⟨p, hp, hot⟩
    split_ifs at hot with first
    · have : k.val = 0 ∨ 4 / sz = 0 := Nat.mul_eq_zero.mp (by omega)
      exact ⟨by omega, hot⟩
    all_goals exact absurd hot (by simp)
  · rintro ⟨hk, hot⟩
    exact ⟨0, pos, by simpa [hk] using hot⟩

end

end Sys2Proof.Machine

end

/-! ## RSUM, RMAX, RMIN and RMERGE (R127, R204, R206) -/

section

namespace Sys2Proof.Machine

open Sys2Proof.Claims

/-! ### The tree of R204, level by level and half by half -/

section

variable {α : Type} (op : α → α → α × Flags)

theorem treeLevel_append (m : List α) : ∀ l : List α, Even l.length →
    treeLevel op (l ++ m) = ((treeLevel op l).1 ++ (treeLevel op m).1, (treeLevel op l).2 ||| (treeLevel op m).2)
  | [], _ => by simp [treeLevel]
  | [_], h => by simp at h
  | a :: b :: l, h => by
    have even : Even l.length := by simpa [Nat.even_add_one] using h
    rw [List.cons_append, List.cons_append, treeLevel, treeLevel_append m l even, treeLevel, BitVec.or_assoc]
    rfl

theorem length_treeLevel (n : Nat) (l : List α) (h : l.length = 2 * n) : (treeLevel op l).1.length = n := by
  induction n generalizing l with
  | zero => simp [List.length_eq_zero_iff.mp h, treeLevel]
  | succ n ih =>
    match l, h with
    | a :: b :: l, h => simp [treeLevel, ih l (by simp at h; omega)]

theorem treeFold_append (m : List α) (k d : Nat) (l : List α) (h : l.length = 2 ^ k * d) :
    treeFold op k (l ++ m) = ((treeFold op k l).1 ++ (treeFold op k m).1, (treeFold op k l).2 ||| (treeFold op k m).2) := by
  induction k generalizing l m with
  | zero => simp [treeFold]
  | succ k ih =>
    have half : l.length = 2 * (2 ^ k * d) := by rw [h, Nat.pow_succ]; ring
    have up := length_treeLevel op _ l half
    simp only [treeFold, treeLevel_append op m l (half ▸ even_two_mul _), ih _ _ up]
    congr 1
    ac_rfl

/-- The last level of a tree on top of the others. -/
theorem treeFold_succ (k : Nat) (l : List α) : treeFold op (k + 1) l =
    ((treeLevel op (treeFold op k l).1).1, (treeFold op k l).2 ||| (treeLevel op (treeFold op k l).1).2) := by
  induction k generalizing l with
  | zero => simp [treeFold, BitVec.or_comm]
  | succ k ih =>
    rw [treeFold, ih, treeFold]
    simp only [BitVec.or_assoc]

/-- The levels pair the values as the halves do. -/
theorem treeFold_eq_pairTree (k : Nat) (w : Nat → α) :
    treeFold op k ((List.range (2 ^ k)).map w) = ([(pairTree op k w).1], (pairTree op k w).2) := by
  induction k generalizing w with
  | zero => rfl
  | succ k ih =>
    have halves : (List.range (2 ^ (k + 1))).map w = (List.range (2 ^ k)).map w ++ (List.range (2 ^ k)).map fun j => w (j + 2 ^ k) := by
      rw [Nat.pow_succ, Nat.mul_two, List.range_add, List.map_append, List.map_map]
      simp [Function.comp_def, Nat.add_comm]
    rw [treeFold_succ, halves, treeFold_append op _ k 1 _ (by simp), ih, ih]
    simp [treeLevel, pairTree]

/-- Levels above the root change nothing. -/
theorem treeFold_above (k : Nat) (w : Nat → α) :
    treeFold op (k + 1) ((List.range (2 ^ k)).map w) = ([(pairTree op k w).1], (pairTree op k w).2) := by
  rw [treeFold_succ, treeFold_eq_pairTree]
  simp [treeLevel]

theorem pairTree_holds {p : α → Prop} (hop : ∀ a b, p a → p b → p (op a b).1) (k : Nat) {w : Nat → α} (hw : ∀ j, p (w j)) : p (pairTree op k w).1 := by
  induction k generalizing w with
  | zero => exact hw 0
  | succ k ih => exact hop _ _ (ih hw) (ih fun j => hw _)

end

/-! ### One register reduced -/

theorem width_fm {i : VIns} (h : (i.fm = .fp32 ∧ i.size = 4) ∨ (i.fm = .fp16 ∧ i.size = 2)) : width i.fm = 8 * i.size := by
  rcases h with ⟨hf, hs⟩ | ⟨hf, hs⟩ <;> rw [hf, hs] <;> rfl

/-- The lanes of RSUM, RMAX and RMIN. -/
def reduceLane (v : VecEngine) (i : VIns) (identity : Nat) (j : Nat) : Nat := if j < v.active i.lanes then v.src i i.va j else identity

section

variable {s : State} {c : CoreId} {i : VIns} (h : Runs s c i)
include h

/-- A reduction of one register whose operation keeps the width. -/
theorem reduction_completes {u : OpUse} (hu : opUse i.op = some u) (hf : u.fmts = [0, 1]) {k : Nat} (hop : i.op = k)
    (op : Fmt → Bool → Nat → Nat → Nat × Flags) (unit : Fmt → Nat) {identity : Nat} (hunit : unit i.fm = identity)
    (hlt : ∀ f u a b, a < 2 ^ width f → b < 2 ^ width f → (op f u a b).1 < 2 ^ width f) (hid : identity < 2 ^ width i.fm) :
    let v := (s.core c).vec
    let hot := (List.range (v.active i.lanes)).any fun j => v.srcHot i i.va j
    let w := pairTree (op i.fm v.subnNow) (if i.fmt = 0 then 8 else 9) (reduceLane v i identity)
    ∃ t, ev s (·.vecCompute c k (vReduce op unit)) = .next t ∧ VecFrame s t c hot ∧ Moved v (t.core c).vec hot ∧ (t.core c).vec.sr = v.sr
      ∧ (∀ j, j < i.lanes → ((t.core c).vec.reg i.vd).part i.size j = if j = 0 then w.1 else 0)
      ∧ (∀ k : Fin 256, ((t.core c).vec.reg i.vd).poison[k] = (k.val == 0 && hot))
      ∧ OtherRegs v (t.core c).vec [i.vd] ∧ FlagsOf v.flags (t.core c).vec.flags 1 (fun _ => w.2) hot := by
  intro v hot w
  have shape := h.lanes hu hf
  have wide : width i.fm = 8 * i.size := width_fm (shape.imp (fun x => ⟨x.2.1, x.2.2.1⟩) fun x => ⟨x.2.1, x.2.2.1⟩)
  have parts : 1024 / i.size = i.lanes := by rcases shape with ⟨-, -, hs, hl⟩ | ⟨-, -, hs, hl⟩ <;> rw [hs, hl]
  have tree : treeFold (op i.fm v.subnNow) 9 ((List.range i.lanes).map (reduceLane v i identity)) = ([w.1], w.2) := by
    rcases shape with ⟨h0, -, -, hl⟩ | ⟨h1, -, -, hl⟩
    · simp only [w, h0, hl, if_true]
      exact treeFold_above _ 8 _
    · simp only [w, h1, hl, one_ne_zero, if_false]
      exact treeFold_eq_pairTree _ 9 _
  have out : vReduce op unit (movedOn v) i = { regs := [(i.vd, firstOnly i.size (w.1, hot))], flags := w.2, hot := hot, sr := none } := by
    have same : vReduce op unit (movedOn v) i = vReduce op unit v i := rfl
    have lanes : (fun j => if j < v.active i.lanes then v.src i i.va j else unit i.fm) = reduceLane v i identity := by rw [hunit]; rfl
    rw [same, vReduce]
    simp only [lanes, tree, List.head?_cons, Option.getD_some]
    rfl
  have small : w.1 < 2 ^ (8 * i.size) := by
    rw [← wide]
    refine pairTree_holds _ (hlt i.fm v.subnNow) _ fun j => ?_
    unfold reduceLane
    split
    · rw [wide]; exact VReg.part_lt _ _ _
    · exact hid
  obtain ⟨vd, -⟩ := h.regs_lt
  obtain ⟨t, ht, comp⟩ := computes_of_runs h hop _ out
  have reg : (t.core c).vec.reg i.vd = firstOnly i.size (w.1, hot) := comp.reg_same (by simpa using vd) (by simp) (by simp)
  refine ⟨t, ht, comp.frame, comp.moved, comp.sr, fun j hj => ?_, fun k => ?_, comp.otherRegs (by simpa using vd) (by simp),
    comp.flagsOf rfl (by simp)⟩
  · rw [reg]
    exact firstOnly_part i.partSize _ small (parts ▸ hj)
  · rw [reg]
    exact firstOnly_poison i.partSize _ k

end

/-! ### Three registers reduced: Welford states (R127) -/

theorem width_fp32 : width .fp32 = 32 := rfl

/-- A state of three FP32 parts. -/
def Fits32 (w : WState) : Prop := w.1 < 2 ^ width .fp32 ∧ w.2.1 < 2 ^ width .fp32 ∧ w.2.2 < 2 ^ width .fp32

theorem mergeIn_lt (subn : Bool) {b : Nat} (h : b < 2 ^ width .fp32) : (mergeIn subn b).1 < 2 ^ width .fp32 := by
  have kept := flushIn_lt subn h
  have nan := nanBits_lt_width .fp32
  unfold mergeIn
  dsimp only
  split <;> assumption

/-- Two states merged: their count and the words of two fused operations. -/
theorem wMerge_merged (subn : Bool) {a b : WState} (ha : a.1 ≠ 0) (hb : b.1 ≠ 0) : ∃ d r t p q, (wMerge subn a b).1 =
    (min (a.1 + b.1) 0xFFFFFFFF, (fFma .fp32 subn d r a.2.1).1, (fFma .fp32 subn t p q).1) := by
  unfold wMerge
  rw [if_neg fun h => ha h.1, if_neg hb, if_neg ha]
  generalize fSub .fp32 subn b.2.1 a.2.1 = d
  generalize ratio32 subn b.1 (min (a.1 + b.1) 0xFFFFFFFF) = r
  generalize ratio32 subn (a.1 * b.1) (min (a.1 + b.1) 0xFFFFFFFF) = p
  generalize fAdd .fp32 subn a.2.2 b.2.2 = q
  obtain ⟨d, _⟩ := d
  obtain ⟨r, _⟩ := r
  obtain ⟨p, _⟩ := p
  obtain ⟨q, _⟩ := q
  dsimp only
  generalize fMul .fp32 subn d d = t
  obtain ⟨t, _⟩ := t
  dsimp only
  exact ⟨d, r, t, p, q, rfl⟩
theorem wMerge_second (subn : Bool) {a b : WState} (ha : a.1 = 0) (hb : b.1 ≠ 0) : (wMerge subn a b).1 = (b.1, (mergeIn subn b.2.1).1, (mergeIn subn b.2.2).1) := by
  unfold wMerge
  rw [if_neg fun h => hb h.2, if_neg hb, if_pos ha]

theorem wMerge_first (subn : Bool) {a b : WState} (ha : a.1 ≠ 0) (hb : b.1 = 0) : (wMerge subn a b).1 = a := by
  unfold wMerge
  rw [if_neg fun h => ha h.1, if_pos hb]

theorem wMerge_empty (subn : Bool) {a b : WState} (ha : a.1 = 0) (hb : b.1 = 0) : (wMerge subn a b).1 = (0, 0, 0) := by
  unfold wMerge
  rw [if_pos ⟨ha, hb⟩]

theorem fits32_zero : Fits32 (0, 0, 0) := ⟨Nat.two_pow_pos _, Nat.two_pow_pos _, Nat.two_pow_pos _⟩

/-- What a merge gives fits as its operands do. -/
theorem wMerge_fits (subn : Bool) (a b : WState) (ha : Fits32 a) (hb : Fits32 b) : Fits32 (wMerge subn a b).1 := by
  by_cases ha0 : a.1 = 0 <;> by_cases hb0 : b.1 = 0
  · rw [wMerge_empty subn ha0 hb0]
    exact fits32_zero
  · rw [wMerge_second subn ha0 hb0]
    exact ⟨hb.1, mergeIn_lt subn hb.2.1, mergeIn_lt subn hb.2.2⟩
  · rw [wMerge_first subn ha0 hb0]
    exact ha
  · obtain ⟨d, r, t, p, q, hw⟩ := wMerge_merged subn ha0 hb0
    have count : min (a.1 + b.1) 0xFFFFFFFF < 2 ^ width .fp32 := by
      rw [width_fp32]
      omega
    rw [hw]
    exact ⟨count, fFma_lt .fp32 subn _ _ _, fFma_lt .fp32 subn _ _ _⟩

theorem wstate_fits (v : VecEngine) (n j : Nat) : Fits32 (v.wstate n j).1 :=
  ⟨VReg.part_lt (v.reg n) 4 j, VReg.part_lt (v.reg (n + 1)) 4 j, VReg.part_lt (v.reg (n + 2)) 4 j⟩

/-- RMERGE of the states `st` of `n` active lanes, by any merge. -/
def reduceStates (op : WState → WState → WState × Flags) (vd n : Nat) (st : Nat → WState × Bool) : VOut :=
  let r := treeFold op 8 ((List.range 256).map fun j => if j < n then (st j).1 else (0, 0, 0))
  let w := (r.1.head?).getD (0, 0, 0)
  let hot := (List.range n).any fun j => (st j).2
  { regs := [(vd, firstOnly 4 (w.1, hot)), (vd + 1, firstOnly 4 (w.2.1, hot)), (vd + 2, firstOnly 4 (w.2.2, hot))]
    flags := r.2, hot := hot, sr := none }

theorem vRmerge_eq (v : VecEngine) (i : VIns) : vRmerge v i = reduceStates (wMerge v.subnNow) i.vd (v.active 256) (v.wstate i.va) := by
  unfold vRmerge reduceStates
  rfl

/-- Three registers of +0 but for a state in their first lanes. -/
def stateRegs (vd : Nat) (w : WState) (hot : Bool) : List (Nat × VReg) :=
  [(vd, firstOnly 4 (w.1, hot)), (vd + 1, firstOnly 4 (w.2.1, hot)), (vd + 2, firstOnly 4 (w.2.2, hot))]

theorem reduceStates_eq (op : WState → WState → WState × Flags) (vd n : Nat) (st : Nat → WState × Bool) {w : WState × Flags}
    (hw : pairTree op 8 (fun j => if j < n then (st j).1 else (0, 0, 0)) = w) : reduceStates op vd n st =
      { regs := stateRegs vd w.1 ((List.range n).any fun j => (st j).2), flags := w.2, hot := (List.range n).any fun j => (st j).2, sr := none } := by
  have tree : treeFold op 8 ((List.range 256).map fun j => if j < n then (st j).1 else (0, 0, 0)) = ([w.1], w.2) := by
    rw [← hw]
    exact treeFold_eq_pairTree op 8 _
  unfold reduceStates
  rw [tree]
  rfl

/-- A state reduced to the first lanes of three registers. -/
theorem stateRegs_complete {s t : State} {c : CoreId} {vd : Nat} {w : WState × Flags} {hot : Bool} (hvd : vd ≤ 29) (hw : Fits32 w.1)
    (comp : Computes s t c { regs := stateRegs vd w.1 hot, flags := w.2, hot := hot, sr := none }) :
    (∀ j, j < 256 → ((t.core c).vec.reg vd).part 4 j = (if j = 0 then w.1.1 else 0)
        ∧ ((t.core c).vec.reg (vd + 1)).part 4 j = (if j = 0 then w.1.2.1 else 0) ∧ ((t.core c).vec.reg (vd + 2)).part 4 j = if j = 0 then w.1.2.2 else 0)
      ∧ (∀ k : Fin 256, ∀ r ∈ [vd, vd + 1, vd + 2], ((t.core c).vec.reg r).poison[k] = (k.val == 0 && hot))
      ∧ OtherRegs (s.core c).vec (t.core c).vec [vd, vd + 1, vd + 2]
      ∧ FlagsOf (s.core c).vec.flags (t.core c).vec.flags 1 (fun _ => w.2) hot := by
  have four : PartSize 4 := .inr (.inr rfl)
  have lt : ∀ x ∈ stateRegs vd w.1 hot, x.1 < 32 := by
    simp only [stateRegs, List.forall_mem_cons, List.not_mem_nil, false_imp_iff, implies_true, and_true]
    omega
  have distinct : ((stateRegs vd w.1 hot).map Prod.fst).Nodup := by simp [stateRegs]
  have reg1 : (t.core c).vec.reg vd = firstOnly 4 (w.1.1, hot) := comp.reg_same lt distinct (by simp [stateRegs])
  have reg2 : (t.core c).vec.reg (vd + 1) = firstOnly 4 (w.1.2.1, hot) := comp.reg_same lt distinct (by simp [stateRegs])
  have reg3 : (t.core c).vec.reg (vd + 2) = firstOnly 4 (w.1.2.2, hot) := comp.reg_same lt distinct (by simp [stateRegs])
  refine ⟨fun j hj => ?_, fun k => ?_, comp.otherRegs lt (by simp [stateRegs]), comp.flagsOf rfl (by simp)⟩
  · rw [reg1, reg2, reg3]
    exact ⟨firstOnly_part four _ hw.1 hj, firstOnly_part four _ hw.2.1 hj, firstOnly_part four _ hw.2.2 hj⟩
  · simp only [List.forall_mem_cons, List.not_mem_nil, false_imp_iff, implies_true, and_true, reg1, reg2, reg3]
    exact ⟨firstOnly_poison four _ k, firstOnly_poison four _ k, firstOnly_poison four _ k⟩

end Sys2Proof.Machine

namespace Sys2Proof.Claims

open Sys2Proof.Machine

/-- O5 (a): the one-register reductions and RMERGE. -/
theorem vectorReductionsComplete : VectorReductionsComplete := by
  intro s c i h v levels first
  refine ⟨?_, fun hop => ?_⟩
  · simp only [reduceRows, List.forall_mem_cons, List.not_mem_nil, false_imp_iff, implies_true, and_true]
    have maxKeeps : ∀ up f u a b, a < 2 ^ width f → b < 2 ^ width f → (fMaxMin up f u a b).1 < 2 ^ width f := fun up f u a b => fMaxMin_lt f u up
    have nan : i.fm = .fp32 ∨ i.fm = .fp16 → i.fm.nanBits = if i.fm = .fp32 then 0x7FC00000 else 0x7E00 := by
      rintro (hf | hf) <;> rw [hf] <;> rfl
    have sign : i.fm = .fp32 ∨ i.fm = .fp16 → i.fm.signBit = if i.fm = .fp32 then 0x80000000 else 0x8000 := by
      rintro (hf | hf) <;> rw [hf] <;> rfl
    have fm : ∀ {u}, opUse i.op = some u → u.fmts = [0, 1] → i.fm = .fp32 ∨ i.fm = .fp16 := fun hu hf =>
      (h.lanes hu hf).imp (fun x => x.2.1) fun x => x.2.1
    refine ⟨fun hop => ?_, fun hop => ?_, fun hop => ?_⟩
    · have hu : opUse i.op = some ⟨.vec, .vec, .off, .off, false, [0, 1]⟩ := by rw [hop]; rfl
      refine reduction_completes h hu rfl hop fAdd Fmt.signBit (sign (fm hu rfl)) (fun f u a b _ _ => fAdd_lt f u a b) ?_
      rw [← sign (fm hu rfl), width_eq]
      have := i.fm.signBit_pos
      omega
    · have hu : opUse i.op = some ⟨.vec, .vec, .off, .off, false, [0, 1]⟩ := by rw [hop]; rfl
      exact reduction_completes h hu rfl hop (fMaxMin true) Fmt.nanBits (nan (fm hu rfl)) (maxKeeps true) (nan (fm hu rfl) ▸ nanBits_lt_width _)
    · have hu : opUse i.op = some ⟨.vec, .vec, .off, .off, false, [0, 1]⟩ := by rw [hop]; rfl
      exact reduction_completes h hu rfl hop (fMaxMin false) Fmt.nanBits (nan (fm hu rfl)) (maxKeeps false) (nan (fm hu rfl) ▸ nanBits_lt_width _)
  · intro hot w
    have hu : opUse i.op = some ⟨.tri, .tri, .off, .off, false, [0]⟩ := by rw [hop]; rfl
    obtain ⟨vd, -⟩ := h.fits hu
    have vd : i.vd ≤ 29 := by simpa [FieldUse.fits] using vd
    have small : Fits32 w.1 := by
      refine pairTree_holds _ (wMerge_fits v.subnNow) 8 fun j => ?_
      split
      · exact wstate_fits v _ _
      · exact fits32_zero
    obtain ⟨x, hx⟩ : ∃ x, w = x := ⟨_, rfl⟩
    have out : vRmerge (movedOn v) i = { regs := stateRegs i.vd x.1 hot, flags := x.2, hot := hot, sr := none } :=
      (vRmerge_eq (movedOn v) i).trans (reduceStates_eq _ _ _ _ hx)
    obtain ⟨t, ht, comp⟩ := computes_of_runs h hop vRmerge out
    rw [hx] at small ⊢
    exact ⟨t, ht, comp.frame, comp.moved, comp.sr, stateRegs_complete vd small comp⟩

end Sys2Proof.Claims

end

/-! ## ACCSQ, WELFORD and MERGE (R125 to R128, R205, R206) -/

section

namespace Sys2Proof.Machine

open Sys2Proof.Claims

/-! ### What an instruction reads of the engine it has moved on -/

section

variable (v : VecEngine)

theorem movedOn_reg (n : Nat) : (movedOn v).reg n = v.reg n := rfl
theorem movedOn_active (n : Nat) : (movedOn v).active n = v.active n := rfl
theorem movedOn_subnNow : (movedOn v).subnNow = v.subnNow := rfl
theorem movedOn_sr : (movedOn v).sr = v.sr := rfl
theorem movedOn_src (i : VIns) (n j : Nat) : (movedOn v).src i n j = v.src i n j := rfl
theorem movedOn_srcHot (i : VIns) (n j : Nat) : (movedOn v).srcHot i n j = v.srcHot i n j := rfl
theorem movedOn_wstate (n j : Nat) : (movedOn v).wstate n j = v.wstate n j := rfl

end

/-! ### Lanes written where they are active -/

theorem ite_flags_bit (on : Bool) (f : Flags) (b : Nat) : (if on then f else 0).getLsbD b = (on && f.getLsbD b) := by
  cases on
  · exact zero_bit b
  · rfl

/-- What the lanes below 256 leave where `on` holds. -/
def lanesOf {α : Type} (on : Nat → Bool) (a : Nat → α) : List (Option α) := (List.range 256).map fun j => if on j then some (a j) else none

section

variable {α : Type} (on : Nat → Bool) (a : Nat → α)

theorem join_lanesOf (part : α → Part) (j : Nat) : ((((lanesOf on a).map fun r => r.map part).toArray)[j]?).join
    = if j < 256 ∧ on j = true then some (part (a j)) else none := by
  by_cases hj : j < 256
  · cases hon : on j <;> simp [lanesOf, hj, hon]
  · simp [lanesOf, hj]

/-- A register whose lanes are written where `on` holds. -/
theorem written_lanesOf (r : VReg) (hon : ∀ j, on j = true → j < 256) (part : α → Part) (hlt : ∀ j, (part (a j)).1 < 2 ^ (8 * 4)) :
    Written 4 r (r.blend 4 ((lanesOf on a).map fun r => r.map part).toArray) on (fun j => (part (a j)).1) fun j => (part (a j)).2 := by
  refine written_blend (.inr (.inr rfl)) r _ (fun j _ => ?_) (fun j hj => ?_) fun j _ => hlt j
  · rw [join_lanesOf]
    exact if_congr ⟨fun x => x.2, fun x => ⟨hon j x, x⟩⟩ rfl rfl
  · rw [join_lanesOf, if_neg (by omega)]

theorem any_lanesOf {h : Option α → Bool} {g : α → Bool} (hsome : ∀ x, h (some x) = g x) (hnone : h none = false) :
    (lanesOf on a).any h = (List.range 256).any fun j => on j && g (a j) := by
  rw [lanesOf, List.any_map]
  congr 1
  funext j
  cases hj : on j <;> simp [hj, hnone, hsome]

/-- The flags of lanes joined: `F` is a step that joins what a lane left, whichever match spells it. -/
theorem foldl_lanesOf_bit {F : Flags → Option α → Flags} {g : α → Flags} (hsome : ∀ f x, F f (some x) = f ||| g x)
    (hnone : ∀ f, F f none = f) (b : Nat) :
    ((lanesOf on a).foldl F 0).getLsbD b = (List.range 256).any fun j => (if on j then g (a j) else 0).getLsbD b := by
  rw [foldl_some_or_bit hsome hnone]
  simp only [ite_flags_bit]
  exact any_lanesOf on a (fun _ => rfl) rfl

end

/-! ### Two registers written: ACCSQ -/

/-- Two registers written lane by lane, with flags. -/
def writePair (v : VecEngine) (vd vc : Nat) (rs : List (Option (Part × Part × Flags))) : VOut :=
  { regs := [(vd, (v.reg vd).blend 4 (rs.map fun r => r.map fun x => x.1).toArray), (vc, (v.reg vc).blend 4 (rs.map fun r => r.map fun x => x.2.1).toArray)]
    flags := rs.foldl (fun f r => match r with
      | some x => f ||| x.2.2
      | none => f) 0
    hot := rs.any fun r => match r with
      | some x => x.1.2 || x.2.1.2
      | none => false
    sr := none }

/-- Lane `j` of ACCSQ: vd's and vc's parts and their flags. -/
def accLane (v : VecEngine) (i : VIns) (j : Nat) : Part × Part × Flags :=
  let x := statValue v i j
  let hot := v.srcHot i i.va (statLane i j)
  let a := fAdd .fp32 v.subnNow ((v.reg i.vd).part 4 j) x.1
  let q := fMul .fp32 v.subnNow x.1 x.1
  let b := fAdd .fp32 v.subnNow ((v.reg i.vc).part 4 j) q.1
  ((a.1, hot || (v.reg i.vd).hot 4 j), (b.1, hot || (v.reg i.vc).hot 4 j), x.2 ||| sumFlags a ||| sumFlags (b.1, b.2 ||| q.2))

theorem accLane_lt (v : VecEngine) (i : VIns) (j : Nat) : (accLane v i j).1.1 < 2 ^ width .fp32 ∧ (accLane v i j).2.1.1 < 2 ^ width .fp32 := by
  simp only [accLane]
  exact ⟨fAdd_lt .fp32 v.subnNow _ _, fAdd_lt .fp32 v.subnNow _ _⟩

/-- Lane `j` of ACCSQ and WELFORD is active (R205). -/
def statOn (v : VecEngine) (i : VIns) (j : Nat) : Bool := decide (j < 256 ∧ statLane i j < v.active i.lanes)

theorem nanFix_eq (r : Nat × Flags) : nanFix r = (r.1, sumFlags r) := by
  unfold nanFix sumFlags
  split <;> rfl

theorem statX_eq (v : VecEngine) (i : VIns) {j : Nat} (hj : j < 256) : statX v i j =
    if statOn v i j then some { v := (statValue v i j).1, fl := (statValue v i j).2, hot := v.srcHot i i.va (statLane i j) } else none := by
  have on : statOn v i j = true ↔ statLane i j < v.active i.lanes := by simp [statOn, hj]
  rw [if_congr on rfl rfl]
  rfl

theorem map_ite_some {α β : Type} (p : Prop) [Decidable p] (x : α) (f : α → β) : (if p then some x else none).map f = if p then some (f x) else none := by
  split <;> rfl

theorem statOn_movedOn (v : VecEngine) (i : VIns) : statOn (movedOn v) i = statOn v i := rfl

theorem statValue_movedOn (v : VecEngine) (i : VIns) (j : Nat) : statValue (movedOn v) i j = statValue v i j := by
  simp only [statValue, movedOn_src, movedOn_subnNow]

theorem accLane_movedOn (v : VecEngine) (i : VIns) : accLane (movedOn v) i = accLane v i := by
  funext j
  simp only [accLane, statValue_movedOn, movedOn_reg, movedOn_subnNow, movedOn_srcHot]

theorem writePair_movedOn (v : VecEngine) (vd vc : Nat) (rs : List (Option (Part × Part × Flags))) : writePair (movedOn v) vd vc rs = writePair v vd vc rs := rfl

theorem vAccsq_eq (v : VecEngine) (i : VIns) : vAccsq v i = writePair v i.vd i.vc (lanesOf (statOn v i) (accLane v i)) := by
  have lanes : ((List.range 256).map fun j => (statX v i j).map fun x =>
        let a := nanFix (fAdd .fp32 v.subnNow ((v.reg i.vd).part 4 j) x.v)
        let q := fMul .fp32 v.subnNow x.v x.v
        let b := fAdd .fp32 v.subnNow ((v.reg i.vc).part 4 j) q.1
        let b := nanFix (b.1, b.2 ||| q.2)
        (((a.1, x.hot || (v.reg i.vd).hot 4 j), (b.1, x.hot || (v.reg i.vc).hot 4 j), x.fl ||| a.2 ||| b.2) : Part × Part × Flags))
      = lanesOf (statOn v i) (accLane v i) := by
    refine List.map_congr_left fun j hj => ?_
    rw [statX_eq v i (List.mem_range.mp hj), map_ite_some]
    simp only [nanFix_eq, accLane]
  rw [← lanes]
  unfold vAccsq writePair
  rfl

section

variable {s t : State} {c : CoreId} {vd vc : Nat} {on : Nat → Bool} {p : Nat → Part × Part × Flags}

theorem writePair_hot (v : VecEngine) : (writePair v vd vc (lanesOf on p)).hot = (List.range 256).any fun j => on j && ((p j).1.2 || (p j).2.1.2) := by
  simp only [writePair]
  exact any_lanesOf on p (g := fun x => x.1.2 || x.2.1.2) (fun _ => rfl) rfl

/-- What a pair of registers written leaves. -/
theorem writePair_complete (hvd : vd < 32) (hvc : vc < 32) (hne : vd ≠ vc) (hon : ∀ j, on j = true → j < 256)
    (hp : ∀ j, (p j).1.1 < 2 ^ (8 * 4) ∧ (p j).2.1.1 < 2 ^ (8 * 4)) {hot : Bool} (hhot : (writePair (s.core c).vec vd vc (lanesOf on p)).hot = hot)
    (comp : Computes s t c (writePair (s.core c).vec vd vc (lanesOf on p))) :
    Written 4 ((s.core c).vec.reg vd) ((t.core c).vec.reg vd) on (fun j => (p j).1.1) (fun j => (p j).1.2)
      ∧ Written 4 ((s.core c).vec.reg vc) ((t.core c).vec.reg vc) on (fun j => (p j).2.1.1) (fun j => (p j).2.1.2)
      ∧ OtherRegs (s.core c).vec (t.core c).vec [vd, vc]
      ∧ FlagsOf (s.core c).vec.flags (t.core c).vec.flags 256 (fun j => if on j then (p j).2.2 else 0) hot := by
  have lt : ∀ x ∈ (writePair (s.core c).vec vd vc (lanesOf on p)).regs, x.1 < 32 := by
    simp only [writePair, List.forall_mem_cons, List.not_mem_nil, false_imp_iff, implies_true, and_true]
    exact ⟨hvd, hvc⟩
  have distinct : ((writePair (s.core c).vec vd vc (lanesOf on p)).regs.map Prod.fst).Nodup := by simpa [writePair] using hne
  have reg1 : (t.core c).vec.reg vd = ((s.core c).vec.reg vd).blend 4 ((lanesOf on p).map fun r => r.map fun x => x.1).toArray :=
    comp.reg_same lt distinct (.head _)
  have reg2 : (t.core c).vec.reg vc = ((s.core c).vec.reg vc).blend 4 ((lanesOf on p).map fun r => r.map fun x => x.2.1).toArray :=
    comp.reg_same lt distinct (.tail _ (.head _))
  have flags : ∀ b, (writePair (s.core c).vec vd vc (lanesOf on p)).flags.getLsbD b
      = (List.range 256).any fun j => (if on j then (p j).2.2 else 0).getLsbD b := fun b => by
    simp only [writePair]
    exact foldl_lanesOf_bit on p (g := fun x => x.2.2) (fun _ _ => rfl) (fun _ => rfl) b
  rw [reg1, reg2]
  exact ⟨written_lanesOf on p _ hon (fun x => x.1) fun j => (hp j).1, written_lanesOf on p _ hon (fun x => x.2.1) fun j => (hp j).2,
    comp.otherRegs lt (by simp [writePair]), comp.flagsOf hhot flags⟩

end

/-! ### Three registers written: WELFORD and MERGE -/

section

variable {s t : State} {c : CoreId} {n : Nat} {on : Nat → Bool} {m : Nat → WState × Bool × Flags}

theorem writeStates_hot (v : VecEngine) : (writeStates v n (lanesOf on m)).hot = (List.range 256).any fun j => on j && (m j).2.1 := by
  simp only [writeStates]
  exact any_lanesOf on m (fun _ => rfl) rfl

/-- What states written into three registers leave. -/
theorem writeStates_complete (hn : n ≤ 29) (hon : ∀ j, on j = true → j < 256) (hm : ∀ j, Fits32 (m j).1) {hot : Bool}
    (hhot : (writeStates (s.core c).vec n (lanesOf on m)).hot = hot) (comp : Computes s t c (writeStates (s.core c).vec n (lanesOf on m))) :
    Written 4 ((s.core c).vec.reg n) ((t.core c).vec.reg n) on (fun j => (m j).1.1) (fun j => (m j).2.1)
      ∧ Written 4 ((s.core c).vec.reg (n + 1)) ((t.core c).vec.reg (n + 1)) on (fun j => (m j).1.2.1) (fun j => (m j).2.1)
      ∧ Written 4 ((s.core c).vec.reg (n + 2)) ((t.core c).vec.reg (n + 2)) on (fun j => (m j).1.2.2) (fun j => (m j).2.1)
      ∧ OtherRegs (s.core c).vec (t.core c).vec [n, n + 1, n + 2]
      ∧ FlagsOf (s.core c).vec.flags (t.core c).vec.flags 256 (fun j => if on j then (m j).2.2 else 0) hot := by
  have lt : ∀ x ∈ (writeStates (s.core c).vec n (lanesOf on m)).regs, x.1 < 32 := by
    simp only [writeStates, List.forall_mem_cons, List.not_mem_nil, false_imp_iff, implies_true, and_true]
    omega
  have distinct : ((writeStates (s.core c).vec n (lanesOf on m)).regs.map Prod.fst).Nodup := by simp [writeStates]
  have reg1 : (t.core c).vec.reg n = ((s.core c).vec.reg n).blend 4 ((lanesOf on m).map fun r => r.map fun x => (x.1.1, x.2.1)).toArray :=
    comp.reg_same lt distinct (.head _)
  have reg2 : (t.core c).vec.reg (n + 1) = ((s.core c).vec.reg (n + 1)).blend 4 ((lanesOf on m).map fun r => r.map fun x => (x.1.2.1, x.2.1)).toArray :=
    comp.reg_same lt distinct (.tail _ (.head _))
  have reg3 : (t.core c).vec.reg (n + 2) = ((s.core c).vec.reg (n + 2)).blend 4 ((lanesOf on m).map fun r => r.map fun x => (x.1.2.2, x.2.1)).toArray :=
    comp.reg_same lt distinct (.tail _ (.tail _ (.head _)))
  have flags : ∀ b, (writeStates (s.core c).vec n (lanesOf on m)).flags.getLsbD b
      = (List.range 256).any fun j => (if on j then (m j).2.2 else 0).getLsbD b := fun b => by
    simp only [writeStates]
    exact foldl_lanesOf_bit on m (g := fun x => x.2.2) (fun _ _ => rfl) (fun _ => rfl) b
  rw [reg1, reg2, reg3]
  exact ⟨written_lanesOf on m _ hon (fun x => (x.1.1, x.2.1)) fun j => (hm j).1, written_lanesOf on m _ hon (fun x => (x.1.2.1, x.2.1)) fun j => (hm j).2.1,
    written_lanesOf on m _ hon (fun x => (x.1.2.2, x.2.1)) fun j => (hm j).2.2, comp.otherRegs lt (by simp [writeStates]), comp.flagsOf hhot flags⟩

end

/-- Lane `j` of WELFORD. -/
def welfordLane (v : VecEngine) (i : VIns) (j : Nat) : WState × Bool × Flags :=
  let m := wMerge v.subnNow (v.wstate i.vd j).1 (1, (statValue v i j).1, 0)
  (m.1, (v.wstate i.vd j).2 || v.srcHot i i.va (statLane i j), m.2 ||| (statValue v i j).2)

theorem writeStates_movedOn (v : VecEngine) (n : Nat) (rs : List (Option (WState × Bool × Flags))) :
    writeStates (movedOn v) n rs = writeStates v n rs := rfl

theorem welfordLane_movedOn (v : VecEngine) (i : VIns) : welfordLane (movedOn v) i = welfordLane v i := by
  funext j
  simp only [welfordLane, statValue_movedOn, movedOn_wstate, movedOn_subnNow, movedOn_srcHot]

theorem vWelford_eq (v : VecEngine) (i : VIns) :
    vWelford v i = writeStates v i.vd (lanesOf (statOn v i) (welfordLane v i)) := by
  have lanes : ((List.range 256).map fun j => (statX v i j).map fun x =>
        let a := v.wstate i.vd j
        let r := wMerge v.subnNow a.1 (1, x.v, 0)
        ((r.1, a.2 || x.hot, r.2 ||| x.fl) : WState × Bool × Flags))
      = lanesOf (statOn v i) (welfordLane v i) := by
    refine List.map_congr_left fun j hj => ?_
    rw [statX_eq v i (List.mem_range.mp hj), map_ite_some]
    rfl
  rw [← lanes]
  rfl

/-- Lane `j` of MERGE. -/
def mergedLane (v : VecEngine) (i : VIns) (j : Nat) : WState × Bool × Flags :=
  let m := wMerge v.subnNow (v.wstate i.vd j).1 (v.wstate i.va j).1
  (m.1, (v.wstate i.vd j).2 || (v.wstate i.va j).2, m.2)

theorem mergedLane_movedOn (v : VecEngine) (i : VIns) : mergedLane (movedOn v) i = mergedLane v i := by
  funext j
  simp only [mergedLane, movedOn_wstate, movedOn_subnNow]

theorem vMerge_eq (v : VecEngine) (i : VIns) :
    vMerge v i = writeStates v i.vd (lanesOf (fun j => decide (j < v.active 256)) (mergedLane v i)) := by
  have lanes : ∀ j, (if j < v.active 256 then
        let a := v.wstate i.vd j
        let b := v.wstate i.va j
        let r := wMerge v.subnNow a.1 b.1
        some ((r.1, a.2 || b.2, r.2) : WState × Bool × Flags)
      else none) = if decide (j < v.active 256) then some (mergedLane v i j) else none := fun j => if_congr decide_eq_true_iff.symm rfl rfl
  rw [lanesOf]
  simp only [← lanes]
  rfl

/-! ### The value of a source lane (R75, R85, R205) -/

/-- A subnormal's fraction, moved up to 23 bits below its leading one. -/
theorem log2_tail_le {k : Nat} (hk : k ≠ 0) (h : k < 2 ^ 10) : k.log2 < 10 ∧ (k - 2 ^ k.log2) * 2 ^ (23 - k.log2) ≤ 2 ^ 23 := by
  have small : k.log2 < 10 := (Nat.log2_lt hk).mpr h
  have below : k < 2 ^ (k.log2 + 1) := Nat.lt_log2_self
  refine ⟨small, ?_⟩
  calc
    (k - 2 ^ k.log2) * 2 ^ (23 - k.log2) ≤ 2 ^ k.log2 * 2 ^ (23 - k.log2) := Nat.mul_le_mul_right _ (by rw [Nat.pow_succ] at below; omega)
    _ = 2 ^ 23 := by rw [← Nat.pow_add]; congr 1; omega

theorem widen16to32_lt (b : Nat) : widen16to32 b < 2 ^ width .fp32 := by
  have ex : field b 10 5 < 32 := field_lt b 10 5
  have m : field b 0 10 < 1024 := field_lt b 0 10
  rw [width_fp32]
  unfold widen16to32
  extract_lets sgn e k l
  have hs : sgn ≤ 2 ^ 31 := by
    simp only [sgn]
    split <;> decide
  split_ifs with special normal zero
  · omega
  · omega
  · omega
  · obtain ⟨small, tail⟩ : l < 10 ∧ (k - 2 ^ l) * 2 ^ (23 - l) ≤ 2 ^ 23 := log2_tail_le zero m
    omega

theorem statValue_lt {s : State} {c : CoreId} {i : VIns} (h : Runs s c i) {u : OpUse} (hu : opUse i.op = some u) (hf : u.fmts = [0, 1]) (v : VecEngine)
    (j : Nat) : (statValue v i j).1 < 2 ^ width .fp32 := by
  unfold statValue
  dsimp only
  rcases h.lanes hu hf with ⟨-, fm, size, -⟩ | ⟨-, fm, -, -⟩
  · rw [fm]
    refine flushIn_lt v.subnNow ?_
    rw [VecEngine.src, size]
    exact VReg.part_lt (v.reg i.va) 4 (statLane i j)
  · rw [fm]
    exact widen16to32_lt _

end Sys2Proof.Machine

namespace Sys2Proof.Claims

open Sys2Proof.Machine

/-- O5 (b): each active lane of ACCSQ, WELFORD and MERGE. -/
theorem vectorStatisticsComplete : VectorStatisticsComplete := by
  intro s c i h v on x xHot
  have inside : ∀ j, statOn v i j = true → j < 256 := fun j hj => (of_decide_eq_true hj).1
  refine ⟨fun hop => ?_, fun hop => ?_, fun hop => ?_⟩
  · intro a q b hot
    obtain ⟨vd, -, -, vc⟩ := h.regs_lt
    have apart : i.vd ≠ i.vc := by
      have := h.operands
      simpa [VIns.operandsBad, hop] using this
    have out : vAccsq (movedOn v) i = writePair v i.vd i.vc (lanesOf (statOn v i) (accLane v i)) := by
      rw [vAccsq_eq, writePair_movedOn, statOn_movedOn, accLane_movedOn]
    have consumed : (writePair v i.vd i.vc (lanesOf (statOn v i) (accLane v i))).hot = hot := by
      rw [writePair_hot]
      simp only [hot]
      congr 1
      funext j
      simp only [accLane, Bool.or_assoc, Bool.or_left_comm, Bool.or_self_left]
      rfl
    obtain ⟨t, ht, comp⟩ := computes_of_runs h hop vAccsq out
    have wrote := writePair_complete vd vc apart inside (accLane_lt v i) consumed comp
    simp only [accLane] at wrote
    exact ⟨t, ht, consumed ▸ comp.frame, consumed ▸ comp.moved, comp.sr, wrote⟩
  · intro m hj hot
    have hu : opUse i.op = some ⟨.tri, .vec, .off, .off, true, [0, 1]⟩ := by rw [hop]; rfl
    have vd : i.vd ≤ 29 := by simpa [FieldUse.fits] using (h.fits hu).1
    have out : vWelford (movedOn v) i = writeStates v i.vd (lanesOf (statOn v i) (welfordLane v i)) := by
      rw [vWelford_eq, writeStates_movedOn, statOn_movedOn, welfordLane_movedOn]
    have consumed : (writeStates v i.vd (lanesOf (statOn v i) (welfordLane v i))).hot = hot := writeStates_hot v
    have fits : ∀ j, Fits32 (welfordLane v i j).1 := fun j => by
      simp only [welfordLane]
      exact wMerge_fits v.subnNow _ _ (wstate_fits v _ _) ⟨Nat.one_lt_two_pow (by decide), statValue_lt h hu rfl v j, Nat.two_pow_pos _⟩
    obtain ⟨t, ht, comp⟩ := computes_of_runs h hop vWelford out
    have wrote := writeStates_complete vd inside fits consumed comp
    have merged : ∀ j, wMerge v.subnNow (v.wstate i.vd j).1 (1, (statValue v i j).1, 0) = m j := fun _ => rfl
    simp only [welfordLane, merged] at wrote
    exact ⟨t, ht, consumed ▸ comp.frame, consumed ▸ comp.moved, comp.sr, wrote⟩
  · intro m act hj hot
    have hu : opUse i.op = some ⟨.tri, .tri, .off, .off, false, [0]⟩ := by rw [hop]; rfl
    have vd : i.vd ≤ 29 := by simpa [FieldUse.fits] using (h.fits hu).1
    have few : v.active 256 ≤ 256 := Nat.min_le_right _ _
    have out : vMerge (movedOn v) i = writeStates v i.vd (lanesOf act (mergedLane v i)) := by
      rw [vMerge_eq, writeStates_movedOn, mergedLane_movedOn]
      rfl
    have consumed : (writeStates v i.vd (lanesOf act (mergedLane v i))).hot = hot := (writeStates_hot v).trans (any_range_lt few _)
    have fits : ∀ j, Fits32 (mergedLane v i j).1 := fun j => by
      simp only [mergedLane]
      exact wMerge_fits v.subnNow _ _ (wstate_fits v _ _) (wstate_fits v _ _)
    obtain ⟨t, ht, comp⟩ := computes_of_runs h hop vMerge out
    have wrote := writeStates_complete vd (fun j hj => (of_decide_eq_true hj).trans_le few) fits consumed comp
    simp only [mergedLane] at wrote
    obtain ⟨wrote1, wrote2, wrote3, others, flags⟩ := wrote
    have flags : FlagsOf v.flags (t.core c).vec.flags (v.active 256) (fun j => (m j).2) hot := fun k hk => by
      have := flags k hk
      simp only [ite_flags_bit, act] at this
      rw [any_range_lt few] at this
      exact this
    exact ⟨t, ht, consumed ▸ comp.frame, consumed ▸ comp.moved, comp.sr, wrote1, wrote2, wrote3, others, flags⟩

end Sys2Proof.Claims

end

/-! ## TOPK (R95, R147, R148, R207) -/

section

namespace Sys2Proof.Machine

open Sys2Proof.Claims

/-! ### The order of candidates -/

/-- A candidate's place: numbers from the greatest down, then the NaNs, and the lower index first. -/
def Cand.place (a : Cand) : Bool ×ₗ ℤ ×ₗ ℕ := toLex (a.key.isNone, toLex (-a.key.getD 0, a.idx))

theorem Cand.before_iff (a b : Cand) : a.before b = true ↔ a.place < b.place := by
  obtain ⟨x, m, -⟩ := a
  obtain ⟨y, n, -⟩ := b
  cases x <;> cases y <;> simp [Cand.before, Cand.place, Prod.Lex.lt_iff]

theorem Cand.place_ne {a b : Cand} (h : a.idx ≠ b.idx) : a.place ≠ b.place := fun e => h (congrArg (fun p => (ofLex (ofLex p).2).2) e)

/-- The candidates stand in the order of their places. -/
def Ranks (l : List Cand) : Prop := l.Pairwise fun a b => a.place < b.place

theorem Cand.insert_perm (x : Cand) (l : List Cand) : (x.insert l).Perm (x :: l) := by
  induction l with
  | nil => exact List.Perm.refl _
  | cons y l ih =>
    rw [Cand.insert]
    split
    · exact List.Perm.refl _
    · exact (ih.cons y).trans (List.Perm.swap x y l)

theorem Cand.insert_ranks {x : Cand} {l : List Cand} (h : Ranks l) (apart : ∀ y ∈ l, x.place ≠ y.place) : Ranks (x.insert l) := by
  induction l with
  | nil => exact List.pairwise_singleton _ _
  | cons y l ih =>
    obtain ⟨first, rest⟩ := List.pairwise_cons.mp h
    simp only [List.forall_mem_cons] at apart
    rw [Cand.insert]
    split_ifs with lt
    · rw [Cand.before_iff] at lt
      refine List.pairwise_cons.mpr ⟨?_, h⟩
      simp only [List.forall_mem_cons]
      exact ⟨lt, fun z hz => lt.trans (first z hz)⟩
    · rw [Cand.before_iff] at lt
      refine List.pairwise_cons.mpr ⟨fun z hz => ?_, ih rest apart.2⟩
      rcases List.mem_cons.mp ((x.insert_perm l).mem_iff.mp hz) with rfl | hz
      · exact lt_of_le_of_ne (not_lt.mp lt) apart.1.symm
      · exact first z hz

/-- Candidates of distinct places, inserted in turn, end ranked. -/
theorem insert_all {l cs : List Cand} (h : Ranks l) (distinct : ((cs ++ l).map Cand.place).Nodup) :
    Ranks (cs.foldl (fun l x => x.insert l) l) ∧ (cs.foldl (fun l x => x.insert l) l).Perm (cs ++ l) := by
  induction cs generalizing l with
  | nil => exact ⟨h, List.Perm.refl _⟩
  | cons x cs ih =>
    have moved : (cs ++ x.insert l).Perm (x :: cs ++ l) := ((x.insert_perm l).append_left cs).trans List.perm_middle
    have apart : ∀ y ∈ l, x.place ≠ y.place := fun y hy e => by
      rw [List.cons_append, List.map_cons, List.nodup_cons] at distinct
      exact distinct.1 (List.mem_map.mpr ⟨y, List.mem_append_right cs hy, e.symm⟩)
    obtain ⟨ranks, perm⟩ := ih (Cand.insert_ranks h apart) ((moved.map Cand.place).nodup_iff.mpr distinct)
    exact ⟨ranks, perm.trans moved⟩

/-- Exactly as many candidates rank before one as its rank says. -/
theorem Ranks.countP_before {l : List Cand} (h : Ranks l) {r : Nat} {x : Cand} (hx : l[r]? = some x) : l.countP (·.before x) = r := by
  induction l generalizing r with
  | nil => exact absurd hx (by simp)
  | cons y l ih =>
    obtain ⟨first, rest⟩ := List.pairwise_cons.mp h
    cases r with
    | zero =>
      obtain rfl : y = x := by simpa using hx
      refine List.countP_eq_zero.mpr fun z hz => ?_
      rw [Cand.before_iff]
      rcases List.mem_cons.mp hz with rfl | hz
      · exact lt_irrefl _
      · exact (first z hz).not_gt
    | succ r =>
      have hx : l[r]? = some x := by simpa using hx
      have lt : y.before x = true := (y.before_iff x).mpr (first x (List.mem_of_getElem? hx))
      rw [List.countP_cons, ih rest hx, if_pos lt]

/-! ### The candidates of a group -/

/-- The lane's number, flushed. -/
def rankNum (v : VecEngine) (i : VIns) (l : Nat) : Nat × Flags := flushIn i.fm v.subnNow (v.src i i.va l)

/-- Candidate `j` of the group whose lanes begin at `base`. -/
def candOf (v : VecEngine) (i : VIns) (base j : Nat) : Cand :=
  if base + j < v.active i.lanes then
    { key := if (decodeF i.fm (rankNum v i (base + j)).1).isNan then none else some (orderKey i.fm (rankNum v i (base + j)).1), idx := j
      bits := v.src i i.va (base + j) }
  else { key := none, idx := j, bits := i.fm.nanBits }

/-- The flags of lane `l` of TOPK. -/
def rankFlags (v : VecEngine) (i : VIns) (l : Nat) : Flags :=
  if l < v.active i.lanes then (rankNum v i l).2 ||| (if (decodeF i.fm (rankNum v i l).1).isSig then fNV else 0) else 0

section

variable (v : VecEngine) (i : VIns) (base e g : Nat)

theorem candOf_idx (j : Nat) : (candOf v i base j).idx = j := by unfold candOf; split <;> rfl

/-- The candidate is a number: its lane is active and no NaN. -/
def isNumber (j : Nat) : Bool := decide (base + j < v.active i.lanes) && !(decodeF i.fm (rankNum v i (base + j)).1).isNan

theorem candOf_key (j : Nat) : (candOf v i base j).key = if isNumber v i base j then some (orderKey i.fm (rankNum v i (base + j)).1) else none := by
  unfold candOf isNumber
  split
  · next h => cases (decodeF i.fm (rankNum v i (base + j)).1).isNan <;> simp [h]
  · next h => simp [h]

theorem ranksBefore_eq (a b : Nat) : ranksBefore v i base a b = (candOf v i base a).before (candOf v i base b) := by
  simp only [Cand.before, candOf_key, candOf_idx]
  have unfolded : ranksBefore v i base a b = if isNumber v i base a then
        !isNumber v i base b || decide (orderKey i.fm (rankNum v i (base + b)).1 < orderKey i.fm (rankNum v i (base + a)).1)
          || (decide (orderKey i.fm (rankNum v i (base + a)).1 = orderKey i.fm (rankNum v i (base + b)).1) && decide (a < b))
      else !isNumber v i base b && decide (a < b) := rfl
  rw [unfolded]
  generalize orderKey i.fm (rankNum v i (base + a)).1 = x
  generalize orderKey i.fm (rankNum v i (base + b)).1 = y
  cases isNumber v i base a <;> cases isNumber v i base b <;> simp [beq_eq_decide]

theorem rankGroup_order : (rankGroup v i e g).order = ((List.range e).map (candOf v i (g * e))).foldl (fun l x => x.insert l) [] := by
  simp only [rankGroup, List.foldl_map]
  congr 1
  funext l j
  congr 1
  unfold candOf rankNum
  split <;> rfl

theorem rankGroup_flags_bit (b : Nat) : (rankGroup v i e g).flags.getLsbD b = (List.range e).any fun j => (rankFlags v i (g * e + j)).getLsbD b := by
  simp only [rankGroup, joinFlags_bit, List.any_map]
  congr 1
  funext j
  simp only [Function.comp, rankFlags, rankNum]
  split <;> rfl

theorem candOf_distinct : (((List.range e).map (candOf v i base)).map Cand.place).Nodup := by
  rw [List.map_map]
  refine List.nodup_range.map_on fun a _ b _ same => ?_
  by_contra ne
  exact Cand.place_ne (by rwa [candOf_idx, candOf_idx]) same

/-- Rank `r` of a group is the candidate that exactly `r` of its lanes rank before. -/
theorem rankGroup_rank {r : Nat} (hr : r < e) : ∃ x, x < e ∧ (rankGroup v i e g).order[r]? = some (candOf v i (g * e) x)
    ∧ ((List.range e).filter fun j => ranksBefore v i (g * e) j x).length = r := by
  obtain ⟨ranks, perm⟩ := insert_all (cs := (List.range e).map (candOf v i (g * e))) List.Pairwise.nil (by
    rw [List.append_nil]; exact candOf_distinct v i (g * e) e)
  rw [List.append_nil] at perm
  rw [← rankGroup_order] at ranks perm
  have len : r < (rankGroup v i e g).order.length := by rw [perm.length_eq]; simpa using hr
  have here : (rankGroup v i e g).order[r]? = some _ := List.getElem?_eq_getElem len
  obtain ⟨x, hx, same⟩ := List.mem_map.mp (perm.mem_iff.mp (List.getElem_mem len))
  refine ⟨x, List.mem_range.mp hx, by rw [here, same], ?_⟩
  simp only [ranksBefore_eq]
  rw [← List.countP_eq_length_filter, ← ranks.countP_before (here.trans (congrArg some same.symm)), perm.countP_eq, List.countP_map]
  rfl

end

/-! ### The registers of TOPK -/

/-- Groups of `e` lanes are the lanes of all groups. -/
theorem any_range_mul (n e : Nat) (p : Nat → Bool) : ((List.range n).any fun g => (List.range e).any fun j => p (g * e + j)) = (List.range (n * e)).any p := by
  rw [Bool.eq_iff_iff, List.any_eq_true, List.any_eq_true]
  simp only [List.any_eq_true, List.mem_range]
  constructor
  · rintro ⟨g, hg, j, hj, h⟩
    exact ⟨g * e + j, by nlinarith, h⟩
  · rintro ⟨l, hl, h⟩
    have pos : 0 < e := by by_contra h0; simp [show e = 0 by omega] at hl
    exact ⟨l / e, Nat.div_lt_of_lt_mul (by rwa [Nat.mul_comm]), l % e, Nat.mod_lt _ pos, by rwa [Nat.div_add_mod']⟩

theorem written_hot {sz : Nat} (hsz : PartSize sz) {r r' : VReg} {on : Nat → Bool} {g : Nat → Nat} {hot : Nat → Bool} (h : Written sz r r' on g hot)
    {j : Nat} (hj : j < 1024 / sz) (hon : on j = true) (hh : hot j = true) : r'.hot sz j = true := by
  obtain ⟨k, p, hk, hp, rfl, lane, -⟩ := part_place hsz hj
  have place : Fin.ofNat 256 ((k * (4 / sz) + p) * sz / 4) = ⟨k, hk⟩ := by rw [lane]; exact Fin.ext (Nat.mod_eq_of_lt hk)
  refine (congrArg (fun q : Fin 256 => r'.poison[q]) place).trans ((h.2 ⟨k, hk⟩).trans ?_)
  exact List.any_eq_true.mpr ⟨p, List.mem_range.mpr hp, by rw [if_pos hon, hh]⟩

/-- What lane `l` of TOPK's results holds: the candidate of its rank, if any, and whether its group is poisoned. -/
def rankAt (v : VecEngine) (i : VIns) (e k step l : Nat) : Option Cand × Bool :=
  if l / step < i.lanes / e then
    (if l % step < k then (rankGroup v i e (l / step)).order[l % step]? else none, (rankGroup v i e (l / step)).hot)
  else (none, false)

/-- A register of which every lane is written. -/
def fullReg (i : VIns) (f : Nat → Part) : VReg := VReg.zero.blend i.size ((List.range i.lanes).map fun l => some (f l)).toArray

theorem VIns.parts_eq_lanes (i : VIns) : 1024 / i.size = i.lanes := by unfold VIns.size VIns.lanes; split <;> rfl

theorem fullReg_written (i : VIns) (f : Nat → Part) (hf : ∀ l, (f l).1 < 2 ^ (8 * i.size)) :
    Written i.size VReg.zero (fullReg i f) (fun l => decide (l < i.lanes)) (fun l => (f l).1) fun l => (f l).2 := by
  refine written_blend i.partSize _ _ (fun j hj => ?_) (fun j hj => ?_) fun j _ => hf j
  · rw [i.parts_eq_lanes] at hj
    simp [hj]
  · rw [i.parts_eq_lanes] at hj
    simp [hj]

/-- What TOPK leaves. -/
def rankOut (v : VecEngine) (i : VIns) (e k step : Nat) : VOut :=
  { regs := [(i.vd, fullReg i fun l => ((((rankAt v i e k step l).1.map (·.bits)).getD 0), (rankAt v i e k step l).2)),
      (i.vb, fullReg i fun l => ((((rankAt v i e k step l).1.map (·.idx)).getD (2 ^ (8 * i.size) - 1)), (rankAt v i e k step l).2))]
    flags := (List.range (i.lanes / e)).foldl (fun f g => f ||| (rankGroup v i e g).flags) 0
    hot := (List.range (i.lanes / e)).any fun g => (rankGroup v i e g).hot
    sr := none }

theorem vTopk_eq (v : VecEngine) (i : VIns) :
    vTopk v i = rankOut v i (field i.imm 4 9) (field i.imm 0 4) (if bitOf i.imm 13 then field i.imm 0 4 else field i.imm 4 9) := by
  unfold vTopk rankOut
  generalize field i.imm 0 4 = k
  generalize field i.imm 4 9 = e
  have at_ : ∀ step l, (match ((List.range (i.lanes / e)).map (rankGroup v i e)).toArray[l / step]? with
      | some g => (if l % step < k then g.order[l % step]? else none, g.hot)
      | none => (none, false)) = rankAt v i e k step l := fun step l => by
    unfold rankAt
    by_cases h : l / step < i.lanes / e <;> simp [h]
  simp only [fullReg, ← at_, List.foldl_toArray, List.foldl_map, List.any_toArray, List.any_map]
  rfl

theorem rankGroup_movedOn (v : VecEngine) (i : VIns) (e : Nat) : rankGroup (movedOn v) i e = rankGroup v i e := by
  funext g
  simp only [rankGroup, movedOn_active, movedOn_src, movedOn_subnNow, movedOn_srcHot]
  rfl

theorem vTopk_movedOn (v : VecEngine) (i : VIns) : vTopk (movedOn v) i = vTopk v i := by
  simp only [vTopk, rankGroup_movedOn]

end Sys2Proof.Machine

namespace Sys2Proof.Machine

open Sys2Proof.Claims

section

variable (v : VecEngine) (i : VIns) {e k step l : Nat}

theorem candOf_bits (base j : Nat) : (candOf v i base j).bits = if base + j < v.active i.lanes then v.src i i.va (base + j) else i.fm.nanBits := by
  unfold candOf
  split <;> rfl

theorem rankAt_ranked (hk : k ≤ e) (hl : l / step < i.lanes / e) (hr : l % step < k) : ∃ x, x < e
    ∧ (rankAt v i e k step l).1 = some (candOf v i (l / step * e) x)
    ∧ ((List.range e).filter fun j => ranksBefore v i (l / step * e) j x).length = l % step := by
  rw [rankAt, if_pos hl, if_pos hr]
  exact rankGroup_rank v i e (l / step) (hr.trans_le hk)

theorem rankAt_unranked (h : i.lanes / e ≤ l / step ∨ k ≤ l % step) : (rankAt v i e k step l).1 = none := by
  unfold rankAt
  split
  · next hl => exact if_neg (by omega)
  · rfl

theorem rankAt_hot (hl : l / step < i.lanes / e) : (rankAt v i e k step l).2 = (List.range e).any fun j => v.srcHot i i.va (l / step * e + j) := by
  rw [rankAt, if_pos hl]
  rfl

theorem rankAt_fits (hk : k ≤ e) (he : e ≤ 256) (hsize : 2 ≤ i.size) (hnan : i.fm.nanBits < 2 ^ (8 * i.size)) (l : Nat) :
    ((rankAt v i e k step l).1.map (·.bits)).getD 0 < 2 ^ (8 * i.size)
      ∧ ((rankAt v i e k step l).1.map (·.idx)).getD (2 ^ (8 * i.size) - 1) < 2 ^ (8 * i.size) := by
  have pos : 0 < 2 ^ (8 * i.size) := Nat.two_pow_pos _
  have wide : 2 ^ 16 ≤ 2 ^ (8 * i.size) := Nat.pow_le_pow_right (by decide) (by omega)
  rcases Nat.lt_or_ge (l / step) (i.lanes / e) with hl | hl
  · rcases Nat.lt_or_ge (l % step) k with hr | hr
    · obtain ⟨x, hx, cand, -⟩ := rankAt_ranked v i hk hl hr
      rw [cand]
      simp only [Option.map_some, Option.getD_some, candOf_bits, candOf_idx]
      refine ⟨?_, by omega⟩
      split
      · exact VReg.part_lt _ _ _
      · exact hnan
    · rw [rankAt_unranked v i (.inr hr)]
      exact ⟨pos, Nat.sub_lt pos Nat.one_pos⟩
  · rw [rankAt_unranked v i (.inl hl)]
    exact ⟨pos, Nat.sub_lt pos Nat.one_pos⟩

theorem rankOut_hot : (rankOut v i e k step).hot = (List.range (i.lanes / e * e)).any fun l => v.srcHot i i.va l :=
  any_range_mul (i.lanes / e) e fun l => v.srcHot i i.va l

theorem rankOut_flags_bit (b : Nat) : (rankOut v i e k step).flags.getLsbD b = (List.range (i.lanes / e * e)).any fun l => (rankFlags v i l).getLsbD b := by
  rw [rankOut, foldl_or_bit, zero_bit, Bool.false_or]
  simp only [rankGroup_flags_bit]
  exact any_range_mul (i.lanes / e) e fun l => (rankFlags v i l).getLsbD b

end

end Sys2Proof.Machine

namespace Sys2Proof.Claims

open Sys2Proof.Machine

/-- What R207 asks of the fields of TOPK. -/
theorem Runs.topk {s : State} {c : CoreId} {i : VIns} (h : Runs s c i) (hop : i.op = 0x58) : 0 < field i.imm 0 4
    ∧ field i.imm 0 4 ≤ field i.imm 4 9 ∧ field i.imm 4 9 ≤ 256 ∧ i.vd ≠ i.vb := by
  have operands := h.operands
  simp only [VIns.operandsBad, hop, Bool.or_eq_false_iff, decide_eq_false_iff_not, beq_eq_false_iff_ne] at operands
  obtain ⟨⟨⟨⟨⟨k0, -⟩, ke⟩, -⟩, e256⟩, apart⟩ := operands
  exact ⟨by omega, by omega, by omega, apart.symm⟩

/-- O5 (c): the ranks of every group. -/
theorem vectorTopkRanksEachGroup : VectorTopkRanksEachGroup := by
  intro s c i h hop v k e step groups hot
  have hu : opUse i.op = some ⟨.vec, .vec, .vec, .off, true, [0, 1]⟩ := by rw [hop]; rfl
  obtain ⟨kpos, ke, e256, apart⟩ := h.topk hop
  obtain ⟨vd, -, vb, -⟩ := h.regs_lt
  have kstep : k ≤ step ∧ step ≤ e := by simp only [step]; split <;> omega
  have stepPos : 0 < step := kpos.trans_le kstep.1
  have size : 2 ≤ i.size ∧ i.fm.nanBits < 2 ^ (8 * i.size) := by
    rcases h.lanes hu rfl with ⟨-, fm, size, -⟩ | ⟨-, fm, size, -⟩ <;> rw [fm, size] <;> decide
  have fits := rankAt_fits v i (step := step) ke e256 size.1 size.2
  obtain ⟨t, ht, comp⟩ := computes_of_runs h hop vTopk ((vTopk_movedOn v i).trans (vTopk_eq v i))
  have consumed : (rankOut v i e k step).hot = hot := rankOut_hot v i
  have lt : ∀ x ∈ (rankOut v i e k step).regs, x.1 < 32 := by
    simp only [rankOut, List.forall_mem_cons, List.not_mem_nil, false_imp_iff, implies_true, and_true]
    exact ⟨vd, vb⟩
  have distinct : ((rankOut v i e k step).regs.map Prod.fst).Nodup := by simpa [rankOut] using apart
  have vals : Written i.size VReg.zero ((t.core c).vec.reg i.vd) _ _ _ := comp.reg_same lt distinct (.head _) ▸ fullReg_written i _ fun l => (fits l).1
  have ids : Written i.size VReg.zero ((t.core c).vec.reg i.vb) _ _ _ :=
    comp.reg_same lt distinct (.tail _ (.head _)) ▸ fullReg_written i _ fun l => (fits l).2
  have valAt : ∀ l, l < i.lanes → ((t.core c).vec.reg i.vd).part i.size l = ((rankAt v i e k step l).1.map (·.bits)).getD 0 := fun l hl =>
    (vals.1 l (i.parts_eq_lanes ▸ hl)).trans (if_pos (decide_eq_true hl))
  have idAt : ∀ l, l < i.lanes → ((t.core c).vec.reg i.vb).part i.size l = ((rankAt v i e k step l).1.map (·.idx)).getD (2 ^ (8 * i.size) - 1) := fun l hl =>
    (ids.1 l (i.parts_eq_lanes ▸ hl)).trans (if_pos (decide_eq_true hl))
  have inside : ∀ {g l}, g < groups → l < (g + 1) * step → l < i.lanes := fun {g l} hg hl => calc
    l < (g + 1) * step := hl
    _ ≤ groups * e := Nat.mul_le_mul hg kstep.2
    _ ≤ i.lanes := Nat.div_mul_le_self _ _
  refine ⟨t, ht, consumed ▸ comp.frame, consumed ▸ comp.moved, comp.sr, comp.otherRegs lt (by simp [rankOut]), fun g r hg hr => ?_, fun l hl off => ?_,
    fun g l hg low high poisoned => ?_, comp.flagsOf consumed (rankOut_flags_bit v i)⟩
  · have rstep : r < step := hr.trans_le kstep.1
    have group : (g * step + r) / step = g := by
      rw [Nat.mul_comm, Nat.mul_add_div stepPos, Nat.div_eq_of_lt rstep, Nat.add_zero]
    have rank : (g * step + r) % step = r := by rw [Nat.mul_comm, Nat.mul_add_mod, Nat.mod_eq_of_lt rstep]
    have hl : g * step + r < i.lanes := inside hg (by rw [Nat.add_mul]; omega)
    obtain ⟨x, hx, cand, before⟩ := rankAt_ranked v i (l := g * step + r) ke (group.symm ▸ hg) (rank.symm ▸ hr)
    rw [group] at cand before
    rw [rank] at before
    rw [idAt _ hl, valAt _ hl, cand]
    simp only [Option.map_some, Option.getD_some, candOf_bits, candOf_idx]
    exact ⟨hx, before, rfl⟩
  · have none : (rankAt v i e k step l).1 = none := rankAt_unranked v i (off.imp_left (Nat.le_div_iff_mul_le stepPos).mpr)
    rw [valAt l hl, idAt l hl, none]
    exact ⟨rfl, rfl⟩
  · have hl : l < i.lanes := inside hg high
    have group : l / step = g := Nat.div_eq_of_lt_le low high
    have hotAt : (rankAt v i e k step l).2 = true := by rw [rankAt_hot v i (group.symm ▸ hg), group]; exact poisoned
    exact ⟨written_hot i.partSize vals (i.parts_eq_lanes ▸ hl) (decide_eq_true hl) hotAt,
      written_hot i.partSize ids (i.parts_eq_lanes ▸ hl) (decide_eq_true hl) hotAt⟩

end Sys2Proof.Claims

open Sys2Proof Sys2Proof.Machine Sys2Proof.Claims

/-- Settles O5: the reductions by the pairwise tree, the statistics rows lane by lane, and TOPK by insertion in the order of places. -/
theorem vectorGroupRowsComplete : Obligations.VectorGroupRowsComplete := ⟨vectorReductionsComplete, vectorStatisticsComplete, vectorTopkRanksEachGroup⟩

end

/-! ## Conversions and gathered maxima: the numbers (R75, R85, R94, R208, R210) -/

section

namespace Sys2Proof.Machine

open Sys2Proof.Claims

/-! ### Infinities and NaNs of a format with an infinity -/

section

variable {f : Fmt} (hf : f ≠ .e4m3) (b : Nat)
include hf

theorem infBits_eq : f.infBits = (2 ^ f.ebits - 1) * 2 ^ f.mbits := if_neg hf

omit hf in
/-- Exponent field and fraction of a magnitude. -/
theorem mag_fields : f.mag b = f.mag b / 2 ^ f.mbits * 2 ^ f.mbits + f.mag b % 2 ^ f.mbits ∧ f.mag b / 2 ^ f.mbits ≤ 2 ^ f.ebits - 1 := by
  refine ⟨(Nat.div_add_mod' _ _).symm, ?_⟩
  have below : f.mag b / 2 ^ f.mbits < 2 ^ f.ebits := by
    rw [Nat.div_lt_iff_lt_mul (Nat.two_pow_pos _), ← Nat.pow_add]
    exact f.mag_lt b
  omega

theorem decodeF_isNan : (decodeF f b).isNan = decide (f.infBits < f.mag b) := by
  obtain ⟨whole, top⟩ := mag_fields (f := f) b
  have low : f.mag b % 2 ^ f.mbits < 2 ^ f.mbits := Nat.mod_lt _ (Nat.two_pow_pos _)
  rw [infBits_eq hf]
  unfold decodeF
  dsimp only
  rw [if_neg fun h => hf h.1]
  by_cases special : f.mag b / 2 ^ f.mbits = 2 ^ f.ebits - 1
  · rw [if_pos ⟨hf, special⟩]
    rw [special] at whole
    split_ifs with inf
    · exact (decide_eq_false (by omega)).symm
    · exact (decide_eq_true (by omega)).symm
  · rw [if_neg fun h => special h.2]
    have above : f.mag b < (2 ^ f.ebits - 1) * 2 ^ f.mbits := calc
      f.mag b < (f.mag b / 2 ^ f.mbits + 1) * 2 ^ f.mbits := by rw [Nat.add_mul]; omega
      _ ≤ (2 ^ f.ebits - 1) * 2 ^ f.mbits := Nat.mul_le_mul_right _ (by omega)
    rw [decide_eq_false above.not_gt]
    split <;> rfl

theorem mag_lt_of_decodeF_fin {n : Bool} {m : Nat} {e : Int} (h : decodeF f b = .fin n m e) : f.mag b < f.infBits := by
  obtain ⟨whole, top⟩ := mag_fields (f := f) b
  have low : f.mag b % 2 ^ f.mbits < 2 ^ f.mbits := Nat.mod_lt _ (Nat.two_pow_pos _)
  rw [infBits_eq hf]
  have ordinary : f.mag b / 2 ^ f.mbits ≠ 2 ^ f.ebits - 1 := fun special => by
    unfold decodeF at h
    dsimp only at h
    rw [if_neg fun h => hf h.1, if_pos ⟨hf, special⟩] at h
    split at h <;> exact absurd h (by simp)
  calc
    f.mag b < (f.mag b / 2 ^ f.mbits + 1) * 2 ^ f.mbits := by rw [Nat.add_mul]; omega
    _ ≤ (2 ^ f.ebits - 1) * 2 ^ f.mbits := Nat.mul_le_mul_right _ (by omega)

end

/-! ### Numbers that MAX takes as they are -/

/-- A number of FP32 that is not negative and that the input flush keeps. -/
def Settled (subn : Bool) (b : Nat) : Prop := b ≤ Fmt.fp32.infBits ∧ (flushIn .fp32 subn b).1 = b

theorem Fmt.mag_mag (f : Fmt) (b : Nat) : f.mag (f.mag b) = f.mag b := Nat.mod_mod _ _

theorem Fmt.neg_mag (f : Fmt) (b : Nat) : f.neg (f.mag b) = false := by
  simpa [Fmt.sign] using Fmt.neg_sign_add (f := f) false (f.mag_lt b)

theorem flushIn_keeps (f : Fmt) (subn : Bool) (b : Nat) : (!subn && f.subnormal (flushIn f subn b).1) = false := by
  rw [flushIn_fst]
  split
  · have zero : f.mag (f.sign (f.neg b)) = 0 := Fmt.mag_sign_add (m := 0) _ f.signBit_pos
    simp [Fmt.subnormal, zero]
  · next h => exact Bool.eq_false_iff.mpr h

theorem flushIn_idem (f : Fmt) (subn : Bool) (b : Nat) : (flushIn f subn (flushIn f subn b).1).1 = (flushIn f subn b).1 := by
  rw [flushIn_fst subn (flushIn f subn b).1, flushIn_keeps, if_neg (by decide)]

section

variable {subn : Bool} {a m : Nat}

theorem Settled.mag (h : Settled subn m) : Fmt.fp32.mag m = m := Nat.mod_eq_of_lt (h.1.trans_lt Fmt.fp32.infBits_lt)

theorem Settled.isNan (h : Settled subn m) : (decodeF .fp32 m).isNan = false := by
  rw [decodeF_isNan (by decide), h.mag]
  exact decide_eq_false h.1.not_gt

theorem Settled.place (h : Settled subn m) : orderKey .fp32 m = m := by
  have plus : Fmt.fp32.neg m = false := h.mag ▸ Fmt.neg_mag _ m
  rw [orderKey, plus, h.mag, if_neg (by decide)]

/-- The maximum of anything and a settled number is settled and no lower than either that is. -/
theorem max_settled (ha : a < 2 ^ width .fp32) (hm : Settled subn m) : Settled subn (fMaxMin true .fp32 subn a m).1 ∧ m ≤ (fMaxMin true .fp32 subn a m).1
    ∧ (Settled subn a → a ≤ (fMaxMin true .fp32 subn a m).1) := by
  have flushed : (flushIn .fp32 subn a).1 < 2 ^ width .fp32 := flushIn_lt subn ha
  have again := flushIn_idem .fp32 subn a
  have same : Settled subn a → (flushIn .fp32 subn a).1 = a := And.right
  rw [fMaxMin_eq, hm.2]
  dsimp only
  generalize (flushIn .fp32 subn a).1 = x at flushed again same
  cases nan : (decodeF .fp32 x).isNan with
  | true =>
    have out : maxMinOf .fp32 true x m = m := by simp [maxMinOf, nan, hm.isNan]
    rw [out]
    exact ⟨hm, le_rfl, fun h => absurd nan (by rw [same h, h.isNan]; decide)⟩
  | false =>
    obtain ⟨pick, above⟩ := maxMinOf_numbers true nan hm.isNan
    rw [if_pos rfl] at above
    obtain ⟨aboveX, aboveM⟩ := above
    rcases pick with out | out <;> rw [out] at aboveX aboveM ⊢
    · have plus : Fmt.fp32.neg x = false := by
        by_contra minus
        have zero : (0 : Int) ≤ orderKey .fp32 x := (hm.place ▸ Int.natCast_nonneg m).trans aboveM
        rw [orderKey, if_pos (by simpa using minus)] at zero
        omega
      have mag : Fmt.fp32.mag x = x := by simpa [plus, Fmt.sign] using Fmt.sign_add_mag flushed
      have settled : Settled subn x := ⟨by
        rw [decodeF_isNan (by decide), mag] at nan
        exact not_lt.mp (of_decide_eq_false nan), again⟩
      rw [settled.place, hm.place] at aboveM
      exact ⟨settled, by omega, fun h => (same h).ge⟩
    · refine ⟨hm, le_rfl, fun h => ?_⟩
      rw [same h, h.place, hm.place] at aboveX
      omega

end

/-! ### Widened magnitudes -/

/-- An FP16 magnitude below infinity widens to zero or to a normal number below infinity. -/
theorem widen16to32_magnitude {k : Nat} (h : k < Fmt.fp16.infBits) :
    widen16to32 k < Fmt.fp32.infBits ∧ (widen16to32 k = 0 ∨ 2 ^ 23 ≤ widen16to32 k) := by
  have hk : k < 31 * 1024 := h
  have plus : bitOf k 15 = false := by simp [bitOf, field, Nat.shiftRight_eq_div_pow]; omega
  have ex : field k 10 5 = k / 1024 := by
    rw [field, Nat.shiftRight_eq_div_pow]
    exact Nat.mod_eq_of_lt (by omega)
  have low : field k 0 10 = k % 1024 := rfl
  have inf : Fmt.fp32.infBits = 0x7F800000 := rfl
  unfold widen16to32
  simp only [plus, ex, low, inf, Bool.false_eq_true, if_false]
  split_ifs with special normal zero
  · omega
  · omega
  · omega
  · obtain ⟨small, tail⟩ := log2_tail_le zero (Nat.mod_lt _ (by decide))
    omega

/-- A finite element's magnitude, widened to FP32, is settled. -/
theorem settled_widened {f : Fmt} (hf : f = .fp32 ∨ f = .fp16) {subn : Bool} {b : Nat} {n : Bool} {m : Nat} {e : Int}
    (h : decodeF f (flushIn f subn b).1 = .fin n m e) : Settled subn (widen32 f (f.mag (flushIn f subn b).1)) := by
  have keeps := flushIn_keeps f subn b
  generalize (flushIn f subn b).1 = x at h keeps
  rcases hf with rfl | rfl
  · have below := mag_lt_of_decodeF_fin (by decide) x h
    have same : Fmt.fp32.subnormal (Fmt.fp32.mag x) = Fmt.fp32.subnormal x := by simp only [Fmt.subnormal, Fmt.mag_mag]
    refine ⟨below.le, ?_⟩
    rw [widen32, flushIn_fst, same, keeps, if_neg (by decide)]
  · have below := mag_lt_of_decodeF_fin (by decide) x h
    obtain ⟨small, normal⟩ := widen16to32_magnitude below
    refine ⟨small.le, ?_⟩
    have whole : Fmt.fp32.mag (widen16to32 (Fmt.fp16.mag x)) = widen16to32 (Fmt.fp16.mag x) := Nat.mod_eq_of_lt (small.trans Fmt.fp32.infBits_lt)
    have kept : Fmt.fp32.subnormal (widen16to32 (Fmt.fp16.mag x)) = false := by
      rw [Fmt.subnormal, whole, Bool.and_eq_false_iff, bne_eq_false_iff_eq]
      exact normal.imp_right fun h => decide_eq_false h.not_gt
    rw [show widen32 .fp16 (Fmt.fp16.mag x) = widen16to32 (Fmt.fp16.mag x) from rfl, flushIn_fst, kept, Bool.and_false, if_neg (by decide)]

/-! ### The bits of a conversion -/

theorem Fmt.width_size (f : Fmt) : width f = 8 * f.size := by cases f <;> rfl

theorem widen32_lt {f : Fmt} (hf : f ≠ .fp32) {b : Nat} (hb : f = .bf16 → b < 2 ^ width .bf16) : widen32 f b < 2 ^ width .fp32 := by
  cases f with
  | fp32 => exact absurd rfl hf
  | bf16 => exact (Nat.mul_lt_mul_of_pos_right (hb rfl) (show 0 < 65536 by decide)).trans_le (by decide)
  | fp16 => exact widen16to32_lt _
  | e4m3 => exact widen16to32_lt _
  | e5m2 => exact widen16to32_lt _

theorem convert_lt (src dst : Fmt) (mode : RMode) (r : Nat) (sat subn : Bool) (scale : Nat) {b : Nat} (hb : src = .bf16 → b < 2 ^ width .bf16) :
    (convert src dst mode r sat subn scale b).1 < 2 ^ width dst := by
  have nan := nanBits_lt_width dst
  unfold convert
  split
  · exact nan
  have small : src = .bf16 → (flushIn src subn b).1 < 2 ^ width .bf16 := fun h => by subst h; exact flushIn_lt subn (hb rfl)
  generalize flushIn src subn b = x at small
  obtain ⟨x, fx⟩ := x
  dsimp only at small ⊢
  split
  · split
    · next wide =>
      obtain ⟨rfl, hs⟩ := wide
      exact widen32_lt hs small
    · exact nan
  · next n _ =>
    by_cases hd : dst = .e4m3
    · subst hd
      cases n <;> cases sat <;> exact of_decide_eq_true rfl
    · rw [if_neg hd]
      exact Fmt.sign_add_lt n dst.infBits_lt
  · exact roundTo_lt dst mode r sat subn _

theorem suggest_eq (f : Fmt) (a : Nat) : suggest f a = suggested f a := by
  unfold suggest suggested expOf
  cases decodeF .fp32 a with
  | nan sig => rfl
  | inf n => rfl
  | fin n m e =>
    by_cases hm : m = 0
    · simp [hm]
    · simp only [hm, if_false]
      congr 1
      omega

theorem suggested_lt (f : Fmt) (a : Nat) : suggested f a < 2 ^ (8 * 1) := by
  unfold suggested
  split
  · split <;> omega
  · decide

end Sys2Proof.Machine

end

/-! ## CVT and CVT.AMAX (R80, R208 to R210) -/

section

namespace Sys2Proof.Machine

open Sys2Proof.Claims

/-! ### Parts written from a place on -/

/-- Parts for the lanes of a register from `base` on. -/
def partsFrom (base n : Nat) (p : Nat → Part) : Array (Option Part) :=
  (List.replicate base (none : Option Part)).toArray ++ ((List.range n).map fun e => some (p e)).toArray

section

variable {sz : Nat} (hsz : PartSize sz) (r : VReg) {base n : Nat} (p : Nat → Part)

theorem join_partsFrom (base n j : Nat) : ((partsFrom base n p)[j]?).join = if base ≤ j ∧ j < base + n then some (p (j - base)) else none := by
  rw [partsFrom, Array.getElem?_append]
  by_cases h : j < base
  · simp [h, show ¬ base ≤ j by omega]
  · by_cases hn : j - base < n
    · simp [h, hn, show base ≤ j ∧ j < base + n by omega]
    · simp [h, hn, show ¬ j < base + n by omega]

include hsz

theorem written_partsFrom (hn : base + n ≤ 1024 / sz) (hp : ∀ e, (p e).1 < 2 ^ (8 * sz)) :
    Written sz r (r.blend sz (partsFrom base n p)) (fun j => decide (base ≤ j ∧ j < base + n)) (fun j => (p (j - base)).1) fun j => (p (j - base)).2 := by
  refine written_blend hsz r _ (fun j _ => ?_) (fun j hj => ?_) fun j _ => hp (j - base)
  · rw [join_partsFrom]
    exact if_congr decide_eq_true_iff.symm rfl rfl
  · rw [join_partsFrom, if_neg (by omega)]

/-- … from the first lane on. -/
theorem written_parts (hn : n ≤ 1024 / sz) (hp : ∀ e, (p e).1 < 2 ^ (8 * sz)) :
    Written sz r (r.blend sz (partsFrom 0 n p)) (fun j => decide (j < n)) (fun j => (p j).1) fun j => (p j).2 := by
  simpa using written_partsFrom hsz r p (base := 0) (by omega) hp

end

theorem gatherLanes_range (n : Nat) (g : Nat → LaneRes) : gatherLanes ((List.range n).map fun e => some (g e)) =
    (partsFrom 0 n fun e => ((g e).v, (g e).hot), (List.range n).foldl (fun f e => f ||| (g e).fl) 0, (List.range n).any fun e => (g e).hot) := by
  simp [gatherLanes, partsFrom, List.foldl_map, List.any_map, Function.comp_def]

theorem replicate_append_partsFrom (base n : Nat) (p : Nat → Part) : (List.replicate base (none : Option Part)).toArray ++ partsFrom 0 n p = partsFrom base n p := by
  simp [partsFrom]

/-- Flags of the elements below `n`. -/
def flagsBelow (n : Nat) (g : Nat → Flags) : Flags := (List.range n).foldl (fun f e => f ||| g e) 0

theorem flagsBelow_bit (n : Nat) (g : Nat → Flags) (b : Nat) : (flagsBelow n g).getLsbD b = (List.range n).any fun e => (g e).getLsbD b := by
  rw [flagsBelow, foldl_or_bit, zero_bit, Bool.false_or]

/-! ### A converted register (R208, R209) -/

theorem rmodeOf_sr {rm : Nat} (h : rm ≤ 4) : (rmodeOf rm).getD .rne = .sr ↔ rm = 4 := by
  interval_cases rm <;> decide

theorem VIns.fm_fp16 {i : VIns} (h : i.fmt < 5) : i.fm = .fp16 ↔ i.fmt = 1 := by
  rw [VIns.fm]
  generalize i.fmt = f at h
  interval_cases f <;> decide

section

variable (v : VecEngine) (i : VIns) (n : Nat)

/-- vd after a conversion of `n` elements. -/
def convReg : VReg := (v.reg i.vd).blend i.fm.size (partsFrom (toPart i) n fun e => ((converted v i e).1, convHot v i e))

/-- The random sources a conversion of `n` elements leaves, where it draws. -/
def srNext : Option (Vector Word 512) := if i.rm = 4 then some (Vector.ofFn fun j : Fin 512 => if j.val < n then (draw v.sr[j]).1 else v.sr[j]) else none

/-- What a conversion of `n` elements leaves. -/
def convOut : VOut :=
  { regs := [(i.vd, convReg v i n)], flags := flagsBelow n fun e => (converted v i e).2, hot := (List.range n).any (convHot v i), sr := srNext v i n }

variable {v i n}

theorem srNext_after {v' : VecEngine} (h : v'.sr = (srNext v i n).getD v.sr) : srAfter v v' i n := by
  intro j
  rw [h, srNext]
  by_cases hr : i.rm = 4
  · simp only [hr, if_true, true_and, Option.getD_some, Fin.getElem_fin, Vector.getElem_ofFn]
    rfl
  · simp only [hr, if_false, false_and, Option.getD_none]

theorem convertReg_eq (hfmt : i.fmt < 5) (hrm : i.rm ≤ 4) : convertReg v i i.scl = convOut v i (v.active (elems i)) := by
  have element : ∀ e, (if i.src8 && i.fm == .fp16 && (decodeF .fp16 (v.elem i e)).isNan then (v.elem i e, (0 : Flags))
      else convert i.srcFmt i.fm ((rmodeOf i.rm).getD .rne) (if (rmodeOf i.rm).getD .rne = .sr then (draw v.sr[Fin.ofNat 512 e]).2 else 0) i.sat v.subnNow
        (if i.scl then (v.reg i.vb).part 1 (e / i.blk) else 127) (v.elem i e)) = converted v i e := fun e => by
    simp only [rmodeOf_sr hrm, Bool.and_eq_true, beq_iff_eq, VIns.fm_fp16 hfmt, and_assoc]
    rfl
  simp only [convertReg, element, List.map_map, Function.comp_def, gatherLanes_range, replicate_append_partsFrom]
  simp only [rmodeOf_sr hrm]
  rfl

theorem converted_lt (e : Nat) : (converted v i e).1 < 2 ^ (8 * i.fm.size) := by
  rw [← Fmt.width_size]
  unfold converted
  dsimp only
  split
  · next h =>
    obtain ⟨src8, fmt, -⟩ := h
    have fm : i.fm = .fp16 := by rw [VIns.fm, fmt]; rfl
    rw [fm, srcElem, if_pos src8]
    have one : srcBytes i = 1 := by
      rw [srcBytes, if_neg (fun h => by simp [fromFp8, h] at src8), if_pos src8]
    have byte : (v.reg i.va).part (srcBytes i) (fromPart i e) < 256 := by rw [one]; exact VReg.part_lt _ _ _
    simp only [fromFp8, Bool.or_eq_true, beq_iff_eq] at src8
    rcases src8 with src | src <;> rw [src]
    · exact widen16_lt_of_e4m3 _ byte
    · exact (Nat.mul_lt_mul_of_pos_right byte (show 0 < 256 by decide)).trans_le (by decide)
  · refine convert_lt _ _ _ _ _ _ _ fun bf16 => ?_
    unfold srcFmt at bf16
    split at bf16
    · exact absurd bf16 (by decide)
    · next src8 =>
      have src : i.src ≠ 0 := fun h => by simp [h, fmtOf] at bf16
      rw [srcElem, if_neg src8, srcBytes, if_neg src, if_neg src8]
      exact VReg.part_lt _ _ _

theorem convReg_written (hfmt : i.fmt < 5) (hn : n ≤ elems i) : Written i.fm.size (v.reg i.vd) (convReg v i n)
    (fun j => decide (toPart i ≤ j ∧ j < toPart i + n)) (fun j => (converted v i (j - toPart i)).1) fun j => convHot v i (j - toPart i) := by
  have two : field i.imm 7 2 < 4 := field_lt _ _ _
  have one : field i.imm 7 1 < 2 := field_lt _ _ _
  have inside : toPart i + elems i ≤ 1024 / i.fm.size := by
    unfold toPart elems VIns.fm
    generalize i.fmt = f at hfmt
    interval_cases f <;> simp [fmtOf, Fmt.size] <;> split <;> omega
  exact written_partsFrom i.fm.partSize _ _ (by omega) converted_lt

theorem convertReg_movedOn (v : VecEngine) (i : VIns) (scaled : Bool) : convertReg (movedOn v) i scaled = convertReg v i scaled := by
  unfold convertReg VecEngine.elem
  simp only [movedOn_active, movedOn_reg, movedOn_sr, movedOn_subnNow]
  rfl

end

end Sys2Proof.Machine

namespace Sys2Proof.Claims

open Sys2Proof.Machine

/-- O6 (a): the register a conversion writes. -/
theorem vectorConversionCompletes : VectorConversionCompletes := by
  intro s c i h hop v n on hot
  have hu : opUse i.op = some ⟨.vec, .vec, .vec, .off, true, [0, 1, 2, 3, 4]⟩ := by rw [hop]; rfl
  obtain ⟨-, -, formats, modes⟩ := h.fits hu
  have hfmt : i.fmt < 5 := by simp only [List.mem_cons, List.not_mem_nil, or_false] at formats; omega
  have out : vCvt (movedOn v) i = convOut v i n := (convertReg_movedOn v i i.scl).trans (convertReg_eq hfmt (modes (.inl hop)))
  obtain ⟨t, ht, comp⟩ := computes_of_runs h hop vCvt out
  have lt : ∀ x ∈ (convOut v i n).regs, x.1 < 32 := by
    simp only [convOut, List.forall_mem_cons, List.not_mem_nil, false_imp_iff, implies_true, and_true]
    exact h.regs_lt.1
  have reg : (t.core c).vec.reg i.vd = convReg v i n := comp.reg_same lt (by simp [convOut]) (.head _)
  refine ⟨t, ht, comp.frame, comp.moved, srNext_after comp.sr, ?_, comp.otherRegs lt (by simp [convOut]), comp.flagsOf rfl (flagsBelow_bit n _)⟩
  rw [reg]
  exact convReg_written hfmt (Nat.min_le_right _ _)

end Sys2Proof.Claims

end

/-! ## CVT.AMAX (R210) -/

section

namespace Sys2Proof.Machine

open Sys2Proof.Claims

/-! ### The maximum a block gathers -/

/-- What element `e` of `n` brings into its block's maximum: a finite one its magnitude in FP32, with the flags of its flush. -/
def entering (v : VecEngine) (i : VIns) (n e : Nat) : Option (Nat × Flags) :=
  let x := flushIn (srcFmt i) v.subnNow (srcElem v i e)
  if n ≤ e then none
  else match decodeF (srcFmt i) x.1 with
    | .fin _ _ _ => some (widen32 (srcFmt i) ((srcFmt i).mag x.1), x.2)
    | _ => none

/-- A running maximum and its flags after what an element brings. -/
def enter (subn : Bool) (acc : Nat × Flags) : Option (Nat × Flags) → Nat × Flags
  | some x => ((fMaxMin true .fp32 subn acc.1 x.1).1, acc.2 ||| ((x.2 ||| (fMaxMin true .fp32 subn acc.1 x.1).2) &&& fFLUSH))
  | none => acc

/-- The maxima that enter leave nothing below themselves. -/
theorem foldl_enter_le {subn : Bool} {l : List (Option (Nat × Flags))} (hl : ∀ x, some x ∈ l → Settled subn x.1) {acc : Nat × Flags}
    (hacc : acc.1 < 2 ^ width .fp32) : (l.foldl (enter subn) acc).1 < 2 ^ width .fp32
      ∧ (Settled subn acc.1 → acc.1 ≤ (l.foldl (enter subn) acc).1) ∧ ∀ x, some x ∈ l → x.1 ≤ (l.foldl (enter subn) acc).1 := by
  induction l generalizing acc with
  | nil => exact ⟨hacc, fun _ => le_rfl, fun x hx => absurd hx List.not_mem_nil⟩
  | cons y l ih =>
    have rest : ∀ x, some x ∈ l → Settled subn x.1 := fun x hx => hl x (List.mem_cons_of_mem _ hx)
    rw [List.foldl_cons]
    cases y with
    | none =>
      obtain ⟨lt, keeps, above⟩ := ih rest hacc
      exact ⟨lt, keeps, fun x hx => above x (by simpa using hx)⟩
    | some y =>
      obtain ⟨settled, aboveY, aboveAcc⟩ := max_settled hacc (hl y List.mem_cons_self)
      obtain ⟨lt, keeps, above⟩ := ih rest (acc := enter subn acc (some y)) (settled.1.trans_lt (by decide))
      have high := keeps settled
      refine ⟨lt, fun h => (aboveAcc h).trans high, fun x hx => ?_⟩
      rcases List.mem_cons.mp hx with hx | hx
      · rw [Option.some.inj hx]
        exact aboveY.trans high
      · exact above x hx

section

variable (v : VecEngine) (i : VIns) (n b : Nat)

theorem gathered_eq : gathered v i n b =
    ((List.range (Claims.blockLen i)).map fun j => entering v i n (b * Claims.blockLen i + j)).foldl (enter v.subnNow) ((v.reg i.vc).part 4 b, 0) := by
  rw [List.foldl_map, gathered]
  congr 1
  funext acc j
  unfold entering
  dsimp only
  split
  · rfl
  · cases decodeF (srcFmt i) (flushIn (srcFmt i) v.subnNow (srcElem v i (b * Claims.blockLen i + j))).1 <;> rfl

/-- Element `e` is poisoned. -/
def elemHot (e : Nat) : Bool := (v.reg i.va).hot (srcBytes i) (fromPart i e)

variable {v i n b}

/-- The elements of a block that are active, gathered: `F` is such a step, whichever match spells it. -/
theorem foldl_active {F : LaneRes → Nat → LaneRes} (hF : ∀ acc e, e < n → F acc e =
    { v := (enter v.subnNow (acc.v, acc.fl) (entering v i n e)).1, fl := (enter v.subnNow (acc.v, acc.fl) (entering v i n e)).2, hot := acc.hot || elemHot v i e })
    (base : Nat) (l : List Nat) (acc : LaneRes) : ((l.map fun j => base + j).filter fun e => e < n).foldl F acc =
      { v := ((l.map fun j => entering v i n (base + j)).foldl (enter v.subnNow) (acc.v, acc.fl)).1
        fl := ((l.map fun j => entering v i n (base + j)).foldl (enter v.subnNow) (acc.v, acc.fl)).2
        hot := acc.hot || l.any fun j => decide (base + j < n) && elemHot v i (base + j) } := by
  induction l generalizing acc with
  | nil => simp
  | cons j l ih =>
    rw [List.map_cons, List.map_cons, List.foldl_cons, List.any_cons]
    by_cases hj : base + j < n
    · rw [List.filter_cons_of_pos (by simpa using hj), List.foldl_cons, ih, hF acc _ hj]
      simp [hj, Bool.or_assoc]
    · have skip : entering v i n (base + j) = none := if_pos (by omega)
      rw [List.filter_cons_of_neg (by simpa using hj), ih, skip]
      simp [hj, enter]

theorem gatherBlock_eq : gatherBlock v i n b = { v := (gathered v i n b).1, fl := (gathered v i n b).2, hot := gatherHot v i n b } := by
  rw [gathered_eq]
  refine foldl_active (fun acc e he => ?_) (b * Claims.blockLen i) (List.range (Claims.blockLen i)) _
  unfold entering enter
  dsimp only
  rw [if_neg (by omega)]
  simp only [show i.srcFmt = srcFmt i from rfl, show v.elem i e = srcElem v i e from rfl]
  cases decodeF (srcFmt i) (flushIn (srcFmt i) v.subnNow (srcElem v i e)).1 <;> rfl

theorem entering_fin {e : Nat} (he : e < n) {neg : Bool} {m : Nat} {ex : Int}
    (fin : decodeF (srcFmt i) (flushIn (srcFmt i) v.subnNow (srcElem v i e)).1 = .fin neg m ex) : entering v i n e =
      some (widen32 (srcFmt i) ((srcFmt i).mag (flushIn (srcFmt i) v.subnNow (srcElem v i e)).1), (flushIn (srcFmt i) v.subnNow (srcElem v i e)).2) := by
  unfold entering
  dsimp only
  rw [if_neg he.not_ge, fin]

theorem entering_settled (hF : srcFmt i = .fp32 ∨ srcFmt i = .fp16) {e : Nat} {x : Nat × Flags} (h : entering v i n e = some x) : Settled v.subnNow x.1 := by
  unfold entering at h
  dsimp only at h
  split at h
  · exact absurd h (by simp)
  · split at h
    · next fin =>
      rw [← Option.some.inj h]
      exact settled_widened hF fin
    · exact absurd h (by simp)

/-- A block's maximum is an FP32 number no lower than any finite magnitude of the block. -/
theorem gathered_above (hF : srcFmt i = .fp32 ∨ srcFmt i = .fp16) : (gathered v i n b).1 < 2 ^ width .fp32
    ∧ ∀ e, b * Claims.blockLen i ≤ e → e < (b + 1) * Claims.blockLen i → ∀ x, entering v i n e = some x → x.1 ≤ (gathered v i n b).1 := by
  have settled : ∀ x, some x ∈ ((List.range (Claims.blockLen i)).map fun j => entering v i n (b * Claims.blockLen i + j)) → Settled v.subnNow x.1 :=
    fun x hx => by
      obtain ⟨j, -, hj⟩ := List.mem_map.mp hx
      exact entering_settled hF hj
  obtain ⟨lt, -, above⟩ := foldl_enter_le settled (acc := ((v.reg i.vc).part 4 b, 0)) (VReg.part_lt (v.reg i.vc) 4 b)
  rw [← gathered_eq] at lt above
  refine ⟨lt, fun e low high x hx => above x (List.mem_map.mpr ⟨e - b * Claims.blockLen i, List.mem_range.mpr ?_, ?_⟩)⟩
  · rw [Nat.add_mul] at high
    omega
  · rw [Nat.add_sub_cancel' low, hx]

end

/-! ### What CVT.AMAX leaves -/

section

variable (v : VecEngine) (i : VIns)

/-- MODE = 1: the suggested scales of va's lanes. -/
def scalesOut : VOut :=
  { regs := [(i.vb, (v.reg i.vb).blend 1 (partsFrom 0 (v.active 256) fun b =>
      (suggested i.fm (flushIn .fp32 v.subnNow ((v.reg i.va).part 4 b)).1, (v.reg i.va).hot 4 b)))]
    flags := flagsBelow (v.active 256) fun b => (flushIn .fp32 v.subnNow ((v.reg i.va).part 4 b)).2
    hot := (List.range (v.active 256)).any fun b => (v.reg i.va).hot 4 b
    sr := none }

/-- MODE = 0: `n` elements converted, and their `blocks` blocks gathered. -/
def maximaOut (n blocks : Nat) : VOut :=
  { regs := [(i.vd, convReg v i n), (i.vc, (v.reg i.vc).blend 4 (partsFrom 0 blocks fun b => ((gathered v i n b).1, gatherHot v i n b))),
      (i.vb, (v.reg i.vb).blend 1 (partsFrom 0 blocks fun b => (suggested i.fm (gathered v i n b).1, gatherHot v i n b)))]
    flags := (flagsBelow n fun e => (converted v i e).2) ||| flagsBelow blocks fun b => (gathered v i n b).2
    hot := (List.range n).any (convHot v i) || (List.range blocks).any (gatherHot v i n)
    sr := srNext v i n }

variable {v i}

theorem vCvtAmax_scales (h : i.mode = true) : vCvtAmax v i = scalesOut v i := by
  rw [vCvtAmax, if_pos h]
  simp only [gatherLanes_range, suggest_eq]
  rfl

theorem vCvtAmax_maxima (h : i.mode = false) (hscl : i.scl = false) (hfmt : i.fmt < 5) (hrm : i.rm ≤ 4) :
    vCvtAmax v i = maximaOut v i (v.active (elems i)) ((v.active (elems i) + Claims.blockLen i - 1) / Claims.blockLen i) := by
  have conv : convertReg v i false = convOut v i (v.active i.convCount) := hscl ▸ convertReg_eq hfmt hrm
  rw [vCvtAmax, if_neg (by simp [h])]
  simp only [conv, gatherBlock_eq, List.map_map, Function.comp_def, gatherLanes_range, suggest_eq]
  rfl

theorem vCvtAmax_movedOn (v : VecEngine) (i : VIns) : vCvtAmax (movedOn v) i = vCvtAmax v i := by
  have block : gatherBlock (movedOn v) i = gatherBlock v i := by
    funext n b
    rfl
  simp only [vCvtAmax, convertReg_movedOn, block, movedOn_active, movedOn_reg, movedOn_subnNow]

end

end Sys2Proof.Machine

namespace Sys2Proof.Machine

open Sys2Proof.Claims

section

variable {v : VecEngine} {i : VIns} {n blocks : Nat}

/-- Without block scales every mark a block consumes is that of its lane of vc or of an element. -/
theorem maximaOut_hot (hscl : i.scl = false) :
    (maximaOut v i n blocks).hot = ((List.range n).any (convHot v i) || (List.range blocks).any fun b => (v.reg i.vc).hot 4 b) := by
  have plain : ∀ e, convHot v i e = elemHot v i e := fun e => by
    rw [convHot, show bitOf i.imm 5 = false from hscl, Bool.false_and, Bool.or_false]
    rfl
  rw [Bool.eq_iff_iff]
  simp only [maximaOut, Bool.or_eq_true, List.any_eq_true, List.mem_range, gatherHot, Bool.and_eq_true, decide_eq_true_eq]
  constructor
  · rintro (hot | ⟨b, hb, lane | ⟨j, -, hj, element⟩⟩)
    · exact .inl hot
    · exact .inr ⟨b, hb, lane⟩
    · exact .inl ⟨_, hj, (plain _).trans element⟩
  · rintro (hot | ⟨b, hb, lane⟩)
    · exact .inl hot
    · exact .inr ⟨b, hb, .inl lane⟩

/-- What a gathered conversion leaves in its three registers and in the flags. -/
theorem maximaOut_complete {s t : State} {c : CoreId} {hot : Bool} (hregs : i.vd < 32 ∧ i.vb < 32 ∧ i.vc < 32)
    (apart : i.vb ≠ i.vc ∧ i.vb ≠ i.vd ∧ i.vc ≠ i.vd) (hfmt : i.fmt = 2 ∨ i.fmt = 3) (hF : srcFmt i = .fp32 ∨ srcFmt i = .fp16) (hn : n ≤ elems i)
    (hblocks : blocks ≤ 256) (hhot : (maximaOut (s.core c).vec i n blocks).hot = hot) (comp : Computes s t c (maximaOut (s.core c).vec i n blocks)) :
    OtherRegs (s.core c).vec (t.core c).vec [i.vd, i.vb, i.vc]
      ∧ Written 1 ((s.core c).vec.reg i.vd) ((t.core c).vec.reg i.vd) (fun j => decide (toPart i ≤ j ∧ j < toPart i + n))
          (fun j => (converted (s.core c).vec i (j - toPart i)).1) (fun j => convHot (s.core c).vec i (j - toPart i))
      ∧ Written 4 ((s.core c).vec.reg i.vc) ((t.core c).vec.reg i.vc) (fun b => decide (b < blocks)) (fun b => (gathered (s.core c).vec i n b).1)
          (gatherHot (s.core c).vec i n)
      ∧ Written 1 ((s.core c).vec.reg i.vb) ((t.core c).vec.reg i.vb) (fun b => decide (b < blocks))
          (fun b => suggested i.fm (gathered (s.core c).vec i n b).1) (gatherHot (s.core c).vec i n)
      ∧ ∀ b, b < 8 → (t.core c).vec.flags.getLsbD b
          = ((s.core c).vec.flags.getLsbD b || ((List.range n).any fun e => (converted (s.core c).vec i e).2.getLsbD b)
              || ((List.range blocks).any fun k => (gathered (s.core c).vec i n k).2.getLsbD b) || (b == 6 && hot)) := by
  obtain ⟨vd, vb, vc⟩ := hregs
  obtain ⟨bc, bd, cd⟩ := apart
  have byte : i.fm.size = 1 := by rcases hfmt with h | h <;> rw [VIns.fm, h] <;> rfl
  have lt : ∀ x ∈ (maximaOut (s.core c).vec i n blocks).regs, x.1 < 32 := by
    simp only [maximaOut, List.forall_mem_cons, List.not_mem_nil, false_imp_iff, implies_true, and_true]
    exact ⟨vd, vc, vb⟩
  have distinct : ((maximaOut (s.core c).vec i n blocks).regs.map Prod.fst).Nodup := by
    simp [maximaOut, bc.symm, bd.symm, cd.symm]
  have regD : (t.core c).vec.reg i.vd = convReg (s.core c).vec i n := comp.reg_same lt distinct (.head _)
  have regC : (t.core c).vec.reg i.vc = ((s.core c).vec.reg i.vc).blend 4 _ := comp.reg_same lt distinct (.tail _ (.head _))
  have regB : (t.core c).vec.reg i.vb = ((s.core c).vec.reg i.vb).blend 1 _ := comp.reg_same lt distinct (.tail _ (.tail _ (.head _)))
  refine ⟨comp.otherRegs lt (by simp [maximaOut]), ?_, ?_, ?_, fun b hb => ?_⟩
  · rw [regD, ← byte]
    exact convReg_written (by omega) hn
  · rw [regC]
    exact written_parts (.inr (.inr rfl)) _ _ hblocks fun b => (gathered_above hF).1
  · rw [regB]
    exact written_parts (.inl rfl) _ _ (hblocks.trans (by decide)) fun b => suggested_lt _ _
  · rw [comp.flagsOf (n := 1) (g := fun _ => (maximaOut (s.core c).vec i n blocks).flags) hhot (by simp) b hb]
    simp only [maximaOut, List.range_one, List.any_cons, List.any_nil, Bool.or_false, BitVec.getLsbD_or, flagsBelow_bit, Bool.or_assoc]

end

end Sys2Proof.Machine

namespace Sys2Proof.Claims

open Sys2Proof.Machine

/-- What R210 asks of the fields of CVT.AMAX. -/
theorem Runs.cvtAmax {s : State} {c : CoreId} {i : VIns} (h : Runs s c i) (hop : i.op = 0x61) : (i.fmt = 2 ∨ i.fmt = 3) ∧ i.rm ≤ 4 ∧ i.scl = false
    ∧ (i.vb ≠ i.vc ∧ i.vb ≠ i.vd ∧ i.vc ≠ i.vd) ∧ (i.mode = false → i.src ≤ 3) := by
  have hu : opUse i.op = some ⟨.vec, .vec, .vec, .vec, true, [2, 3]⟩ := by rw [hop]; rfl
  obtain ⟨-, -, formats, modes⟩ := h.fits hu
  have operands := h.operands
  simp only [VIns.operandsBad, hop, Bool.or_eq_false_iff, beq_eq_false_iff_ne] at operands
  obtain ⟨⟨⟨⟨⟨scl, -⟩, bc⟩, bd⟩, cd⟩, source⟩ := operands
  exact ⟨by simpa using formats, modes (.inr hop), scl, ⟨bc, bd, cd⟩, fun mode => by simpa [mode] using source⟩

theorem srcFmt_wide {i : VIns} (h : i.src ≤ 3) : srcFmt i = .fp32 ∨ srcFmt i = .fp16 := by
  unfold srcFmt fromFp8
  generalize i.src = f at h
  interval_cases f <;> decide

/-- O6 (b): the suggested scales, and the conversion that gathers its blocks. -/
theorem vectorConversionGathersMaxima : VectorConversionGathersMaxima := by
  intro s c i h hop v n blk blocks hot
  obtain ⟨fmt, rm, scl, apart, source⟩ := h.cvtAmax hop
  obtain ⟨vd, -, vb, vc⟩ := h.regs_lt
  cases mode : i.mode with
  | true =>
    have bit : bitOf i.imm 9 = true := mode
    have consumed : hot = (scalesOut v i).hot := if_pos bit
    obtain ⟨t, ht, comp⟩ := computes_of_runs h hop vCvtAmax ((vCvtAmax_movedOn v i).trans (vCvtAmax_scales mode))
    have lt : ∀ x ∈ (scalesOut v i).regs, x.1 < 32 := by simpa [scalesOut] using vb
    have only : OtherRegs v (t.core c).vec [i.vb] := comp.otherRegs lt (by simp [scalesOut])
    have reg : (t.core c).vec.reg i.vb = (v.reg i.vb).blend 1 _ := comp.reg_same lt (by simp [scalesOut]) (.head _)
    refine ⟨t, ht, consumed ▸ comp.frame, consumed ▸ comp.moved, comp.otherRegs lt (by simp [scalesOut]), fun _ => ?_,
      fun no => absurd (bit.symm.trans no) (by decide)⟩
    refine ⟨only _ vd (by simpa using apart.2.1.symm), only _ vc (by simpa using apart.1.symm), comp.sr, ?_,
      comp.flagsOf consumed.symm (flagsBelow_bit _ _)⟩
    rw [reg]
    exact written_parts (.inl rfl) _ _ ((Nat.min_le_right _ _).trans (by decide)) fun b => suggested_lt _ _
  | false =>
    have bit : bitOf i.imm 9 = false := mode
    have hF := srcFmt_wide (source mode)
    have few : n ≤ elems i := Nat.min_le_right _ _
    have fewBlocks : blocks ≤ 256 := by
      have most : elems i ≤ 512 := by unfold elems; split <;> omega
      simp only [blocks, blk, Claims.blockLen]
      split <;> omega
    have consumed : (maximaOut v i n blocks).hot = hot := (maximaOut_hot scl).trans (if_neg (by simp [bit])).symm
    obtain ⟨t, ht, comp⟩ := computes_of_runs h hop vCvtAmax ((vCvtAmax_movedOn v i).trans (vCvtAmax_maxima mode scl (by omega) rm))
    obtain ⟨others, conv, maxima, scales, flags⟩ := maximaOut_complete ⟨vd, vb, vc⟩ apart fmt hF few fewBlocks consumed comp
    refine ⟨t, ht, consumed ▸ comp.frame, consumed ▸ comp.moved, others, fun yes => absurd (bit.symm.trans yes) (by decide), fun _ => ?_⟩
    refine ⟨srNext_after comp.sr, conv, maxima, scales, flags, ?_⟩
    intro b hb e low high he x ⟨neg, m, ex, fin⟩
    have lane : ((t.core c).vec.reg i.vc).part 4 b = (gathered v i n b).1 := (maxima.1 b (hb.trans_le fewBlocks)).trans (if_pos (decide_eq_true hb))
    rw [lane]
    exact (gathered_above hF).2 e low high _ (entering_fin he fin)

end Sys2Proof.Claims

open Sys2Proof Sys2Proof.Machine Sys2Proof.Claims

/-- Settles O6: element by element for the converted register, and by the running maximum, which nothing that enters exceeds, for the gathered blocks. -/
theorem vectorConversionsComplete : Obligations.VectorConversionsComplete := ⟨vectorConversionCompletes, vectorConversionGathersMaxima⟩

end

/-! ## PROMOTION and the band count (R113) -/

section

namespace Sys2Proof.Claims

open Sys2Proof.Machine

/-- A step of no chunks from row 0 that awaits its promotion. -/
def emptyStep : FlightStep :=
  { id := 0, slot := 0, group := 0, row0 := 0, a := [], orient := false, subn := true, zgate := true, flushed := false, poisoned := false, poisonAt := 0
    overflow := false, chunks := [], desc := 0 }

/-- A dense tile, installed. -/
def denseTile : Tile :=
  { geom := 0, scaleMode := 0, subn := true, colMax := [], rowMax := [], zeroMap := 0, flushed := false, poisoned := false, area := none, k := 32, n := 32
    installed := true }

/-- A group whose bands have all gone one past the limit of R113. -/
def longGroup : Group := { Group.closed with state := .opened, bands := Vector.replicate 32 65537, len := true }

/-- A released die whose engine 0 of core 0 holds that step for that group. -/
def longBandState : State :=
  ((({ State.reset with porst := false } : State).modCore 0 fun _ => awakeFor 5).modEng 0 0 fun x =>
    { x with flight := [emptyStep], slots := upd x.slots 0 fun _ => some denseTile }).modGroup 0 0 0 fun _ => longGroup

/-- That band takes no further term (R113): it stays where it is. -/
theorem longBandState_promotes : ((longBandState.promote 0 0).group 0 0 emptyStep.group).bands[(0 : Fin 32)] = 65537 := by decide +kernel

end Sys2Proof.Claims

open Sys2Proof Sys2Proof.Machine Sys2Proof.Claims

/-- Refutes O21: nothing the statement asks bounds a band's count, which the state keeps as a natural number. A band at 65,537, which no run reaches, takes no
further term (R113) and stays at 65,537, where the statement has it at 65,536. -/
theorem not_promotionAddsChunksToTheGroup : ¬ Obligations.PromotionAddsChunksToTheGroup := by
  intro h
  have wf : longBandState.wf := by unfold State.wf; decide +kernel
  obtain ⟨t, ht, -, -, -, bands, -⟩ := h longBandState 0 0 emptyStep denseTile wf (by decide +kernel) (by decide +kernel) (by decide +kernel) (by decide +kernel)
    (by decide)
  have performed : exec (.promotion 0 0) longBandState = .next (longBandState.promote 0 0) := ev_powered longBandState (·.promote 0 0) (by decide +kernel)
  obtain rfl : longBandState.promote 0 0 = t := Host.Outcome.next.inj (performed.symm.trans ht)
  have before : min 65536 ((longBandState.eng 0 0).groups[(0 : Fin 8)].bands[(0 : Fin 32)] + 1) = 65536 := by decide +kernel
  exact absurd (longBandState_promotes.symm.trans (bands.trans before)) (by decide)

end

/-! ## Short sums: each cube rounded once, their sum and its range (R31, R103 to R105) -/

section

namespace Sys2Proof.Machine

open Sys2Proof.Claims

/-! ### Rounding to the grid (R31, R79) -/

theorem nearestEven_neg {x : ℚ} {q : ℤ} (h : NearestEven x q) : NearestEven (-x) (-q) := by
  have size : |-x - ((-q : ℤ) : ℚ)| = |x - q| := by
    rw [← abs_neg (x - q)]
    congr 1
    push_cast
    ring
  rw [NearestEven, size]
  exact h.imp_right fun ⟨tie, even⟩ => ⟨tie, by omega⟩

/-- A number that is one of the two neighbours of n + f, as ties-to-even decides. -/
theorem nearestEven_of_roundsAway {n q : ℤ} {f : ℚ} (h0 : 0 ≤ f) (h1 : f < 1) (hq : q = n ∨ q = n + 1) (up : q = n + 1 ↔ roundsAway .rne false 0 n f) :
    NearestEven (n + f) q := by
  simp only [roundsAway] at up
  rcases hq with rfl | rfl
  · have down : ¬ (f > 1 / 2 ∨ (f = 1 / 2 ∧ q % 2 = 1)) := fun h => by have := up.mpr h; omega
    have size : |(q : ℚ) + f - q| = f := by rw [add_sub_cancel_left, abs_of_nonneg h0]
    rw [NearestEven, size]
    rcases lt_trichotomy f (1 / 2) with h | h | h
    · exact .inl h
    · exact .inr ⟨h, by have : ¬ q % 2 = 1 := fun o => down (.inr ⟨h, o⟩); omega⟩
    · exact absurd (.inl h) down
  · have size : |(n : ℚ) + f - ((n + 1 : ℤ) : ℚ)| = 1 - f := by
      rw [← abs_neg, abs_of_nonneg] <;> push_cast <;> linarith
    rw [NearestEven, size]
    rcases up.mp rfl with h | ⟨h, odd⟩
    · exact .inl (by linarith)
    · exact .inr ⟨by linarith, by omega⟩

/-- The magnitude of a multiple of 2^e rounded to a multiple of 2^u. -/
theorem roundAt_nearest (neg : Bool) (m : Nat) (e u : Int) : let r := roundAt .rne 0 (exactly neg m e) u
    NearestEven (m * (2 : ℚ) ^ e / (2 : ℚ) ^ u) r.1 ∧ (r.2 = true ↔ m * (2 : ℚ) ^ e / (2 : ℚ) ^ u ≠ r.1) := by
  intro r
  obtain ⟨x, hx⟩ : ∃ x : ℚ, x = m * (2 : ℚ) ^ e / (2 : ℚ) ^ u := ⟨_, rfl⟩
  have size : exactSize (exactly neg m e) = (⌊x⌋ + Int.fract x) * (2 : ℚ) ^ u := by
    rw [Int.floor_add_fract, hx, div_mul_cancel₀ _ (zpow_ne_zero _ two_ne_zero)]
    rfl
  obtain ⟨hq, up, inexact⟩ := roundingFollowsTheModes .rne 0 (exactly neg m e) u rfl ⌊x⌋ (Int.fract x) size (Int.fract_nonneg x) (Int.fract_lt_one x)
  have nearest := nearestEven_of_roundsAway (Int.fract_nonneg x) (Int.fract_lt_one x) hq up
  rw [Int.floor_add_fract] at nearest
  rw [← hx]
  refine ⟨by exact_mod_cast nearest, inexact.trans (not_congr ⟨fun h => ?_, fun h => ?_⟩)⟩
  · rw [NearestEven, ← Int.floor_add_fract x, h, add_zero] at nearest
    have here : ((roundAt .rne 0 (exactly neg m e) u).1 : ℤ) = ⌊x⌋ := by
      rcases hq with hq | hq
      · exact hq
      · rw [hq] at nearest
        norm_num at nearest
    rw [← Int.floor_add_fract x, h, add_zero]
    exact_mod_cast here.symm
  · rw [h]
    exact Int.fract_natCast _

/-- A multiple of 2^e rounded to a multiple of 2^u. -/
theorem roundGrid_nearest (v e u : Int) :
    NearestEven (v * (2 : ℚ) ^ e / (2 : ℚ) ^ u) (roundGrid v e u).1 ∧ ((roundGrid v e u).2 = true ↔ v * (2 : ℚ) ^ e / (2 : ℚ) ^ u ≠ (roundGrid v e u).1) := by
  unfold roundGrid
  split
  case isTrue fine =>
    obtain ⟨k, hk⟩ := Int.eq_ofNat_of_zero_le (a := e - u) (by omega)
    have exact : (v : ℚ) * (2 : ℚ) ^ e / (2 : ℚ) ^ u = ((v * (2 ^ (e - u).toNat : Nat) : ℤ) : ℚ) := by
      rw [mul_div_assoc, ← zpow_sub₀ two_ne_zero, hk]
      push_cast
      simp
    rw [exact]
    exact ⟨.inl (by norm_num), by simp⟩
  case isFalse =>
    obtain ⟨nearest, inexact⟩ := roundAt_nearest (v < 0) v.natAbs e u
    dsimp only
    generalize roundAt .rne 0 (exactly (v < 0) v.natAbs e) u = r at nearest inexact
    split
    case isTrue negative =>
      have size : (v : ℚ) = -(v.natAbs : ℚ) := by
        rw [← Int.cast_natCast, Int.ofNat_natAbs_of_nonpos negative.le]
        simp
      have flip : (v : ℚ) * (2 : ℚ) ^ e / (2 : ℚ) ^ u = -(v.natAbs * (2 : ℚ) ^ e / (2 : ℚ) ^ u) := by
        rw [size]
        ring
      rw [flip, inexact]
      exact ⟨nearestEven_neg nearest, not_congr (by push_cast; exact neg_inj.symm)⟩
    case isFalse positive =>
      have size : (v : ℚ) = (v.natAbs : ℚ) := by
        rw [← Int.cast_natCast, Int.natAbs_of_nonneg (by omega)]
      rw [size]
      exact ⟨nearest, by exact_mod_cast inexact⟩

/-! ### A cube's exact sum (R31) -/

/-- A product as a signed dyadic; 0 where an operand is no finite number. -/
def productOf : FVal × FVal → Int × Int
  | (.fin n1 m1 e1, .fin n2 m2 e2) => (if n1 != n2 then -((m1 * m2 : Nat) : Int) else ((m1 * m2 : Nat) : Int), e1 + e2)
  | _ => (0, 0)

/-- The value of a signed dyadic. -/
def dyadic (t : Int × Int) : ℚ := t.1 * (2 : ℚ) ^ t.2

theorem foldl_min_le (ts : List (Int × Int)) (a : Int) : let e := ts.foldl (fun a t => min a t.2) a
    e ≤ a ∧ ∀ t ∈ ts, e ≤ t.2 := by
  induction ts generalizing a with
  | nil => simp
  | cons t ts ih =>
    obtain ⟨first, rest⟩ := ih (min a t.2)
    simp only [List.foldl_cons, List.forall_mem_cons]
    exact ⟨first.trans (min_le_left _ _), first.trans (min_le_right _ _), rest⟩

theorem dyadic_scaled {t : Int × Int} {e : Int} (h : e ≤ t.2) : (t.1 * ((2 ^ (t.2 - e).toNat : Nat) : Int) : ℤ) * (2 : ℚ) ^ e = dyadic t := by
  obtain ⟨k, hk⟩ := Int.eq_ofNat_of_zero_le (a := t.2 - e) (by omega)
  have he : t.2 = k + e := by omega
  rw [dyadic, hk, he, zpow_add₀ two_ne_zero]
  push_cast
  simp [mul_assoc]

/-- Signed dyadics brought to one exponent below all of theirs. -/
theorem sum_scaled {e : Int} {ts : List (Int × Int)} (h : ∀ t ∈ ts, e ≤ t.2) :
    ((ts.map fun t => t.1 * ((2 ^ (t.2 - e).toNat : Nat) : Int)).sum : ℤ) * (2 : ℚ) ^ e = (ts.map dyadic).sum := by
  induction ts with
  | nil => simp
  | cons t ts ih =>
    rw [List.forall_mem_cons] at h
    simp only [List.map_cons, List.sum_cons]
    rw [Int.cast_add, add_mul, ih h.2, dyadic_scaled h.1]

theorem sum_nonzero (ts : List (Int × Int)) : ((ts.filter fun t => t.1 != 0).map dyadic).sum = (ts.map dyadic).sum := by
  induction ts with
  | nil => rfl
  | cons t ts ih =>
    by_cases h : t.1 = 0
    · simp [h, ih, dyadic]
    · simp [h, ih]

theorem dotExact_value (ps : List (FVal × FVal)) : ((dotExact ps).1 : ℚ) * (2 : ℚ) ^ (dotExact ps).2 = (ps.map fun p => dyadic (productOf p)).sum := by
  have products : (ps.map fun p => dyadic (productOf p)).sum = (((ps.map productOf).filter fun t => t.1 != 0).map dyadic).sum := by
    rw [sum_nonzero, List.map_map]
    rfl
  rw [products]
  exact sum_scaled (foldl_min_le _ _).2

theorem dyadic_productOf (x y : El) : dyadic (productOf (x.v, y.v)) = elQ x * elQ y := by
  unfold productOf elQ dyadic
  cases x.v with
  | fin n1 m1 e1 =>
    cases y.v with
    | fin n2 m2 e2 => cases n1 <;> cases n2 <;> simp [zpow_add₀] <;> ring
    | _ => simp
  | _ => simp

/-- The operands of a cube's products. -/
def cubePairs (row : Array El) (tile : Array (Array El)) (cube : List (Nat × Nat × Nat)) : List (FVal × FVal) :=
  cube.map fun t => ((row[t.1]?).getD El.zero |>.v, (elAt tile t.2.1 t.2.2).v)

/-- A cube's rounded sum, in units of 2^u, and whether it was inexact. -/
def cubeRound (u : Int) (row : Array El) (tile : Array (Array El)) (cube : List (Nat × Nat × Nat)) : Int × Bool :=
  roundGrid (dotExact (cubePairs row tile cube)).1 (dotExact (cubePairs row tile cube)).2 u

theorem cubeRound_nearest (u : Int) (row : Array El) (tile : Array (Array El)) (cube : List (Nat × Nat × Nat)) : let r := cubeRound u row tile cube
    NearestEven (cubeQ row tile cube / (2 : ℚ) ^ u) r.1 ∧ (r.2 = true ↔ cubeQ row tile cube / (2 : ℚ) ^ u ≠ r.1) := by
  have value : cubeQ row tile cube
      = (dotExact (cubePairs row tile cube)).1 * (2 : ℚ) ^ (dotExact (cubePairs row tile cube)).2 := by
    rw [dotExact_value, cubePairs, List.map_map, cubeQ]
    simp only [Function.comp_def, dyadic_productOf]
  rw [value]
  exact roundGrid_nearest _ _ u

/-! ### The sum over the cubes and its range (R103, R104) -/

/-- Cube `x` joins the partial sum, with whether one was inexact and whether a sum has left its range. -/
def joinCube (lim : Int) (acc : Int × Bool × Bool) (x : Int × Bool) : Int × Bool × Bool :=
  (acc.1 + x.1, acc.2.1 || x.2, acc.2.2 || (x.1 < -lim || lim ≤ x.1 || acc.1 + x.1 < -lim || lim ≤ acc.1 + x.1))

/-- A rounded cube sum, or the partial sum that ends with it, lies outside the range. -/
def LeavesRange (lim : Int) (q : List ℤ) (i : Nat) : Prop :=
  q.getD i 0 < -lim ∨ lim ≤ q.getD i 0 ∨ (q.take (i + 1)).sum < -lim ∨ lim ≤ (q.take (i + 1)).sum

theorem leavesRange_append {lim : Int} {q : List ℤ} {x : ℤ} : (∃ i, i < (q ++ [x]).length ∧ LeavesRange lim (q ++ [x]) i)
    ↔ (∃ i, i < q.length ∧ LeavesRange lim q i) ∨ (x < -lim ∨ lim ≤ x ∨ q.sum + x < -lim ∨ lim ≤ q.sum + x) := by
  have before : ∀ i, i < q.length → (LeavesRange lim (q ++ [x]) i ↔ LeavesRange lim q i) := fun i hi => by
    rw [LeavesRange, LeavesRange, List.getD_append _ _ _ _ hi, List.take_append_of_le_length (by omega)]
  have last : LeavesRange lim (q ++ [x]) q.length ↔ (x < -lim ∨ lim ≤ x ∨ q.sum + x < -lim ∨ lim ≤ q.sum + x) := by
    simp [LeavesRange, List.take_of_length_le]
  rw [← last]
  constructor
  · rintro ⟨i, hi, h⟩
    rw [List.length_append, List.length_singleton] at hi
    rcases Nat.lt_succ_iff_lt_or_eq.mp hi with hi | rfl
    · exact .inl ⟨i, hi, (before i hi).mp h⟩
    · exact .inr h
  · rintro (⟨i, hi, h⟩ | h)
    · exact ⟨i, by rw [List.length_append]; omega, (before i hi).mpr h⟩
    · exact ⟨_, by simp, h⟩

theorem foldl_joinCube (lim : Int) (xs : List (Int × Bool)) : let r := xs.foldl (joinCube lim) (0, false, false)
    r.1 = (xs.map (·.1)).sum ∧ (r.2.1 = true ↔ ∃ x ∈ xs, x.2 = true)
      ∧ (r.2.2 = true ↔ ∃ i, i < (xs.map (·.1)).length ∧ LeavesRange lim (xs.map (·.1)) i) := by
  induction xs using List.reverseRecOn with
  | nil => simp
  | append_singleton xs x ih =>
    obtain ⟨sum, inexact, out⟩ := ih
    rw [List.foldl_append, List.foldl_cons, List.foldl_nil, List.map_append, List.map_cons, List.map_nil, leavesRange_append]
    generalize xs.foldl (joinCube lim) (0, false, false) = r at sum inexact out
    refine ⟨by simp [joinCube, sum], ?_, ?_⟩
    · simp only [joinCube, Bool.or_eq_true, inexact, List.mem_append, List.mem_singleton, or_and_right, exists_or, exists_eq_left]
    · simp only [joinCube, Bool.or_eq_true, decide_eq_true_eq, out, sum, or_assoc]

/-- The cubes' sums of an output as its chunk takes them. -/
theorem outputChunk_some (geom hr : Nat) (a b : Int) (row : Array El) (tile : Array (Array El)) (cubes : List (List (Nat × Nat × Nat))) :
    let bits : Int := if geom = 2 then 38 else 18
    let u : Int := a + b + hr - bits
    let r := (cubes.map (cubeRound u row tile)).foldl (joinCube (2 ^ (bits.toNat + 1))) (0, false, false)
    let o := outputChunk geom hr (some a) (some b) row tile cubes
    o.1.unit = u ∧ o.1.q = r.1 ∧ o.1.inexact = r.2.1 ∧ o.2 = r.2.2 := by
  have lim : (if geom = 2 then 2 ^ 39 else 2 ^ 19 : Int) = 2 ^ ((if geom = 2 then 38 else 18 : Int).toNat + 1) := by split <;> rfl
  simp only [outputChunk, lim, List.foldl_map]
  exact ⟨trivial, rfl, rfl, rfl⟩

/-- The distance of a sum of rounded numbers from the sum of the numbers. -/
theorem abs_sum_rounded_le {α : Type} (x : α → ℚ) (q : α → ℤ) (l : List α) (h : ∀ a ∈ l, |x a - q a| ≤ 1 / 2) :
    |((l.map q).sum : ℚ) - (l.map x).sum| ≤ l.length / 2 := by
  induction l with
  | nil => simp
  | cons a l ih =>
    rw [List.forall_mem_cons] at h
    have first := abs_le.mp h.1
    have rest := abs_le.mp (ih h.2)
    simp only [List.map_cons, List.sum_cons, List.length_cons]
    rw [abs_le, Int.cast_add, Nat.cast_succ]
    constructor <;> linarith

theorem abs_le_of_nearestEven {x : ℚ} {q : ℤ} (h : NearestEven x q) : |x - q| ≤ 1 / 2 := h.elim le_of_lt fun h => h.1.le

end Sys2Proof.Machine

open Sys2Proof Sys2Proof.Machine Sys2Proof.Claims

/-- Settles O18: each cube by `cubeRound_nearest`, the range of the sums by `foldl_joinCube`. -/
theorem chunksAreSumsOfRoundedCubeSums : Obligations.ChunksAreSumsOfRoundedCubeSums := by
  intro geom hr a b row tile cubes bits lim u r
  obtain ⟨unit, sum, inexact, out⟩ := outputChunk_some geom hr a b row tile cubes
  have nearest := cubeRound_nearest u row tile
  obtain ⟨total, anyInexact, anyOut⟩ := foldl_joinCube lim (cubes.map (cubeRound u row tile))
  refine ⟨unit, (cubes.map (cubeRound u row tile)).map (·.1), by simp, sum.trans total, fun i hi hq => ?_, ?_, ?_, fun eight => ?_⟩
  · simpa using (nearest cubes[i]).1
  · rw [out]
    exact anyOut
  · rw [inexact, anyInexact]
    constructor
    · rintro ⟨x, hx, h⟩
      obtain ⟨i, hi, rfl⟩ := List.getElem_of_mem hx
      simp only [List.length_map, List.getElem_map] at hi h
      exact ⟨i, hi, by simpa [hi] using (nearest cubes[i]).2.mp h⟩
    · rintro ⟨i, hi, h⟩
      exact ⟨cubeRound u row tile cubes[i], List.mem_map_of_mem (List.getElem_mem hi), (nearest cubes[i]).2.mpr (by simpa [hi] using h)⟩
  · have pos : (0 : ℚ) < (2 : ℚ) ^ u := by positivity
    have far := abs_sum_rounded_le (fun cube => cubeQ row tile cube / (2 : ℚ) ^ u) (fun cube => (cubeRound u row tile cube).1) cubes
      fun cube _ => abs_le_of_nearestEven (nearest cube).1
    have scaled : (cubes.map fun cube => cubeQ row tile cube / (2 : ℚ) ^ u).sum = (cubes.map (cubeQ row tile)).sum / (2 : ℚ) ^ u := by
      simp only [div_eq_mul_inv, List.sum_map_mul_right]
    rw [scaled, eight] at far
    have q : r.1.q = (cubes.map fun cube => (cubeRound u row tile cube).1).sum := by
      rw [sum, total, List.map_map]
      rfl
    have factor : (r.1.q : ℚ) * (2 : ℚ) ^ u - (cubes.map (cubeQ row tile)).sum
        = ((r.1.q : ℚ) - (cubes.map (cubeQ row tile)).sum / (2 : ℚ) ^ u) * (2 : ℚ) ^ u := by
      rw [sub_mul, div_mul_cancel₀ _ pos.ne']
    rw [factor, abs_mul, abs_of_pos pos, q]
    refine mul_le_mul_of_nonneg_right (far.trans ?_) pos.le
    norm_num

end

/-! ## Full headroom: no sum leaves its range (R105) -/

section

namespace Sys2Proof.Machine

open Sys2Proof.Claims

/-! ### An element and the exponent it gives the maximum search (R102) -/

/-- The largest magnitude that exponent `k` in the maximum search leaves an element with `m` bits after the leading one; 0 where no element takes part. -/
def topOf (m : Nat) : Option Int → ℚ
  | none => 0
  | some k => (2 ^ (m + 1) - 1) * (2 : ℚ) ^ (k - m)

theorem two_pow_sub_one_nonneg (m : Nat) : (0 : ℚ) ≤ 2 ^ m - 1 := sub_nonneg.mpr (one_le_pow₀ one_le_two)

theorem topOf_nonneg (m : Nat) (k : Option Int) : 0 ≤ topOf m k := by
  cases k with
  | none => exact le_rfl
  | some k => exact mul_nonneg (two_pow_sub_one_nonneg _) (zpow_nonneg two_pos.le _)

theorem topOf_le_topOf {m : Nat} {j k : Int} (h : j ≤ k) : topOf m (some j) ≤ topOf m (some k) :=
  mul_le_mul_of_nonneg_left (zpow_le_zpow_right₀ one_le_two (by omega)) (two_pow_sub_one_nonneg _)

theorem topOf_le_maxExp_left (m : Nat) (a b : Option Int) : topOf m a ≤ topOf m (maxExp a b) := by
  cases a with
  | none => exact topOf_nonneg m _
  | some j =>
    cases b with
    | none => exact le_rfl
    | some k => exact topOf_le_topOf (le_max_left j k)

theorem topOf_le_maxExp_right (m : Nat) (a b : Option Int) : topOf m b ≤ topOf m (maxExp a b) := by
  cases b with
  | none => exact topOf_nonneg m _
  | some k =>
    cases a with
    | none => exact le_rfl
    | some j => exact topOf_le_topOf (le_max_right j k)

theorem topOf_le_foldl (m : Nat) (xs : List El) (a : Option Int) : let r := xs.foldl (fun a x => maxExp a x.exp) a
    topOf m a ≤ topOf m r ∧ ∀ x ∈ xs, topOf m x.exp ≤ topOf m r := by
  induction xs generalizing a with
  | nil => simp
  | cons x xs ih =>
    obtain ⟨first, rest⟩ := ih (maxExp a x.exp)
    simp only [List.foldl_cons, List.forall_mem_cons]
    exact ⟨(topOf_le_maxExp_left m a x.exp).trans first, (topOf_le_maxExp_right m a x.exp).trans first, rest⟩

theorem topOf_le_maxExps {m : Nat} {xs : List El} {x : El} (h : x ∈ xs) : topOf m x.exp ≤ topOf m (maxExps xs) := (topOf_le_foldl m xs none).2 x h

/-- The element lies within what its exponent leaves it. -/
def El.Within (m : Nat) (x : El) : Prop := |elQ x| ≤ topOf m x.exp

theorem El.zero_within (m : Nat) : El.zero.Within m := by simp [El.Within, El.zero, elQ, topOf]

/-- A decoded number other than 0: its significand, whose leading place its exponent field gives. -/
theorem decodeF_fin {f : Fmt} {b m : Nat} {neg : Bool} {e : Int} (h : decodeF f b = .fin neg m e) (hm : m ≠ 0) :
    m < 2 ^ (f.mbits + 1) ∧ if f.subnormal b then e = f.emin - f.mbits else Nat.log2 m = f.mbits := by
  have rest : f.mag b % 2 ^ f.mbits < 2 ^ f.mbits := Nat.mod_lt _ (Nat.two_pow_pos _)
  unfold decodeF at h
  dsimp only at h
  split_ifs at h with _ _ _ zero <;> cases h
  · have small : f.mag b < 2 ^ f.mbits := (Nat.div_eq_zero_iff.mp zero).resolve_left (by positivity)
    rw [Nat.mod_eq_of_lt small] at hm rest ⊢
    have sub : f.subnormal b = true := by simp [Fmt.subnormal, hm, small]
    rw [if_pos sub, pow_succ]
    exact ⟨by omega, rfl⟩
  · have large : ¬ f.mag b < 2 ^ f.mbits := fun small => zero (Nat.div_eq_of_lt small)
    have sub : f.subnormal b = false := by simp [Fmt.subnormal, large]
    rw [if_neg (by simp [sub]), Nat.log2_eq_iff hm, pow_succ]
    omega

/-- A number other than 0 by its significand, where its exponent in the maximum search names the significand's leading place. -/
theorem within_of_lead {n m : Nat} {neg : Bool} {e k : Int} (below : m < 2 ^ (n + 1)) (lead : k = e + n) (flushed : Bool) :
    El.Within n { v := .fin neg m e, ff := false, exp := some k, flushed := flushed } := by
  have size : (m : ℚ) * (2 : ℚ) ^ e ≤ (2 ^ (n + 1) - 1) * (2 : ℚ) ^ e := by
    refine mul_le_mul_of_nonneg_right ?_ (zpow_nonneg two_pos.le _)
    rw [le_sub_iff_add_le]
    exact_mod_cast below
  have pos : (0 : ℚ) ≤ m * (2 : ℚ) ^ e := by positivity
  rw [El.Within, topOf, lead, add_sub_cancel_right]
  cases neg <;> simpa [elQ, abs_of_nonneg pos] using size

theorem elem_within (f : Fmt) (subn : Bool) (scale bits : Nat) : (elem f subn scale bits).Within f.mbits := by
  unfold elem
  split
  · simp [El.Within, elQ, topOf]
  split
  · simp [El.Within, elQ, topOf]
  cases decoded : decodeF f bits with
  | nan _ => simp [El.Within, elQ, topOf]
  | inf _ => simp [El.Within, elQ, topOf]
  | fin neg m e =>
    by_cases hm : m = 0
    · simp [El.Within, elQ, topOf, hm]
    obtain ⟨below, lead⟩ := decodeF_fin decoded hm
    simp only [if_neg hm]
    split at lead
    case isTrue sub =>
      rw [if_pos sub]
      exact within_of_lead below (by omega) _
    case isFalse normal =>
      rw [if_neg normal]
      exact within_of_lead below (by omega) _

theorem within_of_staged {f : Fmt} {x : El} (h : Staged f x) : x.Within f.mbits := by
  rcases h with rfl | ⟨subn, scale, bits, -, -, rfl⟩
  · exact El.zero_within _
  · exact elem_within ..

/-! ### The sums of an output -/

theorem abs_sum_le_length_mul {l : List ℚ} {c : ℚ} (h : ∀ x ∈ l, |x| ≤ c) : |l.sum| ≤ l.length * c := by
  induction l with
  | nil => simp
  | cons x l ih =>
    rw [List.forall_mem_cons] at h
    simp only [List.sum_cons, List.length_cons]
    push_cast
    linarith [abs_add_le x l.sum, ih h.2, h.1]

/-- An output's operands at 8 cubes of at most four products, all within the maxima of their rows and columns. -/
structure OutputWithin (m : Nat) (eA eB : Option Int) (row : Array El) (tile : Array (Array El)) (cubes : List (List (Nat × Nat × Nat))) : Prop where
  count : cubes.length = 8
  products : ∀ cube ∈ cubes, cube.length ≤ 4
  left : ∀ i : Nat, |elQ ((row[i]?).getD El.zero)| ≤ topOf m eA
  right : ∀ cube ∈ cubes, ∀ t ∈ cube, |elQ (elAt tile t.2.1 t.2.2)| ≤ topOf m eB

/-- At HR = 6 eight rounded sums of four products stay below the range: 32 times the largest product, and half a unit for each cube. -/
theorem headroom (geom : Nat) (a b : Int) : let bits : Int := if geom = 2 then 38 else 18
    let m := (geomFmt geom).mbits
    8 * (4 * (topOf m (some a) * topOf m (some b)) / (2 : ℚ) ^ (a + b + 6 - bits) + 1 / 2) < ((2 ^ (bits.toNat + 1) : Int) : ℚ) := by
  intro bits m
  have product : topOf m (some a) * topOf m (some b) / (2 : ℚ) ^ (a + b + 6 - bits) = (2 ^ (m + 1) - 1) ^ 2 * (2 : ℚ) ^ (bits - 6 - 2 * m) := by
    have exponent : (2 : ℚ) ^ (bits - 6 - 2 * m) = (2 : ℚ) ^ (a - m) * (2 : ℚ) ^ (b - m) / (2 : ℚ) ^ (a + b + 6 - bits) := by
      rw [← zpow_add₀ two_ne_zero, ← zpow_sub₀ two_ne_zero]
      congr 1
      omega
    rw [exponent, topOf, topOf]
    ring
  rw [mul_div_assoc, product]
  by_cases h : geom = 2
  · subst h
    decide +kernel
  · have bits18 : bits = 18 := if_neg h
    have m10 : m = 10 := by simp only [m, geomFmt, if_neg h, Fmt.mbits]
    rw [bits18, m10]
    decide +kernel

theorem OutputWithin.cubeQ_le {m : Nat} {eA eB : Option Int} {row : Array El} {tile : Array (Array El)} {cubes : List (List (Nat × Nat × Nat))}
    (h : OutputWithin m eA eB row tile cubes) : ∀ cube ∈ cubes, |cubeQ row tile cube| ≤ 4 * (topOf m eA * topOf m eB) := by
  intro cube hcube
  have product : ∀ x ∈ cube.map fun t => elQ ((row[t.1]?).getD El.zero) * elQ (elAt tile t.2.1 t.2.2), |x| ≤ topOf m eA * topOf m eB := by
    intro x hx
    obtain ⟨t, ht, rfl⟩ := List.mem_map.mp hx
    rw [abs_mul]
    exact mul_le_mul (h.left t.1) (h.right cube hcube t ht) (abs_nonneg _) (topOf_nonneg m eA)
  have count : ((cube.length : Nat) : ℚ) ≤ 4 := by exact_mod_cast h.products cube hcube
  have total := abs_sum_le_length_mul product
  rw [List.length_map] at total
  exact total.trans (mul_le_mul_of_nonneg_right count (mul_nonneg (topOf_nonneg m eA) (topOf_nonneg m eB)))

theorem OutputWithin.no_overflow {geom : Nat} {eA eB : Option Int} {row : Array El} {tile : Array (Array El)} {cubes : List (List (Nat × Nat × Nat))}
    (h : OutputWithin (geomFmt geom).mbits eA eB row tile cubes) : (outputChunk geom 6 eA eB row tile cubes).2 = false := by
  cases eA with
  | none => rfl
  | some a =>
  cases eB with
  | none => rfl
  | some b =>
  obtain ⟨-, q, length, -, nearest, leaves, -, -⟩ := chunksAreSumsOfRoundedCubeSums geom 6 a b row tile cubes
  rw [Bool.eq_false_iff]
  intro overflows
  obtain ⟨i, hi, out⟩ := leaves.mp overflows
  have room := headroom geom a b
  simp only [Nat.cast_ofNat] at nearest out
  generalize (if geom = 2 then 38 else 18 : Int) = bits at nearest out room
  dsimp only at room
  have cubeSum := h.cubeQ_le
  generalize 4 * (topOf (geomFmt geom).mbits (some a) * topOf (geomFmt geom).mbits (some b)) = top at room cubeSum
  have unit : (0 : ℚ) < (2 : ℚ) ^ (a + b + 6 - bits) := by positivity
  have rounded : ∀ x ∈ q.map (fun z : ℤ => (z : ℚ)), |x| ≤ top / (2 : ℚ) ^ (a + b + 6 - bits) + 1 / 2 := by
    intro x hx
    obtain ⟨z, hz, rfl⟩ := List.mem_map.mp hx
    obtain ⟨j, hj, rfl⟩ := List.getElem_of_mem hz
    have near := abs_le_of_nearestEven (nearest j (length ▸ hj) hj)
    have exact := div_le_div_of_nonneg_right (cubeSum _ (List.getElem_mem (length ▸ hj))) unit.le
    rw [← abs_of_pos unit, ← abs_div, abs_of_pos unit] at exact
    have := abs_sub_abs_le_abs_sub (q[j] : ℚ) (cubeQ row tile cubes[j] / (2 : ℚ) ^ (a + b + 6 - bits))
    rw [abs_sub_comm] at this
    linarith
  generalize top / (2 : ℚ) ^ (a + b + 6 - bits) + 1 / 2 = c at room rounded
  have eight := h.count
  have taken : ((q.take (i + 1)).length : ℚ) ≤ 8 := by
    have : (q.take (i + 1)).length ≤ 8 := (List.length_take_le _ _).trans (by omega)
    exact_mod_cast this
  have one : |((q.getD i 0 : ℤ) : ℚ)| ≤ c := by
    rw [List.getD_eq_getElem _ _ (by omega)]
    exact rounded _ (List.mem_map_of_mem (List.getElem_mem _))
  have nonneg : 0 ≤ c := (abs_nonneg _).trans one
  have partialSum : |(((q.take (i + 1)).sum : ℤ) : ℚ)| ≤ 8 * c := by
    have sum := abs_sum_le_length_mul (l := (q.take (i + 1)).map (fun z : ℤ => (z : ℚ)))
      fun x hx => rounded x (List.map_subset _ (List.take_subset _ _) hx)
    rw [List.length_map] at sum
    rw [Int.cast_list_sum]
    exact sum.trans (mul_le_mul_of_nonneg_right taken nonneg)
  have below : ∀ z : ℤ, |(z : ℚ)| ≤ 8 * c → -(2 ^ (bits.toNat + 1) : ℤ) < z ∧ z < 2 ^ (bits.toNat + 1) := fun z hz => by
    obtain ⟨low, high⟩ := abs_lt.mp (hz.trans_lt room)
    exact ⟨by exact_mod_cast low, by exact_mod_cast high⟩
  have entry := below _ (one.trans (by linarith))
  have sum := below _ partialSum
  omega

/-! ### The operands of every output (R43, R129) -/

theorem geomN_eq (g : Nat) : geomN g = if g = 2 then 16 else 32 := rfl

/-- The stored row and column of every product of an output are inside the array, and its column (its row, transposed) is the output's. -/
theorem cubeTerms_inside {g : Nat} {orient : Bool} {area : List Byte} {j : Nat} (dense : orient = true → g ≠ 1) {cube : List (Nat × Nat × Nat)}
    (hcube : cube ∈ cubeTerms g orient area j) : cube.length ≤ 4 ∧ ∀ t ∈ cube, if orient then t.2.1 = j ∧ t.2.2 < geomN g else t.2.1 < 32 ∧ t.2.2 = j := by
  unfold cubeTerms at hcube
  cases orient with
  | true =>
    simp only [if_pos, List.mem_map, List.mem_range] at hcube
    obtain ⟨b, hb, rfl⟩ := hcube
    simp only [List.length_map, List.length_range, List.forall_mem_map, List.mem_range, geomN_eq]
    split <;> simp <;> omega
  | false =>
    simp only [Bool.false_eq_true, if_false] at hcube
    split at hcube <;>
    · simp only [List.mem_map, List.mem_range] at hcube
      obtain ⟨b, hb, rfl⟩ := hcube
      simp
      omega

theorem cubeTerms_length (g : Nat) (orient : Bool) (area : List Byte) (j : Nat) : (cubeTerms g orient area j).length = 8 := by
  unfold cubeTerms
  split
  · simp
  split <;> simp

/-- An element of an A row lies within the row's maximum exponent. -/
theorem row_within (f : Fmt) (subn : Bool) (r : List (Nat × Nat)) (i : Nat) : let row := (r.map fun x => elem f subn x.2 x.1).toArray
    |elQ ((row[i]?).getD El.zero)| ≤ topOf f.mbits (maxExps row.toList) := by
  intro row
  cases hx : row[i]? with
  | none => exact (El.zero_within f.mbits).trans (topOf_nonneg _ _)
  | some x =>
    rw [← Array.getElem?_toList] at hx
    have mem := List.mem_of_getElem? hx
    obtain ⟨y, -, rfl⟩ := List.mem_map.mp mem
    exact (elem_within f subn y.2 y.1).trans (topOf_le_maxExps mem)

end Sys2Proof.Machine

open Sys2Proof Sys2Proof.Machine Sys2Proof.Claims

/-- Settles O19: every operand lies within the maxima of its row and column, which leave eight cubes room (`headroom`). -/
theorem fullHeadroomNeverOverflows : Obligations.FullHeadroomNeverOverflows := by
  intro t tile area orient subn zgate a _ dense staged colMax rowMax _
  have element (r j : Nat) := within_of_staged (staged r j)
  simp only [stepResult, List.any_eq_false, Bool.not_eq_true, List.forall_mem_map]
  intro r _ x hx
  obtain ⟨hj, hcubes⟩ : x.2 < (if orient then 32 else geomN t.geom.toNat) ∧ x.1 = cubeTerms t.geom.toNat orient area x.2 := by
    obtain ⟨-, hj, hget⟩ := List.mem_zipIdx hx
    simp at hj hget
    exact ⟨hj, hget⟩
  refine OutputWithin.no_overflow ⟨?_, ?_, row_within _ subn r, ?_⟩
  · rw [hcubes, cubeTerms_length]
  · intro cube hcube
    exact (cubeTerms_inside (fun h g => dense h (BitVec.eq_of_toNat_eq g)) (hcubes ▸ hcube)).1
  · intro cube hcube term hterm
    have inside := (cubeTerms_inside (fun h g => dense h (BitVec.eq_of_toNat_eq g)) (hcubes ▸ hcube)).2 term hterm
    refine (element _ _).trans ?_
    cases orient with
    | true =>
      obtain ⟨row, column⟩ := by simpa using inside
      rw [if_pos rfl, rowMax _ (by simpa using hj), row]
      exact topOf_le_maxExps (List.mem_map_of_mem (List.mem_range.mpr column))
    | false =>
      obtain ⟨row, column⟩ := by simpa using inside
      rw [if_neg Bool.false_ne_true, colMax _ (by simpa using hj), column]
      exact topOf_le_maxExps (List.mem_map_of_mem (List.mem_range.mpr row))

end

/-! ## The mover's accesses to bytes it is granted (R19, R216, R219) -/

section

namespace Sys2Proof.Machine

open Sys2Proof.Claims

variable {s t r : State} {c : CoreId}

/-! ### What logging leaves of the Belfry -/

/-- The Belfry says as before to whom the Dome's slices belong and how long a wait lasts by default. -/
structure SameSetup (s t : State) : Prop where
  owner : t.blf.sliceOwner = s.blf.sliceOwner
  wait : t.blf.waitDefault = s.blf.waitDefault

theorem SameSetup.refl (s : State) : SameSetup s s := ⟨rfl, rfl⟩

theorem SameSetup.trans (h : SameSetup s t) (h' : SameSetup t r) : SameSetup s r := ⟨h'.owner.trans h.owner, h'.wait.trans h.wait⟩

theorem SameSetup.of_blf (h : t.blf = s.blf) : SameSetup s t := ⟨by rw [h], by rw [h]⟩

theorem Belfry.write_setup (b : Belfry) (x : FaultRec) : (b.write x).sliceOwner = b.sliceOwner ∧ (b.write x).waitDefault = b.waitDefault := by
  unfold Belfry.write
  dsimp only
  split
  · exact ⟨rfl, rfl⟩
  split <;> exact ⟨rfl, rfl⟩

theorem State.logTo_setup (s : State) (both : Bool) (i : FaultInfo) : SameSetup s (s.logTo both i) := by
  obtain ⟨owner, wait⟩ := Belfry.write_setup (s.blf.clearSkipped i) (s.recordOf i)
  unfold State.logTo
  dsimp only
  split <;> exact ⟨owner, wait⟩

theorem State.modBlf_setup (s : State) (f : Belfry → Belfry) (owner : (f s.blf).sliceOwner = s.blf.sliceOwner) (wait : (f s.blf).waitDefault = s.blf.waitDefault) :
    SameSetup s (s.modBlf f) := ⟨owner, wait⟩

theorem State.logLimited_setup (s : State) (period : Nat) (both : Bool) (i : FaultInfo) : SameSetup s (s.logLimited period both i) := by
  unfold State.logLimited
  dsimp only
  split
  · split
    · exact ⟨rfl, rfl⟩
    · exact (s.modBlf_setup _ rfl rfl).trans (State.logTo_setup _ both i)
  · exact (s.modBlf_setup _ rfl rfl).trans (State.logTo_setup _ both i)

theorem State.eccRead_setup (s : State) (u : Nat × Bool) : SameSetup s (s.eccRead u) := by
  unfold State.eccRead
  extract_lets a r i n t
  have counted : SameSetup s r := s.modBlf_setup _ rfl rfl
  have logged : SameSetup s t := counted.trans (r.logLimited_setup _ _ _)
  split
  · exact ⟨rfl, rfl⟩
  split
  · exact logged
  · exact logged.trans (t.modBlf_setup _ rfl rfl)

theorem State.demand_setup (s : State) (a n : Nat) : SameSetup s (s.demand a n) :=
  foldl_holds State.eccRead (SameSetup s) (fun t u h => h.trans (t.eccRead_setup u)) _ _ ⟨rfl, rfl⟩

theorem State.readP_setup (s : State) (a n : Nat) : SameSetup s (s.readP a n).1 := s.demand_setup a n

theorem State.rmw_setup (s : State) (a n : Nat) : SameSetup s (s.rmw a n) := by
  unfold State.rmw
  split
  · exact .refl s
  · extract_lets t
    have first : SameSetup s t := by
      simp only [t]
      split
      · exact s.demand_setup a 1
      · exact .refl s
    split
    · exact first.trans (t.demand_setup _ _)
    · exact first

theorem State.storeP_setup (s : State) (a : Nat) (bs : Marked) : SameSetup s (s.storeP a bs) := by
  refine (s.rmw_setup a bs.length).trans ?_
  unfold State.storeP
  dsimp only
  split <;> exact ⟨rfl, rfl⟩

/-! ### Verdicts and grants -/

/-- What the checks of an access look at in a core. -/
def Core.standing (k : Core) : Bool × Bool × CState × Option (BitVec 16) := (k.present, k.short, k.cstate, k.owner)

theorem State.verdict_congr (hd : t.dstate = s.dstate) (hb : t.blf.sliceOwner = s.blf.sliceOwner) (hc : ∀ d, (t.core d).standing = (s.core d).standing)
    (key : Option (BitVec 16)) (a : Nat) (w : Bool) : t.verdict key a w = s.verdict key a w := by
  have gated : ∀ r, t.gated r = s.gated r := fun r => by unfold State.gated; rw [hd]
  have fields (d : CoreId) : (t.core d).present = (s.core d).present ∧ (t.core d).owner = (s.core d).owner
      ∧ (∀ r, (t.core d).refuses r = (s.core d).refuses r) ∧ (t.core d).stateCode = (s.core d).stateCode := by
    obtain ⟨present, short, cstate, owner⟩ : (t.core d).present = (s.core d).present ∧ (t.core d).short = (s.core d).short
        ∧ (t.core d).cstate = (s.core d).cstate ∧ (t.core d).owner = (s.core d).owner := by simpa [Core.standing] using hc d
    exact ⟨present, owner, fun r => by unfold Core.refuses; rw [short, cstate], by unfold Core.stateCode; rw [short, cstate]⟩
  unfold State.verdict
  dsimp only
  rw [gated]
  cases region a with
  | cupola d | lantern d | csr d =>
    obtain ⟨present, owner, refuses, code⟩ := fields d
    dsimp only
    rw [present, owner, refuses, code]
  | dome d =>
    dsimp only
    rw [hb]
  | _ => rfl

theorem granted_congr (hd : t.dstate = s.dstate) (hb : SameSetup s t) (hc : ∀ d, (t.core d).standing = (s.core d).standing) {x : Nat} {w : Bool}
    (h : Granted s c x w) : Granted t c x w := by
  have owner : (t.core c).owner = (s.core c).owner := congrArg (fun k => k.2.2.2) (hc c)
  refine ⟨?_, h.2⟩
  rw [State.verdict_congr hd hb.owner hc, owner]
  exact h.1

/-- The SRAM and the Belfry's log alone differ: the same bytes are granted. -/
theorem granted_of_die (die : t = { s with mem := t.mem, blf := t.blf }) (hb : SameSetup s t) {x : Nat} {w : Bool} (h : Granted s c x w) : Granted t c x w :=
  granted_congr (by rw [die]) hb (fun d => by rw [die]; rfl) h

theorem granted_memory {x : Nat} {w : Bool} (h : Granted s c x w) :
    (region x).isRegs = false ∧ (∀ d, region x ≠ .lantern d) ∧ ∀ n, s.misfit x n = false := by
  obtain ⟨-, ⟨d, hd⟩ | ⟨d, hd⟩⟩ := h <;> simp [hd, Region.isRegs, State.misfit]

/-! ### Pieces follow one another -/

/-- The list cuts the bytes from `a` to `b` into pieces that follow one another. -/
def Consecutive : Nat → List (Nat × Nat) → Nat → Prop
  | a, [], b => a = b
  | a, p :: l, b => p.1 = a ∧ 0 < p.2 ∧ Consecutive (a + p.2) l b

theorem Consecutive.le {a b : Nat} {l : List (Nat × Nat)} (h : Consecutive a l b) : a ≤ b := by
  induction l generalizing a with
  | nil => exact Nat.le_of_eq h
  | cons p l ih =>
    obtain ⟨-, -, rest⟩ := h
    exact (Nat.le_add_right a p.2).trans (ih rest)

/-- Pieces between rising cuts. -/
theorem consecutive_cuts (cut : Nat → Nat) (i m : Nat) (h : ∀ j, i ≤ j → j < i + m → cut j < cut (j + 1)) :
    Consecutive (cut i) ((List.range' i m).map fun j => (cut j, cut (j + 1) - cut j)) (cut (i + m)) := by
  induction m generalizing i with
  | zero => rfl
  | succ m ih =>
    have first := h i le_rfl (by omega)
    have rest := ih (i + 1) fun j hj hj' => h j (by omega) (by omega)
    rw [List.range'_succ, List.map_cons]
    refine ⟨rfl, by dsimp only; omega, ?_⟩
    rwa [Nat.add_sub_cancel' first.le, show i + (m + 1) = i + 1 + m by omega]

/-- Where piece `i` of the `n` bytes from `a` begins (R216). -/
def lineCut (a n i : Nat) : Nat := max a (min (a + n) (64 * (a / 64 + i)))

theorem pieces_consecutive (a n : Nat) : Consecutive a (pieces a n) (a + n) := by
  unfold pieces
  split
  case isTrue none => simp [Consecutive, none]
  case isFalse some =>
    have rising : ∀ j, j < (a + n - 1) / 64 - a / 64 + 1 → lineCut a n j < lineCut a n (j + 1) := fun j hj => by
      unfold lineCut
      omega
    have cuts := consecutive_cuts (lineCut a n) 0 ((a + n - 1) / 64 - a / 64 + 1) fun j _ hj => rising j (by omega)
    have first : lineCut a n 0 = a := by
      unfold lineCut
      omega
    have last : lineCut a n (0 + ((a + n - 1) / 64 - a / 64 + 1)) = a + n := by
      unfold lineCut
      omega
    rw [first, last, ← List.range_eq_range'] at cuts
    convert cuts using 1
    refine List.map_congr_left fun j hj => ?_
    rw [List.mem_range] at hj
    unfold lineCut
    dsimp only
    rw [Prod.mk.injEq]
    omega

/-! ### Reads and writes of granted bytes -/

theorem MoveAcc.readPiece_granted {m : MoveAcc} {p : Nat × Nat} (go : m.stop = false) (h : Granted m.s c p.1 false) :
    m.readPiece c p = ({ m with s := (m.s.readP p.1 p.2).1 }, (m.s.readP p.1 p.2).2) := by
  obtain ⟨regs, lantern, fits⟩ := granted_memory h
  unfold MoveAcc.readPiece
  simp only [go, fits, regs, h.1, Bool.false_eq_true, if_false]

theorem MoveAcc.writePiece_granted {m : MoveAcc} {a : Nat} {bs : Marked} (go : m.stop = false) (h : Granted m.s c a true) :
    m.writePiece c a bs = { m with s := m.s.storeP a bs } := by
  obtain ⟨regs, lantern, fits⟩ := granted_memory h
  unfold MoveAcc.writePiece State.dieWrite
  simp only [go, fits, regs, h.1, Bool.or_self, Bool.false_eq_true, if_false]

/-- The mover has read the bytes from `a` to `b`, and nothing was refused. -/
structure GrantedRead (m : MoveAcc) (data : Marked) (r : MoveAcc × Marked) (a b : Nat) : Prop where
  reads : Reads m.s r.1.s
  setup : SameSetup m.s r.1.s
  outs : r.1.outs = m.outs
  stop : r.1.stop = false
  bytes : bytesOf r.2 = bytesOf data ++ (List.range (b - a)).map fun i => m.s.mem.byteAt (a + i)

theorem readPieces_granted {l : List (Nat × Nat)} {a b : Nat} (cut : Consecutive a l b) (m : MoveAcc) (data : Marked) (wf : m.s.mem.wf = true)
    (go : m.stop = false) (h : ∀ x, a ≤ x → x < b → Granted m.s c x false) :
    GrantedRead m data (l.foldl (fun acc p => let r := acc.1.readPiece c p; (r.1, acc.2 ++ r.2)) (m, data)) a b := by
  induction l generalizing a m data with
  | nil =>
    have : a = b := cut
    exact ⟨.refl _, .refl _, rfl, go, by simp [this]⟩
  | cons p l ih =>
    obtain ⟨rfl, some, rest⟩ := cut
    have fits := rest.le
    have reads := m.s.readP_reads p.1 p.2
    have setup := m.s.readP_setup p.1 p.2
    have after := ih rest { m with s := (m.s.readP p.1 p.2).1 } (data ++ (m.s.readP p.1 p.2).2) (reads.wf wf) go
      fun x hx hb => granted_of_die reads.die setup (h x (by omega) hb)
    rw [List.foldl_cons, MoveAcc.readPiece_granted go (h p.1 le_rfl (by omega))]
    refine ⟨reads.trans after.reads, setup.trans after.setup, after.outs, after.stop, ?_⟩
    rw [after.bytes, bytesOf_append, State.readP_bytes, Memory.load_eq _ wf, List.append_assoc]
    congr 1
    rw [show b - p.1 = p.2 + (b - (p.1 + p.2)) by omega, List.range_add, List.map_append, List.map_map]
    simp only [Function.comp_def, reads.byteAt, Nat.add_assoc]

/-- Granted bytes are read as they stand. -/
theorem MoveAcc.read_granted (m : MoveAcc) (a n : Nat) (wf : m.s.mem.wf = true) (go : m.stop = false) (h : ∀ b, b < n → Granted m.s c (a + b) false) :
    GrantedRead m [] (m.read c a n) a (a + n) :=
  readPieces_granted (pieces_consecutive a n) m [] wf go fun x hx hb => by
    have := h (x - a) (by omega)
    rwa [Nat.add_sub_cancel' hx] at this

/-- The mover has written the bytes from `a` to `b` of data that begin at `a₀`, and nothing was refused. -/
structure GrantedWrite (m r : MoveAcc) (bs : List Byte) (a₀ a b : Nat) : Prop where
  die : r.s = { m.s with mem := r.s.mem, blf := r.s.blf }
  wf : r.s.mem.wf = true
  setup : SameSetup m.s r.s
  outs : r.outs = m.outs
  stop : r.stop = false
  byteAt : ∀ x, r.s.mem.byteAt x = if a ≤ x ∧ x < b then bs.getD (x - a₀) 0 else m.s.mem.byteAt x

theorem writePieces_granted {l : List (Nat × Nat)} {a₀ a b : Nat} (cut : Consecutive a l b) (m : MoveAcc) (bs : Marked) (wf : m.s.mem.wf = true)
    (go : m.stop = false) (begins : a₀ ≤ a) (ends : b ≤ a₀ + bs.length) (h : ∀ x, a ≤ x → x < b → Granted m.s c x true) :
    GrantedWrite m (l.foldl (fun m p => m.writePiece c p.1 ((bs.drop (p.1 - a₀)).take p.2)) m) (bytesOf bs) a₀ a b := by
  induction l generalizing a m with
  | nil =>
    have : a = b := cut
    exact ⟨rfl, wf, .refl _, rfl, go, fun x => by rw [if_neg (by omega)]; rfl⟩
  | cons p l ih =>
    obtain ⟨rfl, some, rest⟩ := cut
    have fits := rest.le
    have stored := State.storeP_stored wf p.1 ((bs.drop (p.1 - a₀)).take p.2)
    have setup := m.s.storeP_setup p.1 ((bs.drop (p.1 - a₀)).take p.2)
    have after := ih rest { m with s := m.s.storeP p.1 ((bs.drop (p.1 - a₀)).take p.2) } stored.wf go (by omega)
      fun x hx hb => granted_of_die stored.die setup (h x (by omega) hb)
    rw [List.foldl_cons, MoveAcc.writePiece_granted go (h p.1 le_rfl (by omega))]
    refine ⟨by rw [after.die]; dsimp only; rw [stored.die], after.wf, setup.trans after.setup, after.outs, after.stop, fun x => ?_⟩
    have piece : bytesOf ((bs.drop (p.1 - a₀)).take p.2) = ((bytesOf bs).drop (p.1 - a₀)).take p.2 := by
      simp [bytesOf, List.map_take, List.map_drop]
    have length : (bytesOf ((bs.drop (p.1 - a₀)).take p.2)).length = p.2 := by
      simp [bytesOf]
      omega
    rw [after.byteAt]
    dsimp only
    rw [stored.byteAt, length, piece]
    by_cases here : p.1 ≤ x ∧ x < p.1 + p.2
    · rw [if_neg (by omega), if_pos here, if_pos (by omega), List.getD_eq_getElem?_getD, List.getElem?_take_of_lt (by omega), List.getElem?_drop,
        List.getD_eq_getElem?_getD, show p.1 - a₀ + (x - p.1) = x - a₀ by omega]
    · rw [if_neg here]
      exact if_congr (by omega) rfl rfl

/-- Granted bytes are written. -/
theorem MoveAcc.write_granted (m : MoveAcc) (a : Nat) (bs : Marked) (wf : m.s.mem.wf = true) (go : m.stop = false)
    (h : ∀ b, b < bs.length → Granted m.s c (a + b) true) : GrantedWrite m (m.write c a bs) (bytesOf bs) a a (a + bs.length) :=
  writePieces_granted (pieces_consecutive a bs.length) m bs wf go le_rfl le_rfl fun x hx hb => by
    have := h (x - a) (by omega)
    rwa [Nat.add_sub_cancel' hx] at this

/-! ### A unit's writes to its Cupola (R446) -/

/-- Die-local byte `x` is one of the bytes `bs` from Cupola offset `off` that lie inside the Cupola. -/
def Covers (c : CoreId) (off : Nat) (bs : List Byte) (x : Nat) : Prop :=
  coreBase c + off ≤ x ∧ x < coreBase c + off + bs.length ∧ x < coreBase c + 0x600000

/-- The bytes `bs` have been stored from Cupola offset `off`, those past the Cupola's end discarded. -/
structure Clipped (s t : State) (c : CoreId) (off : Nat) (bs : List Byte) : Prop where
  die : t = { s with mem := t.mem, blf := t.blf }
  wf : t.mem.wf = true
  inside : ∀ x, Covers c off bs x → t.mem.byteAt x = bs.getD (x - (coreBase c + off)) 0
  outside : ∀ x, ¬ Covers c off bs x → t.mem.byteAt x = s.mem.byteAt x

theorem State.cupWrite_clipped (wf : s.mem.wf = true) (c : CoreId) (off : Nat) (bs : Marked) : Clipped s (s.cupWrite c off bs) c off (bytesOf bs) := by
  unfold State.cupWrite
  split
  case isTrue begins =>
    rw [cupolaEnd] at begins ⊢
    have stored := State.storeP_stored wf (coreBase c + off) (bs.take (0x600000 - off))
    have piece : bytesOf (bs.take (0x600000 - off)) = (bytesOf bs).take (0x600000 - off) := List.map_take
    rw [piece] at stored
    have covered : ∀ x, Covers c off (bytesOf bs) x
        ↔ coreBase c + off ≤ x ∧ x < coreBase c + off + ((bytesOf bs).take (0x600000 - off)).length := fun x => by
      unfold Covers
      rw [List.length_take]
      omega
    refine ⟨stored.die, stored.wf, fun x hx => ?_, fun x hx => ?_⟩
    · have inside := (covered x).mp hx
      rw [stored.byteAt, if_pos inside, List.getD_eq_getElem?_getD, List.getElem?_take_of_lt (by rw [List.length_take] at inside; omega),
        List.getD_eq_getElem?_getD]
    · rw [stored.byteAt, if_neg (fun inside => hx ((covered x).mpr inside))]
  case isFalse past =>
    rw [cupolaEnd] at past
    exact ⟨rfl, wf, fun x ⟨_, _, _⟩ => by omega, fun _ _ => rfl⟩

end Sys2Proof.Machine

end

/-! ## Answers, marks and notices at their source (R123, R190, R252, R263, R277, R286, R396) -/

section

namespace Sys2Proof.Machine

open Sys2Proof.Claims

variable {s t r : State} {c : CoreId}

/-! ### What an answer's effects leave alone -/

/-- Core `c` alone differs: its units are frozen as before, no entry is new, and SEQ_FAULT_DESC stands. -/
structure AfterAnswer (s t : State) (c : CoreId) : Prop extends KeepsFreezes s t c where
  entries : ∀ x ∈ (t.core c).outst, ∃ y ∈ (s.core c).outst, x.unit = y.unit ∧ x.pkt = y.pkt
  faultDesc : (t.core c).seq.faultDesc = (s.core c).seq.faultDesc

theorem AfterAnswer.trans (h : AfterAnswer s t c) (h' : AfterAnswer t r c) : AfterAnswer s r c where
  toKeepsFreezes := h.toKeepsFreezes.trans h'.toKeepsFreezes
  entries x hx := by
    obtain ⟨y, hy, unit, pkt⟩ := h'.entries x hx
    obtain ⟨z, hz, unit', pkt'⟩ := h.entries y hy
    exact ⟨z, hz, unit.trans unit', pkt.trans pkt'⟩
  faultDesc := h'.faultDesc.trans h.faultDesc

/-- A change that keeps the entries and the sequencer as they are. -/
theorem KeepsFreezes.afterAnswer (h : KeepsFreezes s t c) (outst : (t.core c).outst = (s.core c).outst) (seq : (t.core c).seq = (s.core c).seq) :
    AfterAnswer s t c where
  toKeepsFreezes := h
  entries x hx := ⟨x, outst ▸ hx, rfl, rfl⟩
  faultDesc := by rw [seq]

theorem AfterAnswer.refl (s : State) (c : CoreId) : AfterAnswer s s c := (KeepsFreezes.refl s c).afterAnswer rfl rfl

variable (s c)

theorem State.outst_modQ (u : UnitId) (f : UnitQ → UnitQ) : ((s.modQ c u f).core c).outst = (s.core c).outst := by
  cases u <;> simp [State.modQ]

theorem State.modQ_afterAnswer (u : UnitId) {f : UnitQ → UnitQ} (h : ∀ q, (f q).freeze = q.freeze) : AfterAnswer s (s.modQ c u f) c :=
  (s.modQ_keepsFreezes c u h).afterAnswer (s.outst_modQ c u f) (s.seq_modQ c f u)

theorem State.modEng_afterAnswer (e : EngId) {f : Engine → Engine} (h : ∀ x, (f x).q = x.q) : AfterAnswer s (s.modEng c e f) c :=
  (s.modEng_keepsFreezes c e fun x => by rw [h]).afterAnswer (by simp) (by simp)

theorem State.modGroup_afterAnswer (e : EngId) (g : GroupId) (f : Group → Group) : AfterAnswer s (s.modGroup c e g f) c :=
  s.modEng_afterAnswer c e fun _ => rfl

theorem State.modMov_afterAnswer {f : Mover → Mover} (h : ∀ m, (f m).q = m.q) : AfterAnswer s (s.modMov c f) c := by
  have frozen : KeepsFreezes s (s.modMov c f) c := s.modCore_keepsFreezes c (fun _ => rfl) fun k u => by
    cases u with
    | mover => exact congrArg (·.freeze) (h k.mov)
    | _ => rfl
  exact frozen.afterAnswer (by simp) (by simp)

/-- Entries that change neither their unit nor their packet. -/
theorem State.modOutst_afterAnswer {f : Outst → Outst} (h : ∀ o, (f o).unit = o.unit ∧ (f o).pkt = o.pkt) :
    AfterAnswer s (s.modCore c fun k => { k with outst := k.outst.map f }) c where
  toKeepsFreezes := s.modCore_keepsFreezes c (fun _ => rfl) fun k u => by cases u <;> rfl
  entries x hx := by
    obtain ⟨y, hy, rfl⟩ := List.mem_map.mp (by simpa using hx)
    exact ⟨y, hy, h y⟩
  faultDesc := by simp

theorem State.modSeq_afterAnswer {f : Sequencer → Sequencer} (h : ∀ q, (f q).freeze = q.freeze ∧ (f q).faultDesc = q.faultDesc) :
    AfterAnswer s (s.modSeq c f) c where
  toKeepsFreezes := s.modCore_keepsFreezes c (fun _ => rfl) fun k u => by
    cases u with
    | seq => exact (h k.seq).1
    | _ => rfl
  entries x hx := ⟨x, by simpa using hx, rfl, rfl⟩
  faultDesc := by rw [State.core_modSeq]; exact (h _).2

theorem State.chainSettles_afterAnswer (e : EngId) : AfterAnswer s (s.chainSettles c e) c := s.modEng_afterAnswer c e fun _ => rfl

theorem State.chainSent_afterAnswer (e : EngId) (g : GroupId) : AfterAnswer s (s.chainSent c e g) c := by
  unfold State.chainSent
  exact (s.modGroup_afterAnswer c e g _).trans (State.modQ_afterAnswer _ c (.eng e) (by intro q; rfl))

theorem State.moverSettle_afterAnswer : AfterAnswer s (s.moverSettle c) c := by
  unfold State.moverSettle
  exact s.modQ_afterAnswer c .mover (by intro q; rfl)

theorem State.failOp_afterAnswer (u : UnitId) (id : Nat) : AfterAnswer s (s.failOp c u id) c := by
  unfold State.failOp
  extract_lets t r
  have marked : AfterAnswer s t c := s.modOutst_afterAnswer c fun o => by split <;> exact ⟨rfl, rfl⟩
  have failed : AfterAnswer s r c := marked.trans (t.modQ_afterAnswer c u fun _ => rfl)
  cases u with
  | mover => exact failed.trans (r.modMov_afterAnswer c fun _ => rfl)
  | eng e =>
    dsimp only
    split
    · exact failed.trans ((r.modGroup_afterAnswer c e _ _).trans (State.chainSettles_afterAnswer _ c e))
    · exact failed
  | _ => exact failed

theorem State.failEntry_afterAnswer (u : UnitId) (o : Outst) : AfterAnswer s (s.failEntry c u o) c := by
  unfold State.failEntry
  split
  · exact (s.modOutst_afterAnswer c fun x => by split <;> exact ⟨rfl, rfl⟩).trans (State.modSeq_afterAnswer _ c fun _ => ⟨rfl, rfl⟩)
  · exact s.failOp_afterAnswer c u o.desc

theorem State.outst_freezeUnit (u : UnitId) (cause : FreezeCause) (discard : Bool) (desc : Option Nat) :
    ((s.freezeUnit c u cause discard desc).core c).outst = (s.core c).outst := by
  unfold State.freezeUnit
  extract_lets stops r
  have frozen : (r.core c).outst = (s.core c).outst := by
    cases u with
    | seq => simp [r]
    | _ => exact s.outst_modQ c _ _
  cases desc with
  | none => exact frozen
  | some d =>
    dsimp only
    split
    · simpa using frozen
    · exact frozen

/-! ### A failed operation (R252) -/

/-- Every started descriptor of unit `u` with number `id` has ended. -/
def HasEnded (t : State) (c : CoreId) (u : UnitId) (id : Nat) : Prop :=
  ∀ a ∈ ((t.core c).unitQ u).active, a.entry.id = id → a.progress = .done ∨ a.progress = .failed

variable {s c}

theorem HasEnded.of_unitQ {u : UnitId} {id : Nat} (h : HasEnded s c u id) (same : (t.core c).unitQ u = (s.core c).unitQ u) : HasEnded t c u id := by
  rw [HasEnded, same]
  exact h

variable (s c)

theorem State.unitQ_modEng (e : EngId) {f : Engine → Engine} (h : ∀ x, (f x).q = x.q) (u : UnitId) :
    ((s.modEng c e f).core c).unitQ u = (s.core c).unitQ u := by
  cases u with
  | eng d =>
    simp only [State.core_modEng, Core.unitQ, getElem_upd]
    split
    · rw [h]
    · rfl
  | _ => simp [Core.unitQ]

theorem State.unitQ_modGroup (e : EngId) (g : GroupId) (f : Group → Group) (u : UnitId) : ((s.modGroup c e g f).core c).unitQ u = (s.core c).unitQ u :=
  s.unitQ_modEng c e (by intro x; rfl) u

theorem State.unitQ_modMov {f : Mover → Mover} (h : ∀ m, (f m).q = m.q) (u : UnitId) : ((s.modMov c f).core c).unitQ u = (s.core c).unitQ u := by
  cases u <;> simp [Core.unitQ, h]

theorem State.failOp_ended (u : UnitId) (id : Nat) : HasEnded (s.failOp c u id) c u id := by
  unfold State.failOp
  extract_lets t r
  have failed : HasEnded r c u id := by
    by_cases hu : u = .seq
    · rw [hu]
      intro a ha
      exact absurd ha List.not_mem_nil
    · intro a ha hid
      rw [t.unitQ_modQ c _ hu] at ha
      obtain ⟨b, -, rfl⟩ := List.mem_map.mp ha
      by_cases hb : b.entry.id = id
      · simp only [if_pos hb] at hid ⊢
        split
        · exact .inl ‹_›
        · exact .inr rfl
      · rw [if_neg hb] at hid
        exact absurd hid hb
  cases u with
  | mover => exact failed.of_unitQ (r.unitQ_modMov c (by intro m; rfl) .mover)
  | eng e =>
    dsimp only
    split
    · exact (failed.of_unitQ (r.unitQ_modGroup c e _ _ (.eng e))).of_unitQ (State.unitQ_modEng _ c e (by intro x; rfl) (.eng e))
    · exact failed
  | _ => exact failed

variable {s c} in
theorem HasEnded.moverSettle {u : UnitId} {id : Nat} (h : HasEnded s c u id) : HasEnded (s.moverSettle c) c u id := by
  unfold State.moverSettle
  extract_lets k sent answered reads ended
  by_cases hu : u = .mover
  · subst hu
    intro a ha hid
    rw [s.unitQ_modQ c _ (by simp)] at ha
    obtain ⟨b, hb, rfl⟩ := List.mem_map.mp ha
    by_cases end_ : ended b = true
    · rw [if_pos end_]
      exact .inl rfl
    · rw [if_neg end_] at hid ⊢
      exact h b hb hid
  · exact h.of_unitQ (s.unitQ_modQ_other c _ hu)

/-! ### The answer at its source, its entry freed (R262, R263) -/

/-- An answer of opcode `op` stands first at LOCAL, for core `c`, and is the last one due to entry `o`. -/
structure AnswerFor (s : State) (c : CoreId) (op : Nat) (p : Packet) (o : Outst) : Prop where
  head : ∃ r, s.spire.localRsp = p :: r
  opcode : p.op = op
  core : p.destCore.toNat = c.val
  ours : p.destUnit ≠ 8
  entry : findEntry p.destUnit p.tag (s.core c).outst = some o
  due : ∀ x ∈ (s.core c).outst, x.unit = p.destUnit → x.pkt.tag = p.tag → x.due = 1

/-- The answer has been taken and its entry freed. -/
def Freed (s t : State) (c : CoreId) (p : Packet) : Prop :=
  t.spire.localRsp = s.spire.localRsp.tail ∧ ∀ x ∈ (t.core c).outst, ¬ (x.unit = p.destUnit ∧ x.pkt.tag = p.tag)

/-- The die with the first answer at LOCAL taken and entry `o` freed. -/
def State.answered (s : State) (c : CoreId) (o : Outst) : State := (s.modSpire fun x => { x with localRsp := x.localRsp.drop 1 }).freeEntry c o

theorem findEntry_some {unit : BitVec 4} {tag : BitVec 12} {l : List Outst} {o : Outst} (h : findEntry unit tag l = some o) :
    o ∈ l ∧ o.unit = unit ∧ o.pkt.tag = tag := by
  have found := List.find?_some h
  simp only [Bool.and_eq_true, beq_iff_eq] at found
  exact ⟨List.mem_of_find?_eq_some h, found.1, found.2⟩

theorem mem_takeDue {unit : BitVec 4} {tag : BitVec 12} {l : List Outst} {x : Outst} (h : x ∈ takeDue unit tag l) :
    ∃ y ∈ l, x.unit = y.unit ∧ x.pkt = y.pkt ∧ (x.unit = unit → x.pkt.tag = tag → x.due = y.due - 1) ∧ x.due ≠ 0 := by
  obtain ⟨hx, due⟩ := List.mem_filter.mp h
  obtain ⟨y, hy, rfl⟩ := List.mem_map.mp hx
  refine ⟨y, hy, ?_⟩
  split
  · exact ⟨rfl, rfl, fun _ _ => rfl, by simp_all⟩
  · exact ⟨rfl, rfl, fun hu ht => by simp_all, by simp_all⟩

section

variable {s c} {op : Nat} {p : Packet} {o : Outst} (h : AnswerFor s c op p o)
include h

theorem AnswerFor.freed : Freed s (s.answered c o) c p := by
  obtain ⟨-, unit, tag⟩ := findEntry_some h.entry
  refine ⟨List.drop_one, fun x hx ⟨hu, ht⟩ => ?_⟩
  rw [State.answered, State.freeEntry, State.core_modCore, unit, tag] at hx
  obtain ⟨y, hy, unit', pkt', due, left⟩ := mem_takeDue hx
  have last := h.due y hy (unit' ▸ hu) (pkt' ▸ ht)
  exact left (by rw [due hu ht, last])

theorem AnswerFor.destCore : Fin.ofNat 16 p.destCore.toNat = c := by
  rw [h.core]
  exact Fin.ext (Nat.mod_eq_of_lt c.isLt)

theorem AnswerFor.headRsp (up : s.dstate = .up) : s.headRsp op = some (p, s.modSpire fun x => { x with localRsp := x.localRsp.drop 1 }) := by
  obtain ⟨r, head⟩ := h.head
  simp [State.headRsp, head, h.opcode, State.spireOn, up]

end

variable {s c} in
theorem Freed.after {p : Packet} (h : Freed s t c p) (h' : AfterAnswer t r c) : Freed s r c p := by
  refine ⟨by rw [h'.spire, h.1], fun x hx => ?_⟩
  obtain ⟨y, hy, unit, pkt⟩ := h'.entries x hx
  rw [unit, pkt]
  exact h.2 y hy

variable {s c} in
/-- A change that keeps Spire and the core's entries. -/
theorem Freed.of_outst {p : Packet} (h : Freed s t c p) (spire : r.spire = t.spire) (outst : (r.core c).outst = (t.core c).outst) : Freed s r c p := by
  rw [Freed, spire, outst]
  exact h

variable (o : Outst)

theorem State.core_answered : (s.answered c o).core c = { s.core c with outst := takeDue o.unit o.pkt.tag (s.core c).outst } := State.core_modCore _ c _

theorem State.answered_others : SameCores s (s.answered c o) c := fun d hd => State.core_modCore_other _ c d _ hd

theorem State.unitQ_answered (u : UnitId) : ((s.answered c o).core c).unitQ u = (s.core c).unitQ u := by
  rw [State.core_answered]
  cases u <;> rfl

theorem State.eng_answered (e : EngId) : (s.answered c o).eng c e = s.eng c e := by
  rw [State.eng, State.core_answered]
  rfl

theorem State.group_answered (e : EngId) (g : GroupId) : (s.answered c o).group c e g = s.group c e g := by
  rw [State.group, State.eng_answered]
  rfl

theorem State.moverKind_answered (desc : Nat) (k : DKind) : (s.answered c o).moverKind c desc k = s.moverKind c desc k := by
  rw [State.moverKind, State.core_answered]
  rfl

/-! ### A READ's data lands (R252, R446) -/

@[simp] theorem bytesOf_marked (p : Packet) : bytesOf p.marked = p.payload := by
  rw [bytesOf, Packet.marked, List.map_map]
  exact List.zipIdx_map_fst 0 p.payload

@[simp] theorem length_marked (p : Packet) : p.marked.length = p.payload.length := by simp [Packet.marked]

/-- Bytes have landed from `a`: of the core's entries and of Spire nothing differs. -/
structure Landed (s t : State) (c : CoreId) (a : Nat) (bs : List Byte) : Prop where
  spire : t.spire = s.spire
  outst : (t.core c).outst = (s.core c).outst
  others : SameCores s t c
  byteAt : ∀ x, t.mem.byteAt x = if a ≤ x ∧ x < a + bs.length then bs.getD (x - a) 0 else s.mem.byteAt x

variable {s c o} {p : Packet}

theorem Landed.after {a : Nat} {bs : List Byte} (h : Landed s t c a bs) (h' : AfterAnswer t r c) (outst : (r.core c).outst = (t.core c).outst) :
    Landed s r c a bs where
  spire := h'.spire.trans h.spire
  outst := outst.trans h.outst
  others d hd := (h'.others d hd).trans (h.others d hd)
  byteAt x := by rw [h'.mem, h.byteAt]

variable (s c) in
/-- An access inside the Cupola logs nothing. -/
theorem State.noteBounds_inside (u : UnitId) (desc : Nat) {off n : Nat} (h : off + n ≤ 0x600000) :
    let t := s.noteBounds c u desc (pastEnd off n).toList
    AfterAnswer s t c ∧ (t.core c).outst = (s.core c).outst := by
  have quiet : ∀ logged, s.logBounds c u logged (none : Option Nat).toList = s := fun _ => rfl
  unfold State.noteBounds
  rw [show pastEnd off n = none from if_pos h]
  dsimp only
  rw [quiet]
  exact ⟨s.modQ_afterAnswer c u (by intro q; rfl), s.outst_modQ c u _⟩

theorem State.landRead_gather (wf : s.mem.wf = true) (early : o.spec = false) (gather : s.moverKind c o.desc .gather = true)
    (fits : o.loc + p.payload.length ≤ 0x600000) : Landed s (s.landRead c o p) c (coreBase c + o.loc) p.payload := by
  have clipped := State.cupWrite_clipped wf c o.loc p.marked
  rw [bytesOf_marked] at clipped
  have covered : ∀ x, Covers c o.loc p.payload x ↔ coreBase c + o.loc ≤ x ∧ x < coreBase c + o.loc + p.payload.length := fun x => by
    unfold Covers
    omega
  have written : Landed s (s.cupWrite c o.loc p.marked) c (coreBase c + o.loc) p.payload := by
    refine ⟨by rw [clipped.die], by rw [clipped.die]; rfl, fun d _ => by rw [clipped.die]; rfl, fun x => ?_⟩
    split
    · exact clipped.inside x ((covered x).mpr ‹_›)
    · exact clipped.outside x fun h => ‹¬ _› ((covered x).mp h)
  obtain ⟨noted, outst⟩ := (s.cupWrite c o.loc p.marked).noteBounds_inside c .mover o.desc fits
  unfold State.landRead
  simp only [early, gather, Bool.false_eq_true, if_false, if_true]
  exact written.after noted outst

theorem State.landRead_granted (wf : s.mem.wf = true) (early : o.spec = false) (other : s.moverKind c o.desc .gather = false)
    (granted : ∀ b, b < p.payload.length → Granted s c (o.loc + b) true) : Landed s (s.landRead c o p) c o.loc p.payload := by
  have written := (MoveAcc.start s).write_granted (c := c) o.loc p.marked wf rfl (by rwa [length_marked])
  rw [bytesOf_marked, length_marked] at written
  have landed : s.landRead c o p = ((MoveAcc.start s).write c o.loc p.marked).s := by
    unfold State.landRead
    simp only [early, other, Bool.false_eq_true, if_false, written.outs]
    rfl
  rw [landed]
  exact ⟨by rw [written.die]; rfl, by rw [written.die]; rfl, fun d _ => by rw [written.die]; rfl, written.byteAt⟩

/-! ### What READ_RSP and NACK do with the answer -/

theorem AnswerFor.readRsp (h : AnswerFor s c 4 p o) (up : s.dstate = .up) : s.readRsp
    = if o.unit = 5 then (if o.pkt.op = 3 then (s.answered c o).landRead c o p else s.answered c o).moverSettle c
      else (s.answered c o).engineAnswer c o State.blockAccepted := by
  have entry : findEntry p.destUnit p.tag ((s.modSpire fun x => { x with localRsp := x.localRsp.drop 1 }).core c).outst = some o := h.entry
  unfold State.readRsp
  rw [h.headRsp up]
  dsimp only
  rw [if_neg h.ours, h.destCore, entry]
  rfl

theorem AnswerFor.nackRsp (h : AnswerFor s c 0x3F p o) (up : s.dstate = .up) {u : UnitId} (hu : unitOf p.destUnit.toNat = some u) : s.nackRsp
    = if o.spec then (s.answered c o).specRefused c o
      else if p.aux.toNat = 4 then (s.answered c o).engineAnswer c o State.blockRefused
      else (((s.answered c o).refusedAt c u o.pkt p.aux.toNat o.off).failEntry c u o).moverSettle c := by
  have entry : findEntry p.destUnit p.tag ((s.modSpire fun x => { x with localRsp := x.localRsp.drop 1 }).core c).outst = some o := h.entry
  unfold State.nackRsp
  rw [h.headRsp up]
  dsimp only
  rw [if_neg h.ours, h.destCore, entry, hu]
  rfl

/-- An answer that names engine `e` goes to the group of the descriptor its entry names. -/
theorem AnswerFor.engineAnswer {op : Nat} (h : AnswerFor s c op p o) {e : EngId} (he : p.destUnit.toNat = e.val) {a : Active}
    (ha : (s.eng c e).q.active.find? (fun a => a.entry.id == o.desc) = some a) (f : State → CoreId → EngId → GroupId → Nat → State) :
    (s.answered c o).engineAnswer c o f = f (s.answered c o) c e (aGroup a.entry.bits) o.pkt.seq.toNat := by
  obtain ⟨-, unit, -⟩ := findEntry_some h.entry
  have engine : Fin.ofNat 4 o.unit.toNat = e := Fin.ext (by rw [unit, he]; exact Nat.mod_eq_of_lt e.isLt)
  unfold State.engineAnswer
  dsimp only
  rw [engine, State.eng_answered, ha]

variable {e : EngId} {g : GroupId} {b : Nat}

theorem State.blockAccepted_effect (closing : (s.group c e g).state = .closing) (going : (s.group c e g).failed = false) :
    let t := s.blockAccepted c e g b
    let all := (s.group c e g).accepted ||| BitVec.ofNat 16 (2 ^ b)
    AfterAnswer s t c ∧ (t.group c e g).accepted = all ∧ (t.group c e g).state = if all = 0xFFFF then .closed else .closing := by
  intro t all
  have noted : s.blockAccepted c e g b = let r := s.modGroup c e g fun x => { x with accepted := putBit x.accepted b true }
      if all = 0xFFFF then r.chainSent c e g else r := by
    unfold State.blockAccepted
    simp only [closing, going, State.group_modGroup]
    rfl
  have accepts := s.modGroup_afterAnswer c e g fun x => { x with accepted := putBit x.accepted b true }
  simp only [t, noted]
  split
  · refine ⟨accepts.trans (State.chainSent_afterAnswer _ c e g), ?_, ?_⟩ <;>
      rw [State.chainSent, State.group_modQ, State.group_modGroup, State.group_modGroup]
    rfl
  · refine ⟨accepts, ?_, ?_⟩
    · rw [State.group_modGroup]
      rfl
    · rw [State.group_modGroup]
      exact closing

theorem getLsbD_putBit {w : Nat} (v : BitVec w) {i : Nat} (h : i < w) : (putBit v i true).getLsbD i = true := by
  rw [putBit, if_pos rfl, BitVec.getLsbD_or, BitVec.getLsbD_ofNat, Nat.testBit_two_pow_self, decide_eq_true h, Bool.and_true, Bool.or_true]

theorem State.blockRefused_effect (closing : (s.group c e g).state = .closing) (going : (s.group c e g).failed = false) (hb : b < 16) :
    let t := s.blockRefused c e g b
    AfterAnswer s t c ∧ t.blf = s.blf ∧ (t.group c e g).resend.getLsbD b = true := by
  intro t
  have asked : t = s.modGroup c e g fun x => { x with resend := putBit x.resend b true } := by
    simp only [t, State.blockRefused, closing, going]
    rfl
  rw [asked]
  refine ⟨s.modGroup_afterAnswer c e g _, rfl, ?_⟩
  rw [State.group_modGroup]
  exact getLsbD_putBit _ hb

/-! ### A refused request freezes its unit (R263) -/

variable (s c) in
/-- What the source of a refused request logs. -/
def nackInfo (u : UnitId) (p : Packet) (reason : Nat) : FaultInfo :=
  { cls := .contained, code := nackCode reason, block := (unitSource c u).1, inst := (unitSource c u).2, pkey := some p.pkey, detail := nackDetail p reason
    address := nackAddress p reason }

/-- The unit stands frozen, with the refusal logged and its operation ended. -/
structure RefusalTaken (s t : State) (c : CoreId) (u : UnitId) (q : Packet) (reason off id : Nat) : Prop where
  frozen : (t.frozen c u).isSome = true
  faultDesc : s.frozen c u = none → (t.core c).seq.faultDesc = BitVec.ofNat 23 off
  record : lastRecord t = { s.recordOf (nackInfo c u q reason) with number := s.blf.newest + 1 }
  mem : t.mem = s.mem
  spire : t.spire = s.spire
  entries : ∀ x ∈ (t.core c).outst, ∃ y ∈ (s.core c).outst, x.unit = y.unit ∧ x.pkt = y.pkt
  ended : HasEnded t c u id

theorem State.refusedAt_failed (s : State) (c : CoreId) (u : UnitId) (q : Packet) (reason off id : Nat) :
    RefusalTaken s (((s.refusedAt c u q reason off).failOp c u id).moverSettle c) c u q reason off id := by
  have after := ((s.refusedAt c u q reason off).failOp_afterAnswer c u id).trans (State.moverSettle_afterAnswer _ c)
  have only := (s.log (nackInfo c u q reason)).freezeUnit_onlyCore c u .violation true (some off)
  have running : (s.log (nackInfo c u q reason)).frozen c u = s.frozen c u := by rw [State.frozen, State.core_log]; rfl
  have outst : ((s.refusedAt c u q reason off).core c).outst = (s.core c).outst :=
    (State.outst_freezeUnit _ c u _ _ _).trans (by rw [State.core_log])
  exact {
    frozen := by
      rw [after.frozen, State.refusedAt, State.frozen_freezeUnit]
      exact mergeFreeze_isSome _ _ _
    faultDesc := fun h => after.faultDesc.trans (State.freezeUnit_faultDesc _ c (running.trans h) _ _ off)
    record := (after.lastRecord.trans only.lastRecord).trans (lastRecord_log s _)
    mem := (after.mem.trans only.mem).trans (s.log_mem _)
    spire := (after.spire.trans only.spire).trans (s.log_spire _)
    entries := fun x hx => outst ▸ after.entries x hx
    ended := (State.failOp_ended _ c u id).moverSettle }

end Sys2Proof.Machine

end

section

namespace Sys2Proof.Machine

open Sys2Proof.Claims

variable {s t r : State} {c : CoreId}

/-! ### A die that flips (R286) -/

/-- A flip leaves the SRAM and the cores alone and, of Spire, sets the epoch, its number, the lock and what has been loaded. -/
structure Flipped (s t : State) : Prop where
  cur : t.spire.cur = !s.spire.cur
  gen : t.spire.gen = s.spire.gen + 1
  lock : t.spire.lock = true
  loaded : t.spire.loaded = 0
  mem : t.mem = s.mem
  cores : t.cores = s.cores

theorem State.flip_flipped (s : State) (cause : Nat) : Flipped s (s.flip cause) := by
  unfold State.flip
  extract_lets t r
  have start : Flipped s t := ⟨rfl, rfl, rfl, rfl, rfl, rfl⟩
  have marks : Flipped s r := by
    refine foldl_holds _ (Flipped s) (fun x e ⟨cur, gen, lock, loaded, mem, cores⟩ => ?_) _ _ start
    split <;> exact ⟨cur, gen, lock, loaded, mem, cores⟩
  exact ⟨marks.cur, marks.gen, marks.lock, marks.loaded, marks.mem, marks.cores⟩

/-! ### A fatal fault (R396, R403) -/

theorem lastRecord_logTo (s : State) (both : Bool) (i : FaultInfo) : lastRecord (s.logTo both i) = { s.recordOf i with number := s.blf.newest + 1 } := by
  have newest : ∀ (b : Belfry) (x : FaultRec), (b.write x).newest = b.newest + 1 := fun b x => by
    unfold Belfry.write
    dsimp only
    split
    · rfl
    split <;> rfl
  have ring : ∀ (b : Belfry) (x : FaultRec), (b.write x).logRing = upd b.logRing (logSlot (b.newest + 1)) fun _ => { x with number := b.newest + 1 } :=
    fun b x => by
      unfold Belfry.write
      dsimp only
      split
      · rfl
      split <;> rfl
  have blf : (s.logTo both i).blf.newest = s.blf.newest + 1
      ∧ (s.logTo both i).blf.logRing = upd s.blf.logRing (logSlot (s.blf.newest + 1)) fun _ => { s.recordOf i with number := s.blf.newest + 1 } := by
    unfold State.logTo
    dsimp only
    split <;> exact ⟨newest _ _, ring _ _⟩
  rw [lastRecord]
  simp only [blf.1, blf.2]
  exact upd_same _ _ _

/-- What Campanile logs of a poisoned word it uses. -/
def campPoisonInfo : FaultInfo := { cls := .fatal, code := 0x103, block := 0x19, inst := 0, pkey := none, detail := 0xFFFFFFFF, address := 0 }

/-- Campanile's poison is a fatal fault in the log, with Spire and the SRAM as they were. -/
structure Poisoned (s t : State) : Prop where
  fatal : t.fatal = true
  record : (lastRecord t).code = 0x103 ∧ (lastRecord t).cls = .fatal ∧ (lastRecord t).detail = 0xFFFFFFFF
  mem : t.mem = s.mem
  spire : t.spire = s.spire

theorem State.campPoison_poisoned (s : State) : Poisoned s s.campPoison := by
  unfold State.campPoison State.fence
  extract_lets r t
  have mem : r.mem = s.mem := by
    simp only [r]
    unfold State.forCores
    exact foldl_keeps _ State.mem (fun t n => by split <;> simp) _ _
  have spire : r.spire = s.spire := by
    simp only [r]
    unfold State.forCores
    exact foldl_keeps _ State.spire (fun t n => by split <;> simp) _ _
  clear_value r
  have record : lastRecord t = { r.recordOf campPoisonInfo with number := r.blf.newest + 1 } := lastRecord_logTo r true campPoisonInfo
  refine ⟨rfl, ?_, (State.logTo_mem _ _ _).trans mem, (State.logTo_spire _ _ _).trans spire⟩
  change (lastRecord t).code = 0x103 ∧ (lastRecord t).cls = .fatal ∧ (lastRecord t).detail = 0xFFFFFFFF
  rw [record]
  exact ⟨rfl, rfl, rfl⟩

/-! ### A violation notice (R277) -/

/-- Unit `u` of the core is frozen by the violation, a running one for that cause. -/
structure Violated (s t : State) (c : CoreId) (u : UnitId) : Prop where
  frozen : (t.frozen c u).isSome = true
  cause : s.frozen c u = none → (t.frozen c u).map (·.cause) = some .violation
  mem : t.mem = s.mem
  spire : t.spire = s.spire
  others : SameCores s t c

theorem State.freezeUnit_violated (s : State) (c : CoreId) (u : UnitId) (discard : Bool) (desc : Option Nat) :
    Violated s (s.freezeUnit c u .violation discard desc) c u := by
  have only := s.freezeUnit_onlyCore c u .violation discard desc
  refine ⟨?_, fun running => ?_, only.mem, only.spire, only.others⟩
  · rw [State.frozen_freezeUnit]
    exact mergeFreeze_isSome _ _ _
  · rw [State.frozen_freezeUnit, running]
    rfl

theorem Violated.after {u : UnitId} (h : Violated s t c u) (h' : KeepsFreezes t r c) : Violated s r c u where
  frozen := by rw [h'.frozen]; exact h.frozen
  cause running := by rw [h'.frozen]; exact h.cause running
  mem := h'.mem.trans h.mem
  spire := h'.spire.trans h.spire
  others d hd := (h'.others d hd).trans (h.others d hd)

/-- A notice of a packet a unit of this die sent freezes that unit. -/
theorem State.notice_violated (s : State) (n : Packet) {q : Packet} {u : UnitId} (die : q.srcDie = s.dieId) (unit : q.srcUnit.toNat < 7)
    (hu : unitOf q.srcUnit.toNat = some u) (core : q.srcCore.toNat = c.val) : Violated s (s.notice n q) c u := by
  have source : Fin.ofNat 16 q.srcCore.toNat = c := Fin.ext (by rw [core]; exact Nat.mod_eq_of_lt c.isLt)
  have campanile : q.srcUnit ≠ 8 := fun h => by rw [h] at unit; exact absurd unit (by decide)
  unfold State.notice
  rw [if_neg (not_not.mpr die), if_neg (by omega), if_neg campanile, source, hu]
  dsimp only
  split
  · exact s.freezeUnit_violated c u _ _
  · rename_i o _
    have freed : KeepsFreezes s (s.freeEntry c o) c := s.modCore_keepsFreezes c (fun _ => rfl) fun k u => by cases u <;> rfl
    have frozen := (s.freeEntry c o).freezeUnit_violated c u true (some o.off)
    have violated : Violated s ((s.freeEntry c o).freezeUnit c u .violation true (some o.off)) c u := {
      frozen := frozen.frozen
      cause := fun running => frozen.cause ((freed.frozen u).trans running)
      mem := frozen.mem
      spire := frozen.spire
      others := fun d hd => (frozen.others d hd).trans (freed.others d hd) }
    exact violated.after ((State.failEntry_afterAnswer _ c u o).trans (State.moverSettle_afterAnswer _ c)).toKeepsFreezes

/-! ### The answers one by one -/

section

variable {p : Packet} {o : Outst} (wf : s.mem.wf = true) (powered : s.powered = true) (up : s.dstate = .up)

/-- Where a READ's data lands. -/
def landsAt (s : State) (c : CoreId) (o : Outst) : Nat := if s.moverKind c o.desc .gather then coreBase c + o.loc else o.loc

/-- The landing is inside the Cupola for a GATHER, and granted to another descriptor. -/
def MayLand (s : State) (c : CoreId) (o : Outst) (n : Nat) : Prop :=
  if s.moverKind c o.desc .gather then o.loc + n ≤ 0x600000 else ∀ b, b < n → Granted s c (landsAt s c o + b) true

theorem granted_answered {x : Nat} {w : Bool} (h : Granted s c x w) : Granted (s.answered c o) c x w := by
  refine granted_congr (s := s) (t := s.answered c o) rfl (.of_blf rfl) (fun d => ?_) h
  by_cases hd : d = c
  · rw [hd, State.core_answered]
    rfl
  · rw [s.answered_others c o d hd]

include wf in
theorem State.answered_landed (early : o.spec = false) (may : MayLand s c o p.payload.length) :
    Landed (s.answered c o) ((s.answered c o).landRead c o p) c (landsAt s c o) p.payload := by
  have kind := s.moverKind_answered c o o.desc .gather
  unfold MayLand landsAt at may
  unfold landsAt
  by_cases gather : s.moverKind c o.desc .gather = true
  · simp only [if_pos gather] at may ⊢
    exact State.landRead_gather wf early (kind.trans gather) may
  · simp only [if_neg gather] at may ⊢
    exact State.landRead_granted wf early (kind.trans (Bool.eq_false_iff.mpr gather)) fun b hb => granted_answered (may b hb)

section

variable (h : AnswerFor s c 4 p o)
include h

theorem AnswerFor.unit_eq : o.unit = p.destUnit := (findEntry_some h.entry).2.1

include powered up

include wf in
theorem AnswerFor.readRsp_lands (unit : p.destUnit = 5) (read : o.pkt.op = 3) (early : o.spec = false) (may : MayLand s c o p.payload.length) :
    ∃ t, exec .readRsp s = .next t ∧ Freed s t c p ∧ SameCores s t c ∧ SameBytesBut s t (landsAt s c o) p.payload.length
      ∧ ∀ b, b < p.payload.length → t.mem.byteAt (landsAt s c o + b) = p.payload.getD b 0 := by
  have landed := State.answered_landed wf early may
  have settled := State.moverSettle_afterAnswer ((s.answered c o).landRead c o p) c
  refine ⟨_, ev_powered s _ powered, ?_⟩
  rw [h.readRsp up, if_pos (h.unit_eq.trans unit), if_pos read]
  refine ⟨(h.freed.of_outst landed.spire landed.outst).after settled, fun d hd => ?_, fun b hb => ?_, fun b hb => ?_⟩
  · rw [settled.others d hd, landed.others d hd, s.answered_others c o d hd]
  · rw [settled.mem, landed.byteAt, if_neg (by omega)]
    rfl
  · rw [settled.mem, landed.byteAt, if_pos (by omega), Nat.add_sub_cancel_left]

theorem AnswerFor.readRsp_completes (unit : p.destUnit = 5) (other : o.pkt.op ≠ 3) :
    ∃ t, exec .readRsp s = .next t ∧ Freed s t c p ∧ SameCores s t c ∧ t.mem = s.mem ∧ t.blf = s.blf := by
  have settled := State.moverSettle_afterAnswer (s.answered c o) c
  refine ⟨_, ev_powered s _ powered, ?_⟩
  rw [h.readRsp up, if_pos (h.unit_eq.trans unit), if_neg other]
  refine ⟨h.freed.after settled, fun d hd => ?_, settled.mem, by rw [settled.die]; rfl⟩
  rw [settled.others d hd, s.answered_others c o d hd]

theorem AnswerFor.readRsp_accepts {e : EngId} (he : p.destUnit.toNat = e.val) {a : Active}
    (ha : (s.eng c e).q.active.find? (fun a => a.entry.id == o.desc) = some a) (closing : (s.group c e (aGroup a.entry.bits)).state = .closing)
    (going : (s.group c e (aGroup a.entry.bits)).failed = false) :
    let all := (s.group c e (aGroup a.entry.bits)).accepted ||| BitVec.ofNat 16 (2 ^ o.pkt.seq.toNat)
    ∃ t, exec .readRsp s = .next t ∧ Freed s t c p ∧ t.mem = s.mem ∧ (t.group c e (aGroup a.entry.bits)).accepted = all
      ∧ (t.group c e (aGroup a.entry.bits)).state = if all = 0xFFFF then .closed else .closing := by
  intro all
  have mover : o.unit ≠ 5 := fun h5 => by
    rw [← h.unit_eq, h5] at he
    exact absurd e.isLt (by rw [← he]; decide)
  obtain ⟨after, accepted, state⟩ := State.blockAccepted_effect (s := s.answered c o) (b := o.pkt.seq.toNat)
    (by rw [State.group_answered]; exact closing) (by rw [State.group_answered]; exact going)
  rw [State.group_answered] at accepted state
  refine ⟨_, ev_powered s _ powered, ?_⟩
  rw [h.readRsp up, if_neg mover, h.engineAnswer he ha]
  exact ⟨h.freed.after after, after.mem, accepted, state⟩

end

section

variable (h : AnswerFor s c 0x3F p o)
include h powered up

theorem AnswerFor.nack_freezes {u : UnitId} (hu : unitOf p.destUnit.toNat = some u) (early : o.spec = false) (reason : p.aux.toNat ≠ 4)
    (mark : o.pkt.opcode ≠ 0x20) : ∃ t, exec .nack s = .next t ∧ Freed s t c p ∧ (t.frozen c u).isSome = true ∧ t.mem = s.mem
      ∧ (s.frozen c u = none → (t.core c).seq.faultDesc = BitVec.ofNat 23 o.off)
      ∧ (lastRecord t).code = (if p.aux.toNat = 1 then 0x202 else if p.aux.toNat = 2 then 0x201 else 0x203) ∧ (lastRecord t).cls = .contained
      ∧ HasEnded t c u o.desc := by
  have taken := (s.answered c o).refusedAt_failed c u o.pkt p.aux.toNat o.off o.desc
  have failed : ((s.answered c o).refusedAt c u o.pkt p.aux.toNat o.off).failEntry c u o
      = ((s.answered c o).refusedAt c u o.pkt p.aux.toNat o.off).failOp c u o.desc := if_neg mark
  refine ⟨_, ev_powered s _ powered, ?_⟩
  rw [h.nackRsp up hu, if_neg (by simp [early]), if_neg reason, failed]
  refine ⟨⟨by rw [taken.spire]; exact h.freed.1, fun x hx => ?_⟩, taken.frozen, taken.mem, fun running => taken.faultDesc ?_, ?_, ?_, taken.ended⟩
  · obtain ⟨y, hy, unit, pkt⟩ := taken.entries x hx
    rw [unit, pkt]
    exact h.freed.2 y hy
  · rw [State.frozen, State.unitQ_answered]
    exact running
  · rw [taken.record]
    simp only [State.recordOf, nackInfo, nackCode]
    split
    · rfl
    split <;> rfl
  · rw [taken.record]
    rfl

theorem AnswerFor.nack_asksAgain {e : EngId} (he : p.destUnit.toNat = e.val) (early : o.spec = false) (reason : p.aux = 4) {a : Active}
    (ha : (s.eng c e).q.active.find? (fun a => a.entry.id == o.desc) = some a) (closing : (s.group c e (aGroup a.entry.bits)).state = .closing)
    (going : (s.group c e (aGroup a.entry.bits)).failed = false) (seq : o.pkt.seq.toNat < 16) :
    ∃ t, exec .nack s = .next t ∧ Freed s t c p ∧ t.blf = s.blf ∧ t.mem = s.mem
      ∧ (t.group c e (aGroup a.entry.bits)).resend.getLsbD o.pkt.seq.toNat = true := by
  have hu : unitOf p.destUnit.toNat = some (.eng e) := by simp [unitOf, he]
  obtain ⟨after, blf, resend⟩ := State.blockRefused_effect (s := s.answered c o) (by rw [State.group_answered]; exact closing)
    (by rw [State.group_answered]; exact going) seq
  refine ⟨_, ev_powered s _ powered, ?_⟩
  rw [h.nackRsp up hu, if_neg (by simp [early]), if_pos (by rw [reason]; rfl), h.engineAnswer he ha]
  exact ⟨h.freed.after after, blf, after.mem, resend⟩

theorem AnswerFor.nack_early (unit : p.destUnit = 5) (early : o.spec = true) :
    ∃ t, exec .nack s = .next t ∧ Freed s t c p ∧ t.blf = s.blf ∧ t.mem = s.mem ∧ (t.core c).mov.q = (s.core c).mov.q
      ∧ ∀ b ∈ (t.core c).mov.buffer, b.id = o.desc → b.refused = true := by
  have hu : unitOf p.destUnit.toNat = some .mover := by rw [unit]; rfl
  have after : AfterAnswer (s.answered c o) ((s.answered c o).specRefused c o) c := State.modMov_afterAnswer _ c (by intro m; rfl)
  refine ⟨_, ev_powered s _ powered, ?_⟩
  rw [h.nackRsp up hu, if_pos early]
  refine ⟨h.freed.after after, rfl, rfl, ?_, fun b hb hid => ?_⟩
  · rw [State.specRefused, State.core_modMov, State.core_answered]
  · rw [State.specRefused, State.core_modMov] at hb
    obtain ⟨x, -, rfl⟩ := List.mem_map.mp hb
    by_cases hx : x.id = o.desc
    · rw [if_pos hx]
    · rw [if_neg hx] at hid
      exact absurd hid hx

end

include powered up in
theorem AnswerFor.fenceMark_counts (h : AnswerFor s c 0x20 p o) (none : s.headReq 0x20 = none) {f : Fencing} {k : Nat}
    (hf : (s.core c).seq.fencing = some f) (hid : f.entry.id = o.desc) (hk : f.marks = some k) :
    ∃ t, exec .fenceMark s = .next t ∧ Freed s t c p ∧ (t.core c).seq.fencing = some { f with marks := some (k - 1) } ∧ t.mem = s.mem
      ∧ t.blf = s.blf := by
  have entry : findEntry p.destUnit p.tag ((s.modSpire fun x => { x with localRsp := x.localRsp.drop 1 }).core c).outst = some o := h.entry
  have counted : s.fenceMark = (s.answered c o).modSeq c fun q =>
      { q with fencing := q.fencing.map fun f => if f.entry.id = o.desc then { f with marks := f.marks.map (· - 1) } else f } := by
    unfold State.fenceMark
    rw [none, h.headRsp up]
    dsimp only
    rw [h.destCore, entry]
    rfl
  refine ⟨_, ev_powered s _ powered, ?_⟩
  rw [counted]
  refine ⟨h.freed.after (State.modSeq_afterAnswer _ c (by intro q; exact ⟨rfl, rfl⟩)), ?_, rfl, rfl⟩
  rw [State.core_modSeq, State.core_answered]
  simp [hf, hid, hk]

end

/-! ### Marks and notices one by one -/

section

variable (powered : s.powered = true) {e : EdgeId} {p : Packet} {r : List (EdgeId × Packet)} (hr : s.spire.markQ = (e, p) :: r)
include powered hr

theorem exec_epochMark_head : exec .epochMark s = .next ((s.modSpire fun x => { x with markQ := r }).epochMark e p) := by
  change execEpochMark s = _
  rw [execEpochMark, ev_powered s _ powered, hr]

theorem epochMark_old (old : (p.aux - s.spire.gen).toNat = 0 ∨ 32767 < (p.aux - s.spire.gen).toNat) :
    exec .epochMark s = .next (s.modSpire fun x => { x with markQ := r }) :=
  (exec_epochMark_head powered hr).trans (congrArg _ (if_pos old))

variable (ahead : 1 ≤ (p.aux - s.spire.gen).toNat) (near : (p.aux - s.spire.gen).toNat ≤ 32767)
include ahead near

theorem epochMark_flips (unlocked : s.spire.lock = false) (loaded : s.spire.loaded = 3) (epoch : p.epoch ≠ s.spire.cur) :
    ∃ t, exec .epochMark s = .next t ∧ t.spire.cur = !s.spire.cur ∧ t.spire.gen = s.spire.gen + 1 ∧ t.spire.lock = true ∧ t.spire.loaded = 0
      ∧ t.mem = s.mem ∧ t.cores = s.cores := by
  have flips : (s.modSpire fun x => { x with markQ := r }).epochMark e p = (s.modSpire fun x => { x with markQ := r }).flip 1 := by
    unfold State.epochMark
    dsimp only
    rw [if_neg (by rw [State.modSpire_spire]; dsimp only; omega), if_neg (by simp [unlocked, loaded, epoch])]
  have flipped := (s.modSpire fun x => { x with markQ := r }).flip_flipped 1
  exact ⟨_, (exec_epochMark_head powered hr).trans (congrArg _ flips), flipped.cur, flipped.gen, flipped.lock, flipped.loaded, flipped.mem, flipped.cores⟩

theorem epochMark_unready (unready : s.spire.lock = true ∨ s.spire.loaded ≠ 3 ∨ p.epoch = s.spire.cur) :
    ∃ t, exec .epochMark s = .next t ∧ t.spire = { s.spire with markQ := r } ∧ (lastRecord t).code = 0x203 := by
  refine ⟨_, exec_epochMark_head powered hr, ?_⟩
  unfold State.epochMark
  dsimp only
  rw [if_neg (by rw [State.modSpire_spire]; dsimp only; omega), if_pos (by simpa using unready)]
  refine ⟨State.log_spire _ _, ?_⟩
  rw [lastRecord_log]
  rfl

end

section

variable (powered : s.powered = true) {n : Packet} {r : List Packet} (hr : s.spire.mgmtQ = n :: r) (notice : n.isNotice = true)
include powered hr notice

theorem violationNotice_poisoned (poisoned : n.poisoned = true) :
    ∃ t, exec .violationNotice s = .next t ∧ t.spire.mgmtQ = r ∧ t.fatal = true ∧ (lastRecord t).code = 0x103 ∧ (lastRecord t).cls = .fatal
      ∧ (lastRecord t).detail = 0xFFFFFFFF ∧ t.mem = s.mem := by
  have fatal := (s.modSpire fun x => { x with mgmtQ := r }).campPoison_poisoned
  have step : s.violationNotice = (s.modSpire fun x => { x with mgmtQ := r }).campPoison := by
    simp [State.violationNotice, hr, notice, poisoned]
  refine ⟨_, ev_powered s _ powered, ?_⟩
  rw [step]
  obtain ⟨code, cls, detail⟩ := fatal.record
  exact ⟨by rw [fatal.spire]; rfl, fatal.fatal, code, cls, detail, fatal.mem⟩

theorem violationNotice_freezes (clean : n.poisoned = false) {q : Packet} (hq : q = packetOf (leNat n.payload) []) {u : UnitId} (die : q.srcDie = s.dieId)
    (unit : q.srcUnit.toNat < 7) (hu : unitOf q.srcUnit.toNat = some u) (core : q.srcCore.toNat = c.val) :
    ∃ t, exec .violationNotice s = .next t ∧ t.spire.mgmtQ = r ∧ (t.frozen c u).isSome = true ∧ t.mem = s.mem ∧ SameCores s t c
      ∧ (s.frozen c u = none → (t.frozen c u).map (·.cause) = some .violation) := by
  have violated := (s.modSpire fun x => { x with mgmtQ := r }).notice_violated n die unit hu core
  have step : s.violationNotice = (s.modSpire fun x => { x with mgmtQ := r }).notice n q := by
    simp [State.violationNotice, hr, notice, clean, hq]
  refine ⟨_, ev_powered s _ powered, ?_⟩
  rw [step]
  exact ⟨by rw [violated.spire]; rfl, violated.frozen, violated.mem, violated.others, violated.cause⟩

end

end Sys2Proof.Machine

open Sys2Proof Sys2Proof.Machine Sys2Proof.Claims

/-- Settles O28: each answer by the entry it frees (`AnswerFor`), each mark and notice by what it carries. -/
theorem answersAndMarksReachTheirSource : Obligations.AnswersAndMarksReachTheirSource := by
  intro s c p o wf powered up entry mine freed dst
  have answer : ∀ op, mine op → AnswerFor s c op p o := fun op ⟨head, opcode, core, ours, entry, due⟩ => ⟨head, opcode, core, ours, entry, due⟩
  refine ⟨?_, ?_, ?_, ?_, ?_, ?_, ?_, ?_, ?_, ?_⟩
  · exact fun h unit read early may => (answer 4 h).readRsp_lands wf powered up unit read early may
  · exact fun h unit other => (answer 4 h).readRsp_completes powered up unit other
  · exact fun e a h he ha _ closing going => (answer 4 h).readRsp_accepts powered up he ha closing going
  · exact fun u h hu early reason mark => (answer 0x3F h).nack_freezes powered up hu early reason mark
  · exact fun e a h he early reason ha closing going seq => (answer 0x3F h).nack_asksAgain powered up he early reason ha closing going seq
  · exact fun h unit early => (answer 0x3F h).nack_early powered up unit early
  · exact fun f k h none hf hid hk => (answer 0x20 h).fenceMark_counts powered up none hf hid hk
  · exact fun e r hr => ⟨epochMark_old powered hr, epochMark_flips powered hr, epochMark_unready powered hr⟩
  · exact fun n r hr notice poisoned => violationNotice_poisoned powered hr notice poisoned
  · exact fun n r u hr notice clean die unit hu core => violationNotice_freezes powered hr notice clean rfl die unit hu core

end

/-! ## Packets are injected at LOCAL (R122 to R124, R179, R273, R278, R410) -/

section

namespace Sys2Proof.Machine

open Sys2Proof.Claims

variable {s t r : State} {c : CoreId}

/-! ### Tags (R252) -/

/-- A tag is free: no entry uses it, and where it has rested its time is over. -/
def TagFree (s : State) (c : CoreId) (tag : Nat) : Prop :=
  tag < 4096 ∧ (∀ o ∈ (s.core c).outst, o.pkt.tag.toNat ≠ tag) ∧ ∀ x ∈ (s.core c).deadTags, x.1 = tag → x.2 ≤ s.now

theorem tagFree_of_freeTag {n from_ tag : Nat} (h : (s.core c).freeTag s.now n from_ = some tag) (below : from_ < 4096) : TagFree s c tag := by
  induction n generalizing from_ with
  | zero => simp [Core.freeTag] at h
  | succ n ih =>
    unfold Core.freeTag at h
    split at h
    · exact ih h (Nat.mod_lt _ (by decide))
    · rename_i unused
      obtain rfl := Option.some.inj h
      simp only [Bool.or_eq_true, not_or, Bool.not_eq_true, List.any_eq_false, Bool.and_eq_true, beq_iff_eq, decide_eq_true_eq,
        not_and, Nat.not_lt] at unused
      exact ⟨below, unused.1, unused.2⟩

/-! ### What is done before the packet enters -/

/-- Of the die, core `c`, the marks of the SRAM and the log may differ, but neither the entries nor the setup. -/
structure Readied (s t : State) (c : CoreId) : Prop where
  die : t = { s with cores := t.cores, mem := t.mem, blf := t.blf }
  others : SameCores s t c
  outst : (t.core c).outst = (s.core c).outst
  setup : SameSetup s t
  bytes : SameBytes s t

theorem Readied.refl (s : State) (c : CoreId) : Readied s s c := ⟨rfl, fun _ _ => rfl, rfl, .refl s, fun _ => rfl⟩

theorem Readied.trans (h : Readied s t c) (h' : Readied t r c) : Readied s r c where
  die := by rw [h'.die, h.die]
  others d hd := (h'.others d hd).trans (h.others d hd)
  outst := h'.outst.trans h.outst
  setup := h.setup.trans h'.setup
  bytes a := (h'.bytes a).trans (h.bytes a)

theorem Reads.readied (h : Reads s t) (setup : SameSetup s t) : Readied s t c :=
  ⟨by rw [h.die], fun d _ => h.core_eq d, by rw [h.core_eq], setup, h.sameBytes⟩

theorem OnlyCore.readied (h : OnlyCore s t c) (outst : (t.core c).outst = (s.core c).outst) : Readied s t c :=
  ⟨by rw [h.die], h.others, outst, .of_blf (by rw [h.die]), fun a => by rw [h.mem]⟩

theorem State.modMov_readied (s : State) (c : CoreId) (f : Mover → Mover) : Readied s (s.modMov c f) c :=
  (s.modCore_onlyCore c (by intro k; rfl)).readied (by simp)

theorem State.modSeq_readied (s : State) (c : CoreId) (f : Sequencer → Sequencer) : Readied s (s.modSeq c f) c :=
  (s.modCore_onlyCore c (by intro k; rfl)).readied (by simp)

theorem State.modGroup_readied (s : State) (c : CoreId) (e : EngId) (g : GroupId) (f : Group → Group) : Readied s (s.modGroup c e g f) c :=
  (s.modCore_onlyCore c (by intro k; rfl)).readied (by simp)

/-! ### A packet and its entry (R278) -/

/-- The packet carries what every request of core `c`'s unit with code `unit` carries. -/
structure Stamped (s : State) (c : CoreId) (unit : Nat) (p : Packet) : Prop where
  vc : p.vc = 0
  pkey : p.pkey = (s.core c).owner.getD 0
  srcDie : p.srcDie = s.dieId
  srcCore : p.srcCore.toNat = c.val
  srcUnit : p.srcUnit.toNat = unit
  epoch : p.epoch = s.spire.cur
  hops : p.hops = 0

theorem State.request_stamped (s : State) (c : CoreId) {unit : Nat} (h : unit < 16) (op : Nat) : Stamped s c unit (s.request c unit op) where
  vc := rfl
  pkey := rfl
  srcDie := rfl
  srcCore := by
    have := c.isLt
    exact Nat.mod_eq_of_lt (by omega)
  srcUnit := Nat.mod_eq_of_lt h
  epoch := rfl
  hops := rfl

theorem Stamped.cls {unit : Nat} {p : Packet} (h : Stamped s c unit p) : p.cls = .req := if_pos h.vc

theorem entriesFor_congr (spire : t.spire = s.spire) (p : Packet) : t.entriesFor p = s.entriesFor p := by
  unfold State.entriesFor State.mcastEntry
  rw [spire]

theorem State.enterAt_buf (s : State) (port : SpirePort) (p : Packet) : (s.enterAt port p).spire.buf port p.cls = s.spire.buf port p.cls ++ [p] := by
  simp only [State.enterAt, State.modSpire_spire, Spire.modBuf, Spire.buf, upd_same]
  rfl

/-- The stamped packet enters LOCAL's buffer and takes its entry. -/
theorem Readied.injected (h : Readied s t c) {unit tag : Nat} {p : Packet} (stamped : Stamped s c unit p) (free : TagFree s c tag) (loc : Nat) (spec : Bool)
    (desc off : Nat) : Injected s (t.inject c tag p loc spec desc off) c unit { p with tag := BitVec.ofNat 12 tag } := by
  have spire : t.spire = s.spire := by rw [h.die]
  have cls := stamped.cls
  have tagNat : (BitVec.ofNat 12 tag).toNat = tag := Nat.mod_eq_of_lt free.1
  exact {
    buffer := by
      obtain ⟨x, enters, same⟩ : ∃ x : State, t.inject c tag p loc spec desc off = x.enterAt .loc { p with tag := BitVec.ofNat 12 tag }
          ∧ x.spire = t.spire := ⟨_, rfl, rfl⟩
      have entered := x.enterAt_buf .loc { p with tag := BitVec.ofNat 12 tag }
      rw [show ({ p with tag := BitVec.ofNat 12 tag } : Packet).cls = .req from cls] at entered
      rw [localBuf, localBuf, ← spire, ← same, enters]
      exact entered
    stamp := ⟨stamped.vc, stamped.pkey, stamped.srcDie, stamped.srcCore, stamped.srcUnit, stamped.epoch, stamped.hops⟩
    held := by
      rw [← spire]
      exact ⟨upd_same _ _ _, upd_same _ _ _⟩
    entry := by
      refine ⟨_, (congrArg Core.outst (State.core_modCore t c _)).trans (congrArg (· ++ _) h.outst), rfl, rfl, rfl, ?_, ?_, rfl⟩
      · exact congrArg BitVec.toNat h.setup.wait
      · exact entriesFor_congr spire _
    tag := by
      refine ⟨fun o ho same => free.2.1 o ho ?_, fun x hx same => free.2.2 x hx ?_⟩
      · rw [same]
        exact tagNat
      · rw [same]
        exact tagNat
    others := fun d hd => (t.core_modCore_other c d _ hd).trans (h.others d hd)
    die := by
      obtain ⟨cores, mem, blf, rfl⟩ : ∃ cores mem blf, t = { s with cores := cores, mem := mem, blf := blf } := ⟨_, _, _, h.die⟩
      rfl
    bytes := h.bytes }

/-- What follows in the core changes nothing of the injection. -/
theorem injected_after {unit : Nat} {q : Packet} (h : Injected s t c unit q) (h' : AfterAnswer t r c) (outst : (r.core c).outst = (t.core c).outst) :
    Injected s r c unit q where
  buffer := by rw [localBuf, h'.spire]; exact h.buffer
  stamp := h.stamp
  held := by rw [h'.spire]; exact h.held
  entry := by rw [outst]; exact h.entry
  tag := h.tag
  others d hd := (h'.others d hd).trans (h.others d hd)
  die := by
    obtain ⟨cores, spire, mem, blf, rfl⟩ : ∃ cores spire mem blf, t = { s with cores := cores, spire := spire, mem := mem, blf := blf } := ⟨_, _, _, _, h.die⟩
    rw [h'.die]
  bytes a := by rw [h'.mem]; exact h.bytes a

/-! ### Where a packet goes (R273) -/

theorem field_zero (v w : Nat) : field v 0 w = v % 2 ^ w := by rw [field, Nat.shiftRight_zero]

theorem aimed_of_address {unit : Nat} {p₀ p : Packet} {dest : BitVec 16} (stamped : Stamped s c unit p₀) (plain : p₀.amode = false)
    (h : s.address c dest p₀ = some p) : aimed s c dest.toNat p := by
  unfold State.address at h
  unfold aimed
  dsimp only at h ⊢
  rw [stamped.epoch, show field dest.toNat 0 12 = dest.toNat % 4096 from field_zero _ _] at h
  split at h
  case isTrue mode =>
    rw [if_pos mode]
    split at h
    case isTrue assigned =>
      obtain rfl := Option.some.inj h
      exact ⟨assigned, rfl, Nat.mod_eq_of_lt (Nat.mod_lt _ (by decide)), Nat.mod_eq_of_lt (field_lt _ _ _), (field_zero _ _).symm⟩
    case isFalse => exact absurd h (by simp)
  case isFalse mode =>
    rw [if_neg mode]
    obtain rfl := Option.some.inj h
    exact ⟨plain, Nat.mod_eq_of_lt (field_lt _ _ _), (field_zero _ _).symm⟩

/-- Addressing a packet changes where it goes and no more. -/
theorem address_keeps {p₀ p : Packet} {dest : BitVec 16} (h : s.address c dest p₀ = some p) :
    p = { p₀ with amode := p.amode, destRank := p.destRank, destDie := p.destDie, destCore := p.destCore } := by
  unfold State.address at h
  dsimp only at h
  split at h
  · split at h
    · obtain rfl := Option.some.inj h
      rfl
    · exact absurd h (by simp)
  · obtain rfl := Option.some.inj h
    rfl

theorem aim_keeps {w : NetItem} {p₀ p : Packet} (h : s.aim c w p₀ = some p) :
    p = { p₀ with amode := p.amode, destRank := p.destRank, destDie := p.destDie, destCore := p.destCore, mc := p.mc, aux := p.aux } := by
  unfold State.aim at h
  split at h
  · obtain rfl := Option.some.inj h
    rfl
  · split at h <;>
    · obtain rfl := Option.some.inj h
      rfl
  · rw [address_keeps h]

end Sys2Proof.Machine

end

section

namespace Sys2Proof.Machine

open Sys2Proof.Claims

variable {s t r : State} {c : CoreId} {w : NetItem}

/-! ### The header of the mover's next packet (R179, R260) -/

theorem NetItem.op_lt (w : NetItem) : w.op < 64 := by
  unfold NetItem.op
  cases w.kind with
  | write | mcast =>
    dsimp only
    split <;> decide
  | read => exact (by decide : 3 < 64)
  | signal => exact (by decide : 5 < 64)
  | fence => exact (by decide : 0x20 < 64)
  | mirror _ => exact (by decide : 3 < 64)

theorem itemPacket_op (s : State) (c : CoreId) (w : NetItem) : (s.itemPacket c w).op = w.op := by
  rw [← Nat.mod_eq_of_lt w.op_lt]
  unfold State.itemPacket
  dsimp only
  split_ifs <;> rfl

theorem itemPacket_stamped (s : State) (c : CoreId) (w : NetItem) : Stamped s c 5 (s.itemPacket c w) := by
  obtain ⟨vc, pkey, srcDie, srcCore, srcUnit, epoch, hops⟩ := s.request_stamped c (by decide : 5 < 16) w.op
  unfold State.itemPacket
  dsimp only
  split_ifs <;> exact ⟨vc, pkey, srcDie, srcCore, srcUnit, epoch, hops⟩

theorem itemPacket_plain (s : State) (c : CoreId) (w : NetItem) : (s.itemPacket c w).amode = false ∧ (s.itemPacket c w).spec = w.spec
    ∧ (s.itemPacket c w).seq = BitVec.ofNat 16 w.seq := by
  unfold State.itemPacket
  dsimp only
  split_ifs <;> exact ⟨rfl, rfl, rfl⟩

theorem itemPacket_target (s : State) (c : CoreId) (h : w.op ≠ 0x20) : (s.itemPacket c w).window = w.window
    ∧ (s.itemPacket c w).offset = BitVec.ofNat 32 (w.offset + w.row * w.remotePitch + w.pos) := by
  unfold State.itemPacket
  dsimp only
  rw [if_neg h]
  split_ifs <;> exact ⟨rfl, rfl⟩

theorem itemPacket_len (s : State) (c : CoreId) (h : w.op = 1 ∨ w.op = 2 ∨ w.op = 3) : (s.itemPacket c w).len = BitVec.ofNat 6 (w.size / 16) := by
  unfold State.itemPacket
  dsimp only
  rw [if_pos h]
  split_ifs <;> rfl

theorem itemPacket_signal (s : State) (c : CoreId) (h : w.op = 2 ∨ w.op = 5) : (s.itemPacket c w).sigCnt = w.sigCnt ∧ (s.itemPacket c w).sigInc = w.sigInc := by
  unfold State.itemPacket
  dsimp only
  rw [if_pos h]
  exact ⟨rfl, rfl⟩

theorem NetItem.last_iff (w : NetItem) : w.last = true ↔ w.kind = .signal ∨ w.kind = .fence ∨ (w.rows ≤ w.row + 1 ∧ w.rowBytes ≤ w.pos + w.size) := by
  unfold NetItem.last
  cases w.kind <;> simp

/-! ### The data of the mover's next packet (R179, R446) -/

/-- Where the bytes of the next packet stand. -/
def readsAt (s : State) (c : CoreId) (w : NetItem) : Nat := if s.moverKind c w.desc .scatter then coreBase c + w.address else w.address

/-- They are inside the Cupola for a SCATTER, and granted to another descriptor. -/
def MayRead (s : State) (c : CoreId) (w : NetItem) : Prop :=
  if s.moverKind c w.desc .scatter then w.address + w.size ≤ 0x600000 else ∀ b, b < w.size → Granted s c (readsAt s c w + b) false

/-- The data has been read and nothing was refused. -/
structure DataRead (s : State) (c : CoreId) (w : NetItem) (r : State × Marked × Bool) : Prop where
  readied : Readied s r.1 c
  goes : r.2.2 = false
  bytes : bytesOf r.2.1 = (List.range w.size).map fun b => s.mem.byteAt (readsAt s c w + b)

theorem packetData_read (wf : s.mem.wf = true) (may : MayRead s c w) : DataRead s c w (s.packetData c w) := by
  unfold MayRead readsAt at may
  unfold State.packetData
  by_cases scatter : s.moverKind c w.desc .scatter = true
  · rw [if_pos scatter] at may ⊢
    obtain ⟨noted, outst⟩ := (s.cupRead c w.address w.size).1.noteBounds_inside c .mover w.desc may
    refine ⟨((s.cupRead_reads c w.address w.size).readied (s.demand_setup _ _)).trans (noted.toOnlyCore.readied outst), rfl, ?_⟩
    dsimp only
    rw [State.cupRead_bytes wf, readsAt, if_pos scatter]
    refine List.map_congr_left fun b hb => ?_
    rw [List.mem_range] at hb
    rw [cupByte, if_pos (by rw [cupolaEnd]; omega), Nat.add_assoc]
  · simp only [if_neg scatter] at may ⊢
    have read := (MoveAcc.start s).read_granted (c := c) w.address w.size wf rfl may
    have outs : ((MoveAcc.start s).read c w.address w.size).1.outs = [] := read.outs
    refine ⟨?_, read.stop, ?_⟩
    · rw [outs]
      exact read.reads.readied read.setup
    · rw [read.bytes, readsAt, if_neg scatter, Nat.add_sub_cancel_left]
      rfl

/-! ### The packet leaves -/

/-- The mover's first item sends packet `q`, under tag `tag`, and goes on to `rest`. -/
def State.launch (s : State) (c : CoreId) (tag : Nat) (w : NetItem) (rest : List NetItem) (q : Packet) : State :=
  let t := s.modMov c fun m => { m.noteSent q with work := if w.last then rest else w.step :: rest }
  let r := if q.op = 0x20 ∧ q.mc then t.modSeq c fun x => { x with fencing := x.fencing.map fun f => f.more (t.entriesFor q) } else t
  (r.inject c tag q w.address w.spec w.desc w.off).moverSettle c

/-- The packet with its data. -/
def carrying (p : Packet) (data : Marked) : Packet := { p with poison := poisonField data, payload := bytesOf data }

theorem State.sendMover_launch {rest : List NetItem} {p : Packet} {tag : Nat} (live : (s.core c).live = true) (running : (s.core c).mov.q.freeze = none)
    (up : s.dstate = .up) (work : (s.core c).mov.work = w :: rest) (aim : s.aim c w (s.itemPacket c w) = some p) (may : s.mayInject c p = true)
    (free : (s.core c).freeTag s.now 4096 (s.core c).nextTag = some tag) : s.sendMover c
      = let r := if p.op = 1 ∨ p.op = 2 then s.packetData c w else (s, [], false)
        if r.2.2 then r.1 else r.1.launch c tag w rest (carrying p r.2.1) := by
  unfold State.sendMover
  dsimp only
  rw [work]
  dsimp only
  rw [if_neg (by simp [live, running, State.spireOn, up]), aim]
  dsimp only
  rw [free]
  dsimp only
  rw [if_neg (by simp [may])]
  unfold State.launch carrying
  rfl

/-- What the item sends, and what it leaves to send. -/
structure Launched (s t : State) (c : CoreId) (w : NetItem) (rest : List NetItem) (q : Packet) : Prop where
  injected : Injected s t c 5 q
  work : (t.core c).mov.work = if w.last then rest else w.step :: rest
  dests : (q.op = 1 ∨ q.op = 2 ∨ q.op = 5) → q.mc = false → (q.destDie, false) ∈ (t.core c).mov.fenceDests

theorem Mover.noteSent_dest (m : Mover) {q : Packet} (op : q.op = 1 ∨ q.op = 2 ∨ q.op = 5) (one : q.mc = false) :
    (q.destDie, false) ∈ (m.noteSent q).fenceDests := by
  unfold Mover.noteSent
  simp only [one, if_pos op, Bool.false_eq_true, if_false]
  split
  · rename_i known
    simpa using known
  · simp

theorem moverSettle_mov (s : State) (c : CoreId) : ((s.moverSettle c).core c).mov.work = (s.core c).mov.work
    ∧ ((s.moverSettle c).core c).mov.fenceDests = (s.core c).mov.fenceDests := by
  simp [State.moverSettle, State.modQ]

theorem Readied.launched (h : Readied s t c) {q : Packet} (stamped : Stamped s c 5 q) {tag : Nat} (free : TagFree s c tag) (rest : List NetItem) :
    Launched s (t.launch c tag w rest q) c w rest { q with tag := BitVec.ofNat 12 tag } := by
  unfold State.launch
  extract_lets a b
  have noted : Readied s a c := h.trans (t.modMov_readied c _)
  have fenced : Readied s b c ∧ (b.core c).mov = (a.core c).mov := by
    simp only [b]
    split
    · exact ⟨noted.trans (a.modSeq_readied c _), by rw [State.core_modSeq]⟩
    · exact ⟨noted, rfl⟩
  have sent := fenced.1.injected stamped free w.address w.spec w.desc w.off
  obtain ⟨work, dests⟩ := moverSettle_mov (b.inject c tag q w.address w.spec w.desc w.off) c
  have mov : ((b.inject c tag q w.address w.spec w.desc w.off).core c).mov = (a.core c).mov :=
    (congrArg Core.mov (State.core_modCore b c _)).trans fenced.2
  have sentMov : (a.core c).mov = { (t.core c).mov.noteSent q with work := if w.last then rest else w.step :: rest } :=
    congrArg Core.mov (State.core_modMov t c _)
  refine ⟨injected_after sent (State.moverSettle_afterAnswer _ c) (State.outst_modQ _ c .mover _), ?_, fun op one => ?_⟩
  · rw [work, mov, sentMov]
  · rw [dests, mov, sentMov]
    exact (t.core c).mov.noteSent_dest op one

end Sys2Proof.Machine

end

section

namespace Sys2Proof.Machine

open Sys2Proof.Claims

variable {s t : State} {c : CoreId} {w : NetItem}

/-! ### The mover's injection, and its waiting (R179, R254) -/

/-- Packet `p` is the item's next packet, addressed, under tag `tag` and with the data `data` that it has to carry. -/
structure MoverSent (s t : State) (c : CoreId) (w : NetItem) (rest : List NetItem) (p : Packet) (tag : Nat) (data : Marked) : Prop where
  work : (s.core c).mov.work = w :: rest
  aim : s.aim c w (s.itemPacket c w) = some p
  full : w.op = 1 ∨ w.op = 2 → bytesOf data = (List.range w.size).map fun b => s.mem.byteAt (readsAt s c w + b)
  empty : ¬ (w.op = 1 ∨ w.op = 2) → data = []
  launched : Launched s t c w rest { carrying p data with tag := BitVec.ofNat 12 tag }

/-- Packet `q` is `p` with its data and its tag. -/
structure Carries (p q : Packet) (data : List Byte) : Prop where
  op : q.op = p.op
  len : q.len = p.len
  seq : q.seq = p.seq
  spec : q.spec = p.spec
  window : q.window = p.window
  offset : q.offset = p.offset
  sigCnt : q.sigCnt = p.sigCnt
  sigInc : q.sigInc = p.sigInc
  mc : q.mc = p.mc
  aux : q.aux = p.aux
  pkey : q.pkey = p.pkey
  goes : q.amode = p.amode ∧ q.destRank = p.destRank ∧ q.destDie = p.destDie ∧ q.destCore = p.destCore
  payload : q.payload = data

theorem carries_carrying (p : Packet) (data : Marked) (tag : BitVec 12) : Carries p { carrying p data with tag := tag } (bytesOf data) := by
  unfold carrying
  exact ⟨rfl, rfl, rfl, rfl, rfl, rfl, rfl, rfl, rfl, rfl, rfl, ⟨rfl, rfl, rfl, rfl⟩, rfl⟩

theorem Carries.aimed {p q : Packet} {data : List Byte} (h : Carries p q data) {dest : Nat} (h' : Claims.aimed s c dest p) : Claims.aimed s c dest q := by
  obtain ⟨amode, destRank, destDie, destCore⟩ := h.goes
  unfold Claims.aimed
  rw [amode, destRank, destDie, destCore]
  exact h'

theorem aim_op {p : Packet} (h : s.aim c w (s.itemPacket c w) = some p) : p.op = w.op := by
  rw [aim_keeps h]
  exact itemPacket_op s c w

theorem aim_stamped {p : Packet} (h : s.aim c w (s.itemPacket c w) = some p) : Stamped s c 5 p := by
  obtain ⟨vc, pkey, srcDie, srcCore, srcUnit, epoch, hops⟩ := itemPacket_stamped s c w
  rw [aim_keeps h]
  exact ⟨vc, pkey, srcDie, srcCore, srcUnit, epoch, hops⟩

theorem exec_packetInjection_mover (c : CoreId) (powered : s.powered = true) : exec (.packetInjection (.unit c .mover)) s = .next (s.sendMover c) := by
  change ev s (fun s => s.sendMover c) = _
  exact ev_powered s _ powered

theorem Stamped.with_data {unit : Nat} {p : Packet} (h : Stamped s c unit p) (data : Marked) : Stamped s c unit (carrying p data) := by
  unfold carrying
  exact ⟨h.vc, h.pkey, h.srcDie, h.srcCore, h.srcUnit, h.epoch, h.hops⟩

theorem moverSends_sent (wf : s.mem.wf = true) (h : MoverSends s c w) (may : w.op = 1 ∨ w.op = 2 → MayRead s c w) :
    ∃ t rest p tag data, exec (.packetInjection (.unit c .mover)) s = .next t ∧ MoverSent s t c w rest p tag data := by
  obtain ⟨powered, live, running, up, ⟨rest, work⟩, ⟨p, aim, room⟩, tagFrom, tag, free⟩ := h
  have step := exec_packetInjection_mover c powered
  rw [State.sendMover_launch live running up work aim room free, aim_op aim] at step
  have tagFree := tagFree_of_freeTag free tagFrom
  have stamped := aim_stamped aim
  by_cases op : w.op = 1 ∨ w.op = 2
  · have read := packetData_read wf (may op)
    rw [if_pos op] at step
    dsimp only at step
    rw [if_neg (by simp [read.goes])] at step
    exact ⟨_, rest, p, tag, _, step, work, aim, fun _ => read.bytes, fun no => absurd op no, read.readied.launched (stamped.with_data _) tagFree rest⟩
  · rw [if_neg op] at step
    exact ⟨_, rest, p, tag, [], step, work, aim, fun yes => absurd yes op, fun _ => rfl, (Readied.refl s c).launched (stamped.with_data _) tagFree rest⟩

/-- Without entries or room the item waits. -/
theorem sendMover_waits {rest : List NetItem} {p : Packet} (work : (s.core c).mov.work = w :: rest) (aim : s.aim c w (s.itemPacket c w) = some p)
    (full : s.mayInject c p = false) : s.sendMover c = s := by
  unfold State.sendMover
  dsimp only
  rw [work]
  dsimp only
  split
  · rfl
  rw [aim]
  dsimp only
  split
  · rfl
  rw [if_pos (by simp [full])]

/-! ### An engine's row block (R122, R123) -/

section

variable {e : EngId} {g : GroupId} {b : Nat} {a : Active}

/-- The die with row block `b` read and noted as sent. -/
def State.blockSent (s : State) (c : CoreId) (e : EngId) (g : GroupId) (b : Nat) : State :=
  (s.readP (groupBase c e g + 512 * b) 512).1.modGroup c e g fun x => { x with sent := putBit x.sent b true, resend := putBit x.resend b false }

/-- The marked bytes of row block `b`. -/
def State.blockData (s : State) (c : CoreId) (e : EngId) (g : GroupId) (b : Nat) : Marked := (s.readP (groupBase c e g + 512 * b) 512).2

theorem State.blockSent_readied (s : State) (c : CoreId) (e : EngId) (g : GroupId) (b : Nat) : Readied s (s.blockSent c e g b) c :=
  ((s.readP_reads _ _).readied (s.readP_setup _ _)).trans (State.modGroup_readied _ c e g _)

theorem State.blockSent_group (s : State) (c : CoreId) (e : EngId) (g : GroupId) (b : Nat) : (s.blockSent c e g b).group c e g
    = { s.group c e g with sent := putBit (s.group c e g).sent b true, resend := putBit (s.group c e g).resend b false } := by
  have same : (s.readP (groupBase c e g + 512 * b) 512).1.group c e g = s.group c e g :=
    congrArg (fun x : Engine => x.groups[g]) ((s.readP_reads (groupBase c e g + 512 * b) 512).eng_eq c e)
  rw [State.blockSent, State.group_modGroup, same]

theorem getLsbD_putBit_false {w : Nat} (v : BitVec w) (i : Nat) : (putBit v i false).getLsbD i = false := by
  rw [putBit, if_neg Bool.false_ne_true, BitVec.getLsbD_and, BitVec.getLsbD_not, BitVec.getLsbD_ofNat, Nat.testBit_two_pow_self, Bool.and_true]
  by_cases h : i < w <;> simp [h]

/-- The block stands in packet `q` and counts as sent. -/
structure BlockIn (s t : State) (c : CoreId) (e : EngId) (g : GroupId) (b : Nat) (q : Packet) : Prop where
  op : q.op = 6
  len : q.len = 32
  seq : q.seq.toNat = b
  length : q.payload.length = 512
  bytes : ∀ i, i < 512 → q.payload.getD i 0 = s.mem.byteAt (groupBase c e g + 512 * b + i)
  sent : (t.group c e g).sent.getLsbD b = true
  resend : (t.group c e g).resend.getLsbD b = false
  state : (t.group c e g).state = (s.group c e g).state
  same : SameBytes s t

theorem blockIn_of_sent (wf : s.mem.wf = true) (hb : b < 16) {q : Packet} (op : q.op = 6) (len : q.len = 32) (seq : q.seq = BitVec.ofNat 16 b)
    (payload : q.payload = bytesOf (s.blockData c e g b)) (group : t.group c e g = (s.blockSent c e g b).group c e g) (same : SameBytes s t) :
    BlockIn s t c e g b q := by
  have data : bytesOf (s.blockData c e g b) = (List.range 512).map fun i => s.mem.byteAt (groupBase c e g + 512 * b + i) :=
    (s.readP_bytes _ _).trans (Memory.load_eq _ wf _ _)
  rw [State.blockSent_group] at group
  refine ⟨op, len, by rw [seq]; exact Nat.mod_eq_of_lt (by omega), by rw [payload, data]; simp, fun i hi => ?_, ?_, ?_, ?_, same⟩
  · rw [payload, data]
    simp [hi]
  · rw [group]
    exact getLsbD_putBit _ hb
  · rw [group]
    exact getLsbD_putBit_false _ b
  · rw [group]

variable (live : (s.core c).live = true) (running : (s.eng c e).q.freeze = none) (up : s.dstate = .up) (desc : (s.eng c e).chainDesc g = some a)

/-- The packet of a row block before it is aimed. -/
def State.blockPacket (s : State) (c : CoreId) (e : EngId) (b : Nat) : Packet := { s.request c e.val 6 with len := 32, seq := BitVec.ofNat 16 b }

/-- A row block's packet for the die NoC. -/
def State.nearPacket (s : State) (c : CoreId) (e : EngId) (g : GroupId) (b : Nat) (d : Desc) : Packet :=
  { carrying (s.blockPacket c e b) (s.blockData c e g b) with
    destDie := s.dieId, destCore := BitVec.ofNat 4 (Fin.ofNat 16 (aDest d % 16) : CoreId).val
    offset := BitVec.ofNat 32 (groupBase (Fin.ofNat 16 (aDest d % 16)) (aDestEng d) (aDestGrp d) + 512 * b), tag := BitVec.ofNat 12 g.val }

include live running up desc

theorem sendBlock_near (near : aLocal a.entry.bits = true) : s.sendBlock c e g b
    = (s.blockSent c e g b).modSpire fun x => { x with nocQ := x.nocQ ++ [s.nearPacket c e g b a.entry.bits] } := by
  have desc' : ((s.core c).eng[e]).chainDesc g = some a := desc
  have running' : ((s.core c).eng[e]).q.freeze = none := running
  unfold State.sendBlock
  dsimp only
  rw [desc']
  dsimp only
  rw [running', if_neg (by simp [live, State.spireOn, up]), if_pos near]
  rfl

theorem sendBlock_far (far : aLocal a.entry.bits = false) {p : Packet} {tag : Nat}
    (aim : s.address c (BitVec.ofNat 16 (aDest a.entry.bits)) { s.blockPacket c e b with
      window := BitVec.ofNat 8 (aWindow a.entry.bits), offset := BitVec.ofNat 32 (aOffset a.entry.bits + 512 * b) } = some p)
    (free : (s.core c).freeTag s.now 4096 (s.core c).nextTag = some tag) (may : s.mayInject c p = true) : s.sendBlock c e g b
      = (s.blockSent c e g b).inject c tag (carrying p (s.blockData c e g b)) 0 false a.entry.id a.entry.off := by
  have desc' : ((s.core c).eng[e]).chainDesc g = some a := desc
  have running' : ((s.core c).eng[e]).q.freeze = none := running
  unfold State.blockPacket at aim
  unfold State.sendBlock
  dsimp only
  rw [desc']
  dsimp only
  rw [running', if_neg (by simp [live, State.spireOn, up]), if_neg (by simp [far]), aim]
  dsimp only
  rw [free]
  dsimp only
  rw [if_neg (by simp [may])]
  unfold carrying
  rfl

end

end Sys2Proof.Machine

end

section

namespace Sys2Proof.Machine

open Sys2Proof.Claims

variable {s t : State} {c : CoreId} {w : NetItem}

/-! ### What the mover's packet carries (R179) -/

theorem NetItem.op_data (h : w.kind = .write ∨ w.kind = .mcast) : w.op = if w.last ∧ w.signal = true then 2 else 1 := by
  unfold NetItem.op
  rcases h with h | h <;> rw [h]

theorem NetItem.kind_of_data (h : w.op = 1 ∨ w.op = 2) : w.kind = .write ∨ w.kind = .mcast := by
  unfold NetItem.op at h
  cases kind : w.kind <;> simp [kind] at h ⊢

theorem NetItem.op_of_kind : (w.kind = .read → w.op = 3) ∧ (w.kind = .signal → w.op = 5) ∧ (w.kind = .fence → w.op = 0x20) := by
  unfold NetItem.op
  refine ⟨?_, ?_, ?_⟩ <;> (intro h; rw [h])

section

variable {rest : List NetItem} {p q : Packet} {tag : Nat} {data : Marked} (h : MoverSent s t c w rest p tag data) (hq : Carries p q (bytesOf data))
include h hq

theorem MoverSent.op : q.op = w.op := hq.op.trans (aim_op h.aim)

theorem MoverSent.seq : q.seq.toNat = w.seq % 65536 := by
  rw [hq.seq, aim_keeps h.aim]
  dsimp only
  rw [(itemPacket_plain s c w).2.2, BitVec.toNat_ofNat]

theorem MoverSent.spec : q.spec = w.spec := by
  rw [hq.spec, aim_keeps h.aim]
  exact (itemPacket_plain s c w).2.1

theorem MoverSent.len (op : w.op = 1 ∨ w.op = 2 ∨ w.op = 3) : q.len.toNat = w.size / 16 % 64 := by
  rw [hq.len, aim_keeps h.aim]
  dsimp only
  rw [itemPacket_len s c op, BitVec.toNat_ofNat]

theorem MoverSent.payload (op : w.op = 1 ∨ w.op = 2) : q.payload.length = w.size
    ∧ ∀ b, b < w.size → q.payload.getD b 0 = s.mem.byteAt (readsAt s c w + b) := by
  rw [hq.payload, h.full op]
  exact ⟨by simp, fun b hb => by simp [hb]⟩

theorem MoverSent.no_payload (op : ¬ (w.op = 1 ∨ w.op = 2)) : q.payload = [] := by
  rw [hq.payload, h.empty op]
  rfl

theorem MoverSent.target (op : w.op ≠ 0x20) : q.window = w.window ∧ q.offset.toNat = (w.offset + w.row * w.remotePitch + w.pos) % 2 ^ 32 := by
  obtain ⟨window, offset⟩ := itemPacket_target s c op
  rw [hq.window, hq.offset, aim_keeps h.aim]
  dsimp only
  rw [window, offset, BitVec.toNat_ofNat]
  exact ⟨rfl, rfl⟩

theorem MoverSent.signal (op : w.op = 2 ∨ w.op = 5) : q.sigCnt = w.sigCnt ∧ q.sigInc = w.sigInc := by
  rw [hq.sigCnt, hq.sigInc, aim_keeps h.aim]
  exact itemPacket_signal s c op

theorem MoverSent.aimed (kind : w.kind = .write ∨ w.kind = .read ∨ w.kind = .signal) : Claims.aimed s c w.dest.toNat q := by
  have addressed : s.address c w.dest (s.itemPacket c w) = some p := by
    rw [← h.aim]
    unfold State.aim
    rcases kind with kind | kind | kind <;> rw [kind]
  exact hq.aimed (aimed_of_address (itemPacket_stamped s c w) (itemPacket_plain s c w).1 addressed)

theorem MoverSent.mcast (kind : w.kind = .mcast) : q.mc = true ∧ q.aux.toNat = w.group.toNat := by
  have marked : p = { s.itemPacket c w with mc := true, aux := w.group.setWidth 16 } := by
    have aim := h.aim
    unfold State.aim at aim
    rw [kind] at aim
    exact (Option.some.inj aim).symm
  rw [hq.mc, hq.aux, marked]
  refine ⟨rfl, ?_⟩
  have := w.group.isLt
  exact (BitVec.toNat_setWidth 16 w.group).trans (Nat.mod_eq_of_lt (by omega))

omit hq

theorem MoverSent.goes_on (more : w.last = false) : ∃ r v, (s.core c).mov.work = w :: r ∧ (t.core c).mov.work = v :: r ∧ v.seq = w.seq + 1
    ∧ (v.row, v.pos) = (if w.pos + w.size < w.rowBytes then (w.row, w.pos + w.size) else (w.row + 1, 0)) ∧ v.desc = w.desc := by
  have work := h.launched.work
  rw [if_neg (by simp [more])] at work
  refine ⟨rest, w.step, h.work, work, ?_⟩
  have size : ({ w with seq := w.seq + 1 } : NetItem).size = w.size := rfl
  unfold NetItem.step
  dsimp only
  rw [size]
  split <;> exact ⟨rfl, rfl, rfl⟩

theorem MoverSent.is_done (last : w.last = true) : (t.core c).mov.work = (s.core c).mov.work.tail := by
  rw [h.launched.work, if_pos last, h.work]
  rfl

end

/-! ### A row block over the die NoC, or to the successor's window (R122, R123) -/

section

variable {e : EngId} {g : GroupId} {b : Nat} {d : Desc}

theorem groupBase_lt (c : CoreId) (e : EngId) (g : GroupId) (hb : b < 16) :
    0x0100000000 ≤ groupBase c e g + 512 * b ∧ groupBase c e g + 512 * b < 2 * 0x0100000000 := by
  have := c.isLt
  have := e.isLt
  have := g.isLt
  unfold groupBase lanternBase coreBase
  omega

theorem nearPacket_carries (s : State) (c : CoreId) (e : EngId) (g : GroupId) (b : Nat) (d : Desc) : (s.nearPacket c e g b d).op = 6
    ∧ (s.nearPacket c e g b d).len = 32 ∧ (s.nearPacket c e g b d).seq = BitVec.ofNat 16 b ∧ (s.nearPacket c e g b d).pkey = (s.core c).owner.getD 0
    ∧ (s.nearPacket c e g b d).payload = bytesOf (s.blockData c e g b)
    ∧ (s.nearPacket c e g b d).offset = BitVec.ofNat 32 (groupBase (Fin.ofNat 16 (aDest d % 16)) (aDestEng d) (aDestGrp d) + 512 * b) := by
  unfold State.nearPacket carrying State.blockPacket
  exact ⟨rfl, rfl, rfl, rfl, rfl, rfl⟩

theorem near_address (hb : b < 16) (s : State) (c : CoreId) (e : EngId) (g : GroupId) (d : Desc) :
    0x0100000000 + (s.nearPacket c e g b d).offset.toNat
      = groupBase (Fin.ofNat 16 (dBits d 36 0 4)) (Fin.ofNat 4 (dBits d 39 0 2)) (Fin.ofNat 8 (dBits d 39 2 3)) + 512 * b := by
  obtain ⟨-, -, -, -, -, offset⟩ := nearPacket_carries s c e g b d
  have core : aDest d % 16 = dBits d 36 0 4 := by
    unfold aDest dBytes dBits field
    exact Nat.mod_mod_of_dvd _ (by decide)
  have range := groupBase_lt (Fin.ofNat 16 (dBits d 36 0 4)) (aDestEng d) (aDestGrp d) hb
  rw [offset, core, BitVec.toNat_ofNat]
  change _ = groupBase (Fin.ofNat 16 (dBits d 36 0 4)) (aDestEng d) (aDestGrp d) + 512 * b
  omega

theorem group_inject (t : State) (c : CoreId) (tag : Nat) (p : Packet) (loc : Nat) (spec : Bool) (desc off : Nat) :
    (t.inject c tag p loc spec desc off).group c e g = t.group c e g := by
  have eng : ((t.inject c tag p loc spec desc off).core c).eng = (t.core c).eng := (congrArg Core.eng (State.core_modCore t c _)).trans rfl
  rw [State.group, State.eng, eng]
  rfl

/-- Row block `b` has gone out over the die NoC. -/
theorem block_near (wf : s.mem.wf = true) (hb : b < 16) (d : Desc) :
    let t := (s.blockSent c e g b).modSpire fun x => { x with nocQ := x.nocQ ++ [s.nearPacket c e g b d] }
    t.spire.nocQ = s.spire.nocQ ++ [s.nearPacket c e g b d] ∧ BlockIn s t c e g b (s.nearPacket c e g b d)
      ∧ (t.core c).outst = (s.core c).outst := by
  have ready := s.blockSent_readied c e g b
  obtain ⟨op, len, seq, -, payload, -⟩ := nearPacket_carries s c e g b d
  refine ⟨?_, blockIn_of_sent wf hb op len seq payload rfl ready.bytes, ready.outst⟩
  rw [State.modSpire_spire, show (s.blockSent c e g b).spire = s.spire by rw [ready.die]]

/-- Row block `b` has been injected for the successor's window. -/
theorem block_far (wf : s.mem.wf = true) (hb : b < 16) {p : Packet} {tag : Nat}
    (aim : s.address c (BitVec.ofNat 16 (aDest d)) { s.blockPacket c e b with
      window := BitVec.ofNat 8 (aWindow d), offset := BitVec.ofNat 32 (aOffset d + 512 * b) } = some p) (free : TagFree s c tag) (id off : Nat) :
    let t := (s.blockSent c e g b).inject c tag (carrying p (s.blockData c e g b)) 0 false id off
    ∃ q, Injected s t c e.val q ∧ BlockIn s t c e g b q ∧ q.window.toNat = dBytes d 38 1 ∧ q.offset.toNat = (dBytes d 40 4 + 512 * b) % 2 ^ 32
      ∧ aimed s c (dBytes d 36 2) q := by
  obtain ⟨vc, pkey, srcDie, srcCore, srcUnit, epoch, hops⟩ := s.request_stamped c (by have := e.isLt; omega : e.val < 16) 6
  have stamped : Stamped s c e.val p := by
    rw [address_keeps aim]
    exact ⟨vc, pkey, srcDie, srcCore, srcUnit, epoch, hops⟩
  have header : p.op = 6 ∧ p.len = 32 ∧ p.seq = BitVec.ofNat 16 b ∧ p.window = BitVec.ofNat 8 (aWindow d)
      ∧ p.offset = BitVec.ofNat 32 (aOffset d + 512 * b) := by
    rw [address_keeps aim]
    exact ⟨rfl, rfl, rfl, rfl, rfl⟩
  obtain ⟨op, len, seq, window, offset⟩ := header
  have carries := carries_carrying p (s.blockData c e g b) (BitVec.ofNat 12 tag)
  have injected := (s.blockSent_readied c e g b).injected (stamped.with_data (s.blockData c e g b)) free 0 false id off
  refine ⟨_, injected, blockIn_of_sent wf hb (carries.op.trans op) (carries.len.trans len) (carries.seq.trans seq) carries.payload
    (group_inject _ c _ _ _ _ _ _) injected.bytes, ?_, ?_, ?_⟩
  · rw [carries.window, window, BitVec.toNat_ofNat]
    exact Nat.mod_eq_of_lt (field_lt _ _ _)
  · rw [carries.offset, offset, BitVec.toNat_ofNat]
    rfl
  · have dest : (BitVec.ofNat 16 (aDest d)).toNat = dBytes d 36 2 := Nat.mod_eq_of_lt (field_lt _ _ _)
    rw [← dest]
    refine carries.aimed (aimed_of_address (unit := e.val) (p₀ := _) ?_ rfl aim)
    exact ⟨vc, pkey, srcDie, srcCore, srcUnit, epoch, hops⟩

end

/-! ### Campanile's READs (R410) -/

/-- The READ of a work item of Campanile. -/
def State.campRead (s : State) (w : NetItem) : Packet :=
  { Packet.blank with
    opcode := 3, epoch := s.spire.cur
    pkey := match w.kind with
      | .mirror k => k
      | _ => 0
    destDie := BitVec.ofNat 6 (field w.dest.toNat 4 6), destUnit := 7, srcDie := s.dieId, srcUnit := 8, window := w.window
    len := BitVec.ofNat 6 (w.size / 16), offset := BitVec.ofNat 32 (w.offset + w.pos), seq := BitVec.ofNat 16 w.seq, tag := BitVec.ofNat 12 w.seq }

theorem campanile_sends {w : NetItem} {rest : List NetItem} (powered : s.powered = true) (up : s.dstate = .up) (alive : s.fatal = false)
    (room : s.localRoom .req = true) (entries : s.outstanding < 4096) (work : s.blf.campWork = w :: rest) :
    ∃ t, exec (.packetInjection .campanile) s = .next t ∧ localBuf t .req = localBuf s .req ++ [s.campRead w]
      ∧ t.blf.campOut.length = s.blf.campOut.length + 1 ∧ t.mem = s.mem ∧ t.cores = s.cores := by
  have step : exec (.packetInjection .campanile) s = .next s.sendCampanile := by
    change ev s (fun s => s.sendCampanile) = _
    exact ev_powered s _ powered
  obtain ⟨o, sends⟩ : ∃ o, s.sendCampanile
      = (s.modBlf fun b => { b with campWork := if w.last then rest else w.step :: rest, campOut := b.campOut ++ [o] }).enterAt .loc (s.campRead w) := by
    unfold State.sendCampanile State.campRead
    rw [work]
    dsimp only
    rw [if_neg (by simp [State.spireOn, up, alive, room]; omega)]
    exact ⟨_, rfl⟩
  rw [sends] at step
  refine ⟨_, step, ?_, ?_, rfl, rfl⟩
  · exact State.enterAt_buf _ .loc (s.campRead w)
  · exact List.length_append

end Sys2Proof.Machine

open Sys2Proof Sys2Proof.Machine Sys2Proof.Claims

/-- Settles O25: the mover's packets by `moverSends_sent`, row blocks by `block_near` and `block_far`, Campanile's READs by `campanile_sends`. -/
theorem packetsAreInjectedInOrder : Obligations.PacketsAreInjectedInOrder := by
  intro s c wf
  refine ⟨?_, ?_, ?_, ?_⟩
  · intro w sends n last at_ src granted
    obtain ⟨t, rest, p, tag, data, step, sent⟩ := moverSends_sent wf sends fun op => granted (NetItem.kind_of_data op)
    have hq := carries_carrying p data (BitVec.ofNat 12 tag)
    obtain ⟨isRead, isSignal, isFence⟩ := w.op_of_kind
    have isLast : w.last = true ↔ w.kind = .signal ∨ w.kind = .fence ∨ last := w.last_iff
    have isData : w.kind = .write ∨ w.kind = .mcast → (w.op = 1 ∨ w.op = 2) ∧ w.op = if last ∧ w.signal = true then 2 else 1 := fun kind => by
      have plain : w.last = true ↔ last := by rcases kind with kind | kind <;> simp [isLast, kind]
      have op := NetItem.op_data kind
      simp only [plain] at op
      refine ⟨?_, op⟩
      rw [op]
      split
      · exact .inr rfl
      · exact .inl rfl
    refine ⟨t, _, step, sent.launched.injected, sent.seq hq, sent.spec hq, fun kind => ?_, fun kind => ?_, fun kind => ?_, fun kind => ?_, fun kind => ?_,
      fun kind => sent.aimed hq kind, fun kind => sent.mcast hq kind, fun kind more => ?_, fun kind => sent.is_done (isLast.mpr kind), sent.launched.dests⟩
    · obtain ⟨op, value⟩ := isData kind
      obtain ⟨length, bytes⟩ := sent.payload hq op
      exact ⟨(sent.op hq).trans value, sent.len hq (op.imp_right .inl), length, bytes⟩
    · exact ⟨(sent.op hq).trans (isRead kind), sent.len hq (.inr (.inr (isRead kind))), sent.no_payload hq (by simp [isRead kind])⟩
    · obtain ⟨sigCnt, sigInc⟩ := sent.signal hq (.inr (isSignal kind))
      exact ⟨(sent.op hq).trans (isSignal kind), sent.no_payload hq (by simp [isSignal kind]), sigCnt, sigInc⟩
    · exact ⟨(sent.op hq).trans (isFence kind), sent.no_payload hq (by simp [isFence kind])⟩
    · refine sent.target hq ?_
      rcases kind with kind | kind | kind
      · rcases (isData (.inl kind)).1 with op | op <;> simp [op]
      · simp [isRead kind]
      · rcases (isData (.inr kind)).1 with op | op <;> simp [op]
    · refine sent.goes_on (Bool.eq_false_iff.mpr fun yes => ?_)
      rcases isLast.mp yes with signal | fence | yes
      · simp [signal] at kind
      · simp [fence] at kind
      · exact more yes
  · intro w r p work powered live running aim full
    rw [exec_packetInjection_mover c powered, sendMover_waits work aim full]
  · intro e g b a powered live running up desc d sent far near may
    have block : b < 16 → (dBits d 10 5 1 = 1 → near (s.sendBlock c e g b)) ∧ (may → far (s.sendBlock c e g b)) := fun hb => by
      refine ⟨fun isNear => ?_, fun ⟨tagFrom, ⟨tag, free⟩, isFar, p, aim, room⟩ => ?_⟩
      · obtain ⟨queued, inside, outst⟩ := block_near (c := c) (e := e) (g := g) wf hb d
        rw [sendBlock_near live running up desc (by simpa [aLocal] using isNear)]
        obtain ⟨-, -, -, pkey, -, -⟩ := nearPacket_carries s c e g b d
        exact ⟨_, queued, ⟨inside.op, inside.len, inside.seq, inside.length, inside.bytes, inside.sent, inside.resend, inside.state, inside.same⟩, pkey, outst,
          near_address hb s c e g d⟩
      · rw [sendBlock_far live running up desc (by rw [aLocal, show dBits a.entry.bits 10 5 1 = 0 from isFar]; rfl) aim free room]
        obtain ⟨q, injected, inside, window, offset, goes⟩ := block_far wf hb aim (tagFree_of_freeTag free tagFrom) a.entry.id a.entry.off
        exact ⟨q, injected, ⟨inside.op, inside.len, inside.seq, inside.length, inside.bytes, inside.sent, inside.resend, inside.state, inside.same⟩, window, offset,
          goes⟩
    refine ⟨fun hb next => ?_, fun hb closing going again => ?_⟩
    · have step : exec (.packetInjection (.unit c (.eng e))) s = .next (s.sendBlock c e g b) := by
        change ev s (fun s => s.sendChain c e) = _
        rw [ev_powered s _ powered, State.sendChain, next]
      exact ⟨fun isNear => ⟨_, step, (block hb).1 isNear⟩, fun isFar => ⟨_, step, (block hb).2 isFar⟩⟩
    · have step : exec (.accChainResend c e g ⟨b, hb⟩) s = .next (s.sendBlock c e g b) := by
        change ev s (fun s => s.resendBlock c e g b) = _
        rw [ev_powered s _ powered, State.resendBlock, if_pos (by rw [bitOf_toNat]; simp [closing, going, again])]
      exact ⟨fun isNear => ⟨_, step, (block hb).1 isNear⟩, fun isFar => ⟨_, step, (block hb).2 isFar⟩⟩
  · intro w r powered up alive room entries work
    obtain ⟨t, step, buffer, out, mem, cores⟩ := campanile_sends powered up alive room entries work
    refine ⟨t, _, step, buffer, rfl, rfl, rfl, ?_, out, mem, cores⟩
    exact BitVec.toNat_ofNat _ _

end

/-! ## Accumulation groups: the ACC operations in their engine (R113 to R124) -/

section

namespace Sys2Proof.Machine

open Sys2Proof.Claims

variable {s t r : State} {c : CoreId} {e : EngId} {a : Active}

/-! ### The ACC that starts (R118, R171) -/

theorem isKind_acc (d : Desc) : isKind .acc d = decide (dType d = 3) := by
  by_cases h : dType d = 3
  · simp [isKind, dKind, h, kindOf]
  · have : kindOf (dType d) ≠ some .acc := by
      unfold kindOf
      split <;> simp_all
    simp [isKind, dKind, h, this]

theorem isKind_stream (d : Desc) : isKind .stream d = decide (dType d = 2) := by
  by_cases h : dType d = 2
  · simp [isKind, dKind, h, kindOf]
  · have : kindOf (dType d) ≠ some .stream := by
      unfold kindOf
      split <;> simp_all
    simp [isKind, dKind, h, this]

/-- An earlier started descriptor neither is a candidate nor holds `a` back. -/
def Passed (e : EngId) (op : Nat) (a b : Active) : Prop :=
  ¬ (dType b.entry.bits = 3 ∧ dBits b.entry.bits 8 0 4 = op ∧ b.progress = .started)
    ∧ (b.progress = .done ∨ b.null = true ∨ ((names b.entry.bits (aGroup a.entry.bits) = false ∨ (op = 7 ∧ dType b.entry.bits = 3))
      ∧ accObserves e a.entry.bits b.entry.bits = false))

theorem Passed.free {op : Nat} {b : Active} (h : Passed e op a b) : (b.progress != .done && !b.null &&
    ((isKind .stream b.entry.bits && sGroup b.entry.bits == aGroup a.entry.bits)
      || (op != 7 && isKind .acc b.entry.bits && aGroup b.entry.bits == aGroup a.entry.bits) || accObserves e a.entry.bits b.entry.bits)) = false := by
  obtain ⟨-, done | null | ⟨other, unobserved⟩⟩ := h
  · simp [done]
  · simp [null]
  · rw [unobserved, isKind_stream, isKind_acc]
    rcases other with unnamed | ⟨rfl, acc⟩
    · simp only [names, Bool.or_eq_false_iff, Bool.and_eq_false_iff, beq_eq_false_iff_ne] at unnamed
      obtain ⟨stream, acc⟩ := unnamed
      rcases stream with stream | stream <;> rcases acc with acc | acc <;> simp [stream, acc]
    · simp [acc]

theorem readyAcc_finds {op : Nat} (type : dType a.entry.bits = 3) (hop : dBits a.entry.bits 8 0 4 = op) (started : a.progress = .started)
    {before after seen : List Active} (passed : ∀ b ∈ seen ++ before, Passed e op a b) : readyAcc e op seen (before ++ a :: after) = some a := by
  induction before generalizing seen with
  | nil =>
    have free : ∀ b ∈ seen, _ := fun b hb => (passed b (List.mem_append_left _ hb)).free
    have kind : isKind .acc a.entry.bits = true := by rw [isKind_acc, decide_eq_true type]
    have named : aOp a.entry.bits = op := hop
    rw [List.nil_append, readyAcc, if_pos]
    simp only [kind, named, started, beq_self_eq_true, Bool.true_and, Bool.not_eq_true', List.any_eq_false, Bool.not_eq_true]
    exact free
  | cons b before ih =>
    obtain ⟨other, -⟩ := passed b (by simp)
    rw [List.cons_append, readyAcc, if_neg]
    · exact ih fun x hx => passed x (by simpa using hx)
    · simp only [Bool.and_eq_true, isKind_acc, decide_eq_true_eq, beq_iff_eq]
      exact fun ⟨⟨⟨type, hop⟩, started⟩, _⟩ => other ⟨type, hop, started⟩

theorem readyAcc_of_accReady {op : Nat} (h : AccReady s c e op a) : readyAcc e op [] (s.eng c e).q.active = some a := by
  obtain ⟨-, -, -, type, hop, started, before, after, active, passed⟩ := h
  rw [active]
  exact readyAcc_finds type hop started passed

/-- An ACC in a group whose state it needs is performed. -/
theorem performAcc_legal {op : Nat} (h : AccReady s c e op a) {legal : GState → Bool} (state : legal (s.group c e (aGroup a.entry.bits)).state = true)
    (f : State → Active → State) : s.performAcc c e op legal f = f s a := by
  have ready := readyAcc_of_accReady h
  obtain ⟨-, live, running, -⟩ := h
  unfold State.performAcc
  dsimp only
  rw [if_neg (by simp [live, running]), ready]
  exact if_pos state

/-- The die with the descriptor of `a` ended failed. -/
def State.accFailed (s : State) (c : CoreId) (e : EngId) (a : Active) : State := s.setProgress c (.eng e) a.entry.id .failed

/-- An ACC in a group in another state is refused (R117). -/
theorem performAcc_illegal {op : Nat} (h : AccReady s c e op a) {legal : GState → Bool} (state : legal (s.group c e (aGroup a.entry.bits)).state = false)
    (f : State → Active → State) : s.performAcc c e op legal f = (s.accFailed c e a).refuse c (.eng e) a.entry.off := by
  have ready := readyAcc_of_accReady h
  obtain ⟨-, live, running, -⟩ := h
  unfold State.performAcc
  dsimp only
  rw [if_neg (by simp [live, running]), ready]
  exact if_neg (by simp [state])

/-! ### What an ACC operation leaves alone -/

/-- Besides group `g` and the flags of engine `e`, the SRAM and the Belfry nothing differs. -/
structure AccFrame (s t : State) (c : CoreId) (e : EngId) (g : GroupId) : Prop where
  engine : t.eng c e = { s.eng c e with groups := (t.eng c e).groups, flags := (t.eng c e).flags }
  core : t.core c = { s.core c with eng := (t.core c).eng }
  engines : ∀ f, f ≠ e → t.eng c f = s.eng c f
  groups : ∀ h, h ≠ g → t.group c e h = s.group c e h
  others : SameCores s t c
  die : SameDie s t

variable {g : GroupId}

theorem AccFrame.trans (h : AccFrame s t c e g) (h' : AccFrame t r c e g) : AccFrame s r c e g where
  engine := by rw [h'.engine, h.engine]
  core := by rw [h'.core, h.core]
  engines f hf := (h'.engines f hf).trans (h.engines f hf)
  groups x hx := (h'.groups x hx).trans (h.groups x hx)
  others d hd := (h'.others d hd).trans (h.others d hd)
  die := by
    have first := h.die
    have second := h'.die
    unfold SameDie at first second ⊢
    rw [second, first]

/-- The SRAM and the Belfry alone differ. -/
theorem accFrame_of_die (die : t = { s with mem := t.mem, blf := t.blf }) : AccFrame s t c e g where
  engine := by rw [die]; rfl
  core := by rw [die]; rfl
  engines _ _ := by rw [die]; rfl
  groups _ _ := by rw [die]; rfl
  others _ _ := by rw [die]; rfl
  die := by
    unfold SameDie
    rw [die]

theorem State.modEng_accFrame (s : State) {f : Engine → Engine} (h : f (s.eng c e) = { s.eng c e with groups := (f (s.eng c e)).groups, flags := (f (s.eng c e)).flags })
    (groups : ∀ x, x ≠ g → (f (s.eng c e)).groups[x] = (s.eng c e).groups[x]) : AccFrame s (s.modEng c e f) c e g where
  engine := by rw [State.eng_modEng]; exact h
  core := by rw [State.core_modEng]
  engines x hx := s.eng_modEng_other c e x f hx
  groups x hx := by rw [State.group, State.eng_modEng]; exact groups x hx
  others d hd := s.core_modCore_other c d _ hd
  die := rfl

theorem State.modGroup_accFrame (s : State) (c : CoreId) (e : EngId) (g : GroupId) (f : Group → Group) : AccFrame s (s.modGroup c e g f) c e g :=
  s.modEng_accFrame (f := fun x => { x with groups := upd x.groups g f }) rfl fun _ hx => upd_other _ _ _ _ hx

theorem State.engFlags_accFrame (s : State) (c : CoreId) (e : EngId) (g : GroupId) (f : Flags) : AccFrame s (s.engFlags c e f) c e g :=
  s.modEng_accFrame (f := fun x => { x with flags := x.flags ||| f }) rfl fun _ _ => rfl

/-- The descriptor of `a` goes to progress `p`. -/
theorem AccFrame.went (h : AccFrame s t c e (aGroup a.entry.bits)) (p : Progress) :
    AccDone s (t.setProgress c (.eng e) a.entry.id p) c e a p := by
  have engine : (t.setProgress c (.eng e) a.entry.id p).eng c e = { t.eng c e with q := (t.eng c e).q.modActive a.entry.id fun x => { x with progress := p } } :=
    t.eng_modEng c e _
  have same : (t.eng c e).q = (s.eng c e).q := by rw [h.engine]
  exact {
    active := by rw [engine, same]; rfl
    engine := by
      rw [engine, h.engine]
      rfl
    core := by
      rw [State.setProgress, State.modQ, State.core_modEng, h.core]
    engines := fun f hf => (t.eng_modEng_other c e f _ hf).trans (h.engines f hf)
    groups := fun x hx => (t.group_modQ c e x _).trans (h.groups x hx)
    others := fun d hd => (t.core_modCore_other c d _ hd).trans (h.others d hd)
    die := by
      have before := h.die
      unfold SameDie at before ⊢
      rw [State.setProgress, State.modQ, State.modEng, State.modCore]
      dsimp only
      rw [before] }

theorem setProgress_keeps (t : State) (c : CoreId) (e : EngId) (id : Nat) (p : Progress) : (t.setProgress c (.eng e) id p).mem = t.mem
    ∧ (t.setProgress c (.eng e) id p).blf = t.blf ∧ ((t.setProgress c (.eng e) id p).eng c e).flags = (t.eng c e).flags
    ∧ ∀ g, (t.setProgress c (.eng e) id p).group c e g = t.group c e g := by
  refine ⟨rfl, rfl, ?_, fun g => t.group_modQ c e g _⟩
  rw [State.setProgress, State.modQ, State.eng_modEng]

theorem opened_openAt (x : Group) (seeded : Bool) : OpenAt (x.opened seeded) (b2n seeded) := by
  refine ⟨rfl, ?_, rfl, rfl, rfl, rfl, fun b => ?_⟩
  · cases seeded <;> rfl
  · simp [Group.opened]

end Sys2Proof.Machine

end

section

namespace Sys2Proof.Machine

open Sys2Proof.Claims

variable {s t r : State} {c : CoreId} {e : EngId} {a : Active}

/-! ### Numbers laid one after another -/

theorem getD_flatMap_range {f : Nat → List Byte} {m n k i : Nat} (hf : ∀ i, (f i).length = m) (hk : k < n) (hi : i < m) :
    ((List.range n).flatMap f).getD (m * k + i) 0 = (f k).getD i 0 := by
  rw [← drop_take_flatMap hf hk, List.getD_eq_getElem?_getD, List.getD_eq_getElem?_getD, List.getElem?_take_of_lt hi, List.getElem?_drop]

theorem getD_map_range {f : Nat → Byte} {n i : Nat} (hi : i < n) : ((List.range n).map f).getD i 0 = f i := by
  rw [List.getD_eq_getElem _ _ (by simpa using hi), List.getElem_map, List.getElem_range]

theorem numberAt_of_bytes {x size v : Nat} (h : ∀ k, k < size → t.mem.byteAt (x + k) = (leBytes v size).getD k 0) : numberAt t x size = v % 256 ^ size := by
  have bytes : (List.range size).map (fun b => t.mem.byteAt (x + b)) = leBytes v size := by
    apply List.ext_getElem
    · simp
    · intro k hk hk'
      rw [length_leBytes] at hk'
      rw [List.getElem_map, List.getElem_range, h k hk', List.getD_eq_getElem]
  rw [numberAt, bytes, leNat_leBytes]

theorem numberAt_lt (x size : Nat) : numberAt s x size < 256 ^ size := by
  have := leNat_lt ((List.range size).map fun b => s.mem.byteAt (x + b))
  rwa [List.length_map, List.length_range] at this

theorem cupNum_lt (off size : Nat) : cupNum s c off size < 256 ^ size := by
  have := leNat_lt ((List.range size).map fun b => cupByte s c (off + b))
  rwa [List.length_map, List.length_range, ← cupNum_eq] at this

/-- The bytes of row `V` of numbers of `size` bytes each. -/
def spelled (size n : Nat) (V : Nat → Nat) : List Byte := (List.range n).flatMap fun j => leBytes (V j) size

theorem length_spelled (size n : Nat) (V : Nat → Nat) : (spelled size n V).length = size * n := by
  rw [spelled, length_flatMap_const (m := size) fun _ _ => length_leBytes _ _, List.length_range, Nat.mul_comm]

/-- Where the bytes of a row of numbers stand, its numbers stand. -/
theorem numberAt_spelled {size n j x : Nat} {V : Nat → Nat} (hj : j < n) (fits : V j < 256 ^ size)
    (h : ∀ k, k < size → t.mem.byteAt (x + (size * j + k)) = (spelled size n V).getD (size * j + k) 0) : numberAt t (x + size * j) size = V j := by
  rw [numberAt_of_bytes (v := V j) fun k hk => ?_, Nat.mod_eq_of_lt fits]
  rw [Nat.add_assoc, h k hk]
  exact getD_flatMap_range (fun _ => length_leBytes _ _) hj hk

@[simp] theorem length_elements (size count : Nat) (bs : Marked) : (elements size count bs).length = count := by simp [elements, chunksOf_eq]

/-! ### Rows stored one after another -/

/-- The SRAM and the Belfry alone differ after both of two such changes. -/
theorem die_trans (h : t = { s with mem := t.mem, blf := t.blf }) (h' : r = { t with mem := r.mem, blf := r.blf }) :
    r = { s with mem := r.mem, blf := r.blf } := by rw [h', h]

theorem Stored.append {x : Nat} {bs bs' : List Byte} (h : Stored s t x bs) (h' : Stored t r (x + bs.length) bs') : Stored s r x (bs ++ bs') where
  die := by rw [h'.die, h.die]
  wf := h'.wf
  byteAt b := by
    rw [h'.byteAt, h.byteAt, List.length_append]
    by_cases first : x ≤ b ∧ b < x + bs.length
    · rw [if_neg (by omega), if_pos first, if_pos (by omega), List.getD_append _ _ _ _ (by omega)]
    · rw [if_neg first]
      by_cases second : x + bs.length ≤ b ∧ b < x + bs.length + bs'.length
      · rw [if_pos second, if_pos (by omega), List.getD_append_right _ _ _ _ (by omega), Nat.sub_sub]
      · rw [if_neg second, if_neg (by omega)]

theorem storeRows_stored (wf : s.mem.wf = true) (x : Nat) {f : Marked → Marked} {n : Nat} (hf : ∀ row, (f row).length = n) (rows : List Marked) :
    Stored s (rows.zipIdx.foldl (fun s row => s.storeP (x + row.2 * n) (f row.1)) s) x (rows.flatMap fun row => bytesOf (f row)) := by
  induction rows using List.reverseRecOn with
  | nil => exact ⟨rfl, wf, fun b => (if_neg (by simp)).symm⟩
  | append_singleton rows row ih =>
    have length : (rows.flatMap fun row => bytesOf (f row)).length = rows.length * n := length_flatMap_const fun y _ => by rw [bytesOf_length, hf]
    have next := State.storeP_stored ih.wf (x + (rows.flatMap fun row => bytesOf (f row)).length) (f row)
    have both := ih.append next
    rw [length] at both
    rw [List.zipIdx_append, List.foldl_append, List.flatMap_append]
    simpa using both

/-! ### The performed row -/

/-- An ACC in a group whose state it needs acts. -/
theorem accRow_acts {op : Nat} (h : AccReady s c e op a) {legal : GState → Bool} (state : legal (s.group c e (aGroup a.entry.bits)).state = true)
    (f : State → CoreId → EngId → Active → State) : ev s (fun s => s.accRow c (.perform e) op legal f) = .next (f s c e a) := by
  rw [ev_powered s _ h.1]
  exact congrArg _ (performAcc_legal h state fun s a => f s c e a)

section

variable (wf : s.mem.wf = true)

/-! ### OPEN_ZERO and OPEN_GROUP (R116) -/

theorem openZero_opens (s : State) (c : CoreId) (e : EngId) (a : Active) : let t := s.openZero c e a
    let base := groupBase c e (aGroup a.entry.bits)
    AccDone s t c e a .done ∧ OpenAt (t.group c e (aGroup a.entry.bits)) 0 ∧ SameBytesBut s t base 0x2000
      ∧ (∀ b, base ≤ b → b < base + 0x2000 → t.mem.byteAt b = 0) ∧ t.blf = s.blf ∧ (t.eng c e).flags = (s.eng c e).flags := by
  intro t base
  have zeroed : AccFrame s (s.zeroGroup c e (aGroup a.entry.bits)) c e (aGroup a.entry.bits) := accFrame_of_die rfl
  have opened := zeroed.trans (State.modGroup_accFrame _ c e (aGroup a.entry.bits) fun x => x.opened false)
  obtain ⟨mem, blf, flags, group⟩ := setProgress_keeps ((s.zeroGroup c e (aGroup a.entry.bits)).modGroup c e (aGroup a.entry.bits) fun x => x.opened false)
    c e a.entry.id .done
  have bytes : ∀ b, t.mem.byteAt b = if base ≤ b ∧ b < base + 0x2000 then 0 else s.mem.byteAt b := fun b => Memory.byteAt_cleared _ _ _ b
  refine ⟨opened.went .done, ?_, fun b hb => ?_, fun b low high => ?_, rfl, ?_⟩
  · rw [show t.group c e _ = _ from group _, State.group_modGroup]
    exact opened_openAt _ false
  · rw [bytes, if_neg (by omega)]
  · rw [bytes, if_pos ⟨low, high⟩]
  · rw [show (t.eng c e).flags = _ from flags, State.modGroup, State.eng_modEng]
    rfl

/-- A group whose bytes have been stored opens seeded. -/
theorem opened_after {data : List Byte} {x : State} (stored : AccFrame s t c e (aGroup a.entry.bits)) (die : t = { s with mem := t.mem, blf := t.blf })
    (hx : x = (t.modGroup c e (aGroup a.entry.bits) fun x => x.opened true).setProgress c (.eng e) a.entry.id .done)
    (bytes : ∀ b, t.mem.byteAt b = if groupBase c e (aGroup a.entry.bits) ≤ b ∧ b < groupBase c e (aGroup a.entry.bits) + data.length
      then data.getD (b - groupBase c e (aGroup a.entry.bits)) 0 else s.mem.byteAt b) (length : data.length = 0x2000) :
    AccDone s x c e a .done ∧ OpenAt (x.group c e (aGroup a.entry.bits)) 1 ∧ SameBytesBut s x (groupBase c e (aGroup a.entry.bits)) 0x2000
      ∧ (x.eng c e).flags = (s.eng c e).flags ∧ ∀ b, b < 0x2000 → x.mem.byteAt (groupBase c e (aGroup a.entry.bits) + b) = data.getD b 0 := by
  have opened := stored.trans (State.modGroup_accFrame t c e (aGroup a.entry.bits) fun x => x.opened true)
  obtain ⟨mem, blf, flags, group⟩ := setProgress_keeps (t.modGroup c e (aGroup a.entry.bits) fun x => x.opened true) c e a.entry.id .done
  rw [← hx] at mem blf flags group
  refine ⟨hx ▸ opened.went .done, ?_, fun b hb => ?_, ?_, fun b hb => ?_⟩
  · rw [group, State.group_modGroup]
    exact opened_openAt _ true
  · rw [mem, State.modGroup_mem, bytes, if_neg (by omega)]
  · rw [flags, State.modGroup, State.eng_modEng, die]
    rfl
  · rw [mem, State.modGroup_mem, bytes, if_pos (by omega), Nat.add_sub_cancel_left]

include wf in
theorem openGroup_opens (e : EngId) (a : Active) : let t := s.openGroup c e a
    let base := groupBase c e (aGroup a.entry.bits)
    AccDone s t c e a .done ∧ OpenAt (t.group c e (aGroup a.entry.bits)) 1 ∧ SameBytesBut s t base 0x2000 ∧ (t.eng c e).flags = (s.eng c e).flags
      ∧ ∀ b, b < 0x2000 → t.mem.byteAt (base + b) = s.mem.byteAt (groupBase c (aSrcEng a.entry.bits) (aSrcGrp a.entry.bits) + b) := by
  intro t base
  have read := s.readP_reads (groupBase c (aSrcEng a.entry.bits) (aSrcGrp a.entry.bits)) 0x2000
  have data := s.readP_bytes (groupBase c (aSrcEng a.entry.bits) (aSrcGrp a.entry.bits)) 0x2000
  have stored := State.storeP_stored (read.wf wf) base (s.readP (groupBase c (aSrcEng a.entry.bits) (aSrcGrp a.entry.bits)) 0x2000).2
  rw [data, Memory.load_eq _ wf] at stored
  have die := die_trans read.die stored.die
  obtain ⟨done, opened, frame, flags, bytes⟩ := opened_after (a := a) (accFrame_of_die die) die (rfl : t = _)
    (fun b => by rw [stored.byteAt, read.byteAt]) (by rw [List.length_map, List.length_range])
  refine ⟨done, opened, frame, flags, fun b hb => ?_⟩
  rw [bytes b hb, getD_map_range hb]

/-! ### OPEN_CUPOLA (R75, R116) -/

/-- The format an ACC names. -/
def aForm (d : Desc) : Fmt := (fmtOf (aFmt d)).getD .fp32

/-- The tile's rows in the Cupola. -/
def openRows (d : Desc) : List (Nat × Nat) := (List.range 64).map fun r => (aAddr d + r * aPitch d, 32 * (aForm d).size)

/-- A row of the tile widened. -/
def widened (d : Desc) (row : Marked) : Marked :=
  spell 4 ((elements (aForm d).size 32 row).map fun v => (widen32 (aForm d) v.1, v.2))

theorem length_widened (d : Desc) (row : Marked) : (widened d row).length = 128 := by simp [widened, length_spell]

theorem bytesOf_widened (d : Desc) (row : Marked) : bytesOf (widened d row) = spelled 4 32 fun j => widen32 (aForm d)
    (leNat (((bytesOf row).drop ((aForm d).size * j)).take (aForm d).size)) := by
  have values := elements_eq (aForm d).size 32 row
  rw [widened, bytesOf_spell, spelled, List.flatMap_map]
  dsimp only
  rw [← List.flatMap_map (f := fun x : Nat × Bool => x.1) (g := fun x => leBytes (widen32 (aForm d) x) 4), values, List.flatMap_map]

/-- The value the tile holds for the group's value (r, j). -/
def tileValue (s : State) (c : CoreId) (d : Desc) (r j : Nat) : Nat :=
  widen32 (aForm d) (cupNum s c (aAddr d + r * aPitch d + j * (aForm d).size) (aForm d).size)

/-- What OPEN_CUPOLA stores into its group. -/
def tileBytes (s : State) (c : CoreId) (d : Desc) : List Byte := (List.range 64).flatMap fun r => spelled 4 32 (tileValue s c d r)

include wf in
theorem openRows_widened (d : Desc) : ((s.readRows c (openRows d)).2.1.flatMap fun row => bytesOf (widened d row)) = tileBytes s c d := by
  unfold tileBytes
  have rows := s.readRows_bytes (c := c) wf (openRows d)
  simp only [bytesOf_widened]
  rw [← List.flatMap_map (f := bytesOf) (g := fun row => spelled 4 32 fun j => widen32 (aForm d)
    (leNat ((row.drop ((aForm d).size * j)).take (aForm d).size))), rows, openRows, List.map_map, List.flatMap_map]
  refine List.flatMap_congr fun r _ => ?_
  refine List.flatMap_congr fun j hj => ?_
  rw [List.mem_range] at hj
  dsimp only [Function.comp]
  rw [map_range_drop_take _ (by nlinarith), tileValue, cupNum_eq]
  simp only [Nat.add_assoc, Nat.mul_comm]

end

end Sys2Proof.Machine

end

/-! ## Accumulation groups: those that open from Cupola, wait or close (R116, R122, R123) -/

section

namespace Sys2Proof.Machine

open Sys2Proof.Claims

variable {s t : State} {c : CoreId} {e : EngId} {a : Active}

theorem esize_aForm {d : Desc} (h : aFmt d ≤ 3) : esize (dBits d 9 0 4) = (aForm d).size := by
  have : ∀ k, k ≤ 3 → esize k = ((fmtOf k).getD .fp32).size := by decide
  exact this _ h

theorem aForm_ne_bf16 {d : Desc} (h : aFmt d ≤ 3) : aForm d ≠ .bf16 := by
  have : ∀ k, k ≤ 3 → (fmtOf k).getD .fp32 ≠ .bf16 := by decide
  exact this _ h

/-- The Belfry alone differs. -/
theorem die_of_blf (h : t = { s with blf := t.blf }) : t = { s with mem := t.mem, blf := t.blf } := by rw [h]

/-! ### OPEN_CUPOLA (R75, R116) -/

theorem tileValue_lt {d : Desc} (h : aFmt d ≤ 3) (r j : Nat) : tileValue s c d r j < 256 ^ 4 := by
  have form := aForm_ne_bf16 h
  unfold tileValue
  by_cases wide : aForm d = .fp32
  · rw [wide]
    exact cupNum_lt _ 4
  · exact widen32_lt wide fun h => absurd h form

theorem length_tileBytes (d : Desc) : (tileBytes s c d).length = 0x2000 := by
  rw [tileBytes, length_flatMap_const (m := 128) fun _ _ => length_spelled _ _ _, List.length_range]

/-- A group that holds the tile's bytes holds its values. -/
theorem groupNum_tile {d : Desc} (h : aFmt d ≤ 3) {g : GroupId} (bytes : ∀ b, b < 0x2000 → t.mem.byteAt (groupBase c e g + b) = (tileBytes s c d).getD b 0)
    {r j : Nat} (hr : r < 64) (hj : j < 32) : groupNum t c e g r j = tileValue s c d r j := by
  rw [groupNum]
  refine numberAt_spelled hj (tileValue_lt h r j) fun k hk => ?_
  rw [Nat.add_assoc, bytes _ (by omega), tileBytes, Nat.mul_comm r 128, getD_flatMap_range (fun _ => length_spelled _ _ _) hr (by omega)]

/-- The die with the tile in the group, before the group opens. -/
def State.tileStored (s : State) (c : CoreId) (e : EngId) (d : Desc) : State :=
  (s.readRows c (openRows d)).2.1.zipIdx.foldl (fun s row => s.storeP (groupBase c e (aGroup d) + row.2 * 128) (widened d row.1)) (s.readRows c (openRows d)).1

theorem openCupola_eq (s : State) (c : CoreId) (e : EngId) (a : Active) : s.openCupola c e a =
    (((s.tileStored c e a.entry.bits).logBounds c (.eng e) false (s.readRows c (openRows a.entry.bits)).2.2).modGroup c e (aGroup a.entry.bits)
      fun x => x.opened true).setProgress c (.eng e) a.entry.id .done := by
  unfold State.openCupola State.tileStored openRows aForm
  dsimp only
  generalize s.readRows c _ = r
  rfl

theorem openCupola_opens (wf : s.mem.wf = true) (form : aFmt a.entry.bits ≤ 3) : let t := s.openCupola c e a
    let d := a.entry.bits
    AccDone s t c e a .done ∧ OpenAt (t.group c e (aGroup d)) 1 ∧ SameBytesBut s t (groupBase c e (aGroup d)) 0x2000 ∧ (t.eng c e).flags = (s.eng c e).flags
      ∧ ∀ r j, r < 64 → j < 32 → groupNum t c e (aGroup d) r j = tileValue s c d r j := by
  intro t d
  have read : Reads s (s.readRows c (openRows d)).1 := State.readRows_reads (openRows d)
  have stored := storeRows_stored (read.wf wf) (groupBase c e (aGroup d)) (length_widened d) (s.readRows c (openRows d)).2.1
  rw [openRows_widened wf] at stored
  change Stored _ (s.tileStored c e d) _ _ at stored
  have logged := (s.tileStored c e d).logBounds_changes_blf c (.eng e) false (s.readRows c (openRows d)).2.2
  have mem := congrArg State.mem logged
  have die := die_trans (die_trans read.die stored.die) (die_of_blf logged)
  obtain ⟨done, opened, frame, flags, bytes⟩ := opened_after (a := a) (x := t) (accFrame_of_die die) die (openCupola_eq s c e a)
    (data := tileBytes s c d) (fun b => by rw [mem, stored.byteAt, read.byteAt]) (length_tileBytes d)
  exact ⟨done, opened, frame, flags, fun r j => groupNum_tile form bytes⟩

/-! ### OPEN_CHAIN, CLOSE_CHAIN and the start of a CLOSE (R122 to R124) -/

/-- Group `g` alone changes, and the descriptor of `a` goes to progress `p`. -/
structure GroupMoved (s t : State) (c : CoreId) (e : EngId) (a : Active) (p : Progress) (f : Group → Group) : Prop where
  went : AccDone s t c e a p
  mem : t.mem = s.mem
  blf : t.blf = s.blf
  flags : (t.eng c e).flags = (s.eng c e).flags
  group : t.group c e (aGroup a.entry.bits) = f (s.group c e (aGroup a.entry.bits))

theorem modGroup_moved (s : State) (c : CoreId) (e : EngId) (a : Active) (p : Progress) (f : Group → Group) :
    GroupMoved s ((s.modGroup c e (aGroup a.entry.bits) f).setProgress c (.eng e) a.entry.id p) c e a p f := by
  obtain ⟨mem, blf, flags, group⟩ := setProgress_keeps (s.modGroup c e (aGroup a.entry.bits) f) c e a.entry.id p
  refine ⟨(s.modGroup_accFrame c e _ f).went p, mem, blf, ?_, ?_⟩
  · rw [flags, State.modGroup, State.eng_modEng]
  · rw [group, State.group_modGroup]

/-! ### Refusals (R117) -/

/-- A refused ACC (R395). -/
structure AccRefused (s t : State) (c : CoreId) (e : EngId) (a : Active) : Prop where
  frozen : t.frozen c (.eng e) = some { cause := .refusal, discard := true, answer := none }
  code : (lastRecord t).code = 0x502
  cls : (lastRecord t).cls = .contained
  detail : (lastRecord t).detail = BitVec.ofNat 32 a.entry.off
  mem : t.mem = s.mem
  groups : (t.eng c e).groups = (s.eng c e).groups

theorem State.eng_modSeq (s : State) (c : CoreId) (e : EngId) (f : Sequencer → Sequencer) : (s.modSeq c f).eng c e = s.eng c e := by
  rw [State.eng, State.modSeq, State.core_modCore]
  rfl

theorem State.freezeUnit_groups (s : State) (c : CoreId) (e : EngId) (cause : FreezeCause) (discard : Bool) (off : Nat) :
    ((s.freezeUnit c (.eng e) cause discard (some off)).eng c e).groups = (s.eng c e).groups := by
  have frozen : ((s.modQ c (.eng e) fun q => { q with freeze := mergeFreeze q.freeze cause discard }).eng c e).groups = (s.eng c e).groups := by
    rw [State.modQ, State.eng_modEng]
  unfold State.freezeUnit
  dsimp only
  split
  · rw [State.eng_modSeq, frozen]
  · exact frozen

/-- An ACC in a group in another state is refused (R117). -/
theorem performAcc_refuses {op : Nat} (h : AccReady s c e op a) {legal : GState → Bool} (state : legal (s.group c e (aGroup a.entry.bits)).state = false)
    (f : State → Active → State) : AccRefused s (s.performAcc c e op legal f) c e a := by
  obtain ⟨mem, blf, flags, group⟩ := setProgress_keeps s c e a.entry.id .failed
  have running : (s.accFailed c e a).frozen c (.eng e) = none := by
    obtain ⟨-, -, running, -⟩ := h
    have : (s.accFailed c e a).frozen c (.eng e) = (s.eng c e).q.freeze := by
      rw [State.accFailed, State.setProgress, State.modQ]
      exact congrArg (·.q.freeze) (s.eng_modEng c e _)
    rw [this, running]
  have refused := State.refuse_unitRefused _ c running a.entry.off
  rw [performAcc_illegal h state]
  refine ⟨refused.frozen, refused.code, refused.cls, refused.detail, refused.mem, ?_⟩
  rw [State.refuse, State.freezeUnit_groups, State.eng, State.core_log]
  exact congrArg (·.groups) (s.eng_modEng c e _)

end Sys2Proof.Machine

end

/-! ## Accumulation groups: what the OPEN operations do (R116, R121, R123) -/

section

namespace Sys2Proof.Machine

open Sys2Proof.Claims

theorem accBad_of_openCupola {d : Desc} {e : EngId} (op : dBits d 8 0 4 = 1) (fit : accBad d e = false) : aFmt d ≤ 3 := by
  have named : aOp d = 1 := op
  simp only [accBad, named, Bool.or_eq_false_iff, decide_eq_false_iff_not, Nat.not_lt] at fit
  exact fit.1

theorem openOperationsSeedTheGroup : OpenOperationsSeedTheGroup := by
  intro s c e a wf
  dsimp only
  intro shut
  have legal : ((s.group c e (aGroup a.entry.bits)).state == .closed) = true := by rw [shut]; rfl
  refine ⟨fun ready => ⟨_, accRow_acts ready legal State.openZero, openZero_opens s c e a⟩, fun ready fit => ?_, fun ready _ =>
    ⟨_, accRow_acts ready legal State.openGroup, openGroup_opens wf e a⟩, fun ready => ?_⟩
  · obtain ⟨-, -, -, -, op, -⟩ := id ready
    have form := accBad_of_openCupola op fit
    rw [esize_aForm form]
    exact ⟨_, accRow_acts ready legal State.openCupola, openCupola_opens wf form⟩
  · obtain ⟨went, mem, blf, -, group⟩ := modGroup_moved s c e a .busy
      fun x => { x with state := .waitChain, arrived := 0, wait := some (s.newWait .chainRecv 0 16 a.entry.off 0) }
    exact ⟨_, _, accRow_acts ready legal State.openChain, went, mem, blf, group, rfl, rfl, rfl, rfl⟩

end Sys2Proof.Machine

end

/-! ## Accumulation groups: what SAVE and STATUS write to Cupola (R113, R116, R121, R446) -/

section

namespace Sys2Proof.Machine

open Sys2Proof.Claims

variable {s t r : State} {c : CoreId} {e : EngId} {a : Active}

/-! ### Several writes to one Cupola -/

/-- The bytes of `ws`, each from its Cupola offset, have been stored in that order. -/
structure Written (s t : State) (c : CoreId) (ws : List (Nat × List Byte)) : Prop where
  die : t = { s with mem := t.mem, blf := t.blf }
  wf : t.mem.wf = true
  outside : ∀ x, (∀ w ∈ ws, ¬ Covers c w.1 w.2 x) → t.mem.byteAt x = s.mem.byteAt x
  inside : ∀ x, ∀ w ∈ ws, Covers c w.1 w.2 x → (∀ v ∈ ws, Covers c v.1 v.2 x → v = w) → t.mem.byteAt x = w.2.getD (x - (coreBase c + w.1)) 0

theorem Written.nil (wf : s.mem.wf = true) (c : CoreId) : Written s s c [] := ⟨rfl, wf, fun _ _ => rfl, fun _ _ h => absurd h (by simp)⟩

variable {ws : List (Nat × List Byte)}

theorem Written.reads (h : Written s t c ws) (read : Reads t r) : Written s r c ws where
  die := die_trans h.die read.die
  wf := read.wf h.wf
  outside x hx := (read.byteAt x).trans (h.outside x hx)
  inside x w hw hx one := (read.byteAt x).trans (h.inside x w hw hx one)

theorem Written.logged (h : Written s t c ws) (blf : r = { t with blf := r.blf }) : Written s r c ws where
  die := die_trans h.die (die_of_blf blf)
  wf := by rw [blf]; exact h.wf
  outside x hx := by rw [blf]; exact h.outside x hx
  inside x w hw hx one := by rw [blf]; exact h.inside x w hw hx one

theorem Written.write (h : Written s t c ws) {off : Nat} {bs : List Byte} (clip : Clipped t r c off bs) : Written s r c (ws ++ [(off, bs)]) where
  die := die_trans h.die clip.die
  wf := clip.wf
  outside x hx := by
    rw [clip.outside x (hx (off, bs) (by simp))]
    exact h.outside x fun w hw => hx w (List.mem_append_left _ hw)
  inside x w hw hx one := by
    by_cases last : Covers c off bs x
    · obtain rfl := one (off, bs) (by simp) last
      exact clip.inside x last
    · have before : w ∈ ws := by
        rcases List.mem_append.mp hw with hw | hw
        · exact hw
        · obtain rfl := List.mem_singleton.mp hw
          exact absurd hx last
      rw [clip.outside x last]
      exact h.inside x w before hx fun v hv => one v (List.mem_append_left _ hv)

theorem Written.cupWrite (h : Written s t c ws) (off : Nat) (bs : Marked) : Written s (t.cupWrite c off bs) c (ws ++ [(off, bytesOf bs)]) :=
  h.write (State.cupWrite_clipped h.wf c off bs)

/-- Past the Cupola nothing has been written. -/
theorem Written.above (h : Written s t c ws) {x : Nat} (hx : coreBase c + 0x600000 ≤ x) : t.mem.byteAt x = s.mem.byteAt x :=
  h.outside x fun _ _ ⟨_, _, below⟩ => absurd below (by omega)

theorem Written.load_above (h : Written s t c ws) {x : Nat} (hx : coreBase c + 0x600000 ≤ x) (n : Nat) : t.mem.load x n = (List.range n).map fun i => s.mem.byteAt (x + i) := by
  rw [Memory.load_eq _ h.wf]
  exact List.map_congr_left fun i _ => h.above (by omega)

theorem groupBase_above (c : CoreId) (e : EngId) (g : GroupId) (i : Nat) : coreBase c + 0x600000 ≤ groupBase c e g + i := by
  unfold groupBase lanternBase
  omega

/-! ### An ACC that only writes to Cupola -/

/-- The ACC `a` is done; besides, Cupola and the fault log alone may differ. -/
structure AccWritten (s t : State) (c : CoreId) (e : EngId) (a : Active) (ws : List (Nat × List Byte)) : Prop where
  went : AccDone s t c e a .done
  engine : t.eng c e = { s.eng c e with q := (t.eng c e).q }
  outside : ∀ x, (∀ w ∈ ws, ¬ Covers c w.1 w.2 x) → t.mem.byteAt x = s.mem.byteAt x
  inside : ∀ x, ∀ w ∈ ws, Covers c w.1 w.2 x → (∀ v ∈ ws, Covers c v.1 v.2 x → v = w) → t.mem.byteAt x = w.2.getD (x - (coreBase c + w.1)) 0

theorem Written.done (h : Written s t c ws) (e : EngId) (a : Active) : AccWritten s (t.setProgress c (.eng e) a.entry.id .done) c e a ws where
  went := (accFrame_of_die h.die).went .done
  engine := by
    have engine : (t.setProgress c (.eng e) a.entry.id .done).eng c e = _ := t.eng_modEng c e _
    have same : t.eng c e = s.eng c e := by
      rw [h.die]
      rfl
    rw [engine, same]
  outside := h.outside
  inside := h.inside

/-! ### SAVE (R113, R116) -/

/-- Row `i` of the group as SAVE writes it. -/
def savedRow (s : State) (c : CoreId) (e : EngId) (d : Desc) (i : Nat) : Nat × List Byte :=
  (aAddr d + i * aPitch d, (List.range 128).map fun k => s.mem.byteAt (groupBase c e (aGroup d) + i * 128 + k))

/-- SAVE of one row. -/
def saveRow (c : CoreId) (e : EngId) (d : Desc) (acc : State × List Nat) (i : Nat) : State × List Nat :=
  let x := acc.1.readP (groupBase c e (aGroup d) + i * 128) 128
  (x.1.cupWrite c (aAddr d + i * aPitch d) x.2, acc.2 ++ (pastEnd (aAddr d + i * aPitch d) 128).toList)

theorem saveRows_written (wf : s.mem.wf = true) (c : CoreId) (e : EngId) (d : Desc) (n : Nat) :
    Written s ((List.range n).foldl (saveRow c e d) (s, [])).1 c ((List.range n).map (savedRow s c e d)) := by
  induction n with
  | zero => exact .nil wf c
  | succ n ih =>
    rw [List.range_succ, List.foldl_append, List.map_append]
    generalize (List.range n).foldl (saveRow c e d) (s, []) = acc at ih
    have next := (ih.reads (acc.1.readP_reads (groupBase c e (aGroup d) + n * 128) 128)).cupWrite (aAddr d + n * aPitch d)
      (acc.1.readP (groupBase c e (aGroup d) + n * 128) 128).2
    rw [State.readP_bytes, ih.load_above (groupBase_above c e _ _)] at next
    exact next

theorem saveGroup_written (wf : s.mem.wf = true) (c : CoreId) (e : EngId) (a : Active) :
    AccWritten s (s.saveGroup c e a) c e a ((List.range 64).map (savedRow s c e a.entry.bits)) :=
  ((saveRows_written wf c e a.entry.bits 64).logged (State.logBounds_changes_blf ..)).done e a

/-- Rows `n` bytes long that lie a pitch of at least `n` apart share no byte. -/
theorem same_row {x at_ n pitch i k : Nat} (apart : n ≤ pitch) (hi : at_ + i * pitch ≤ x ∧ x < at_ + i * pitch + n)
    (hk : at_ + k * pitch ≤ x ∧ x < at_ + k * pitch + n) : i = k := by
  rcases Nat.lt_trichotomy i k with less | same | more
  · have := Nat.mul_le_mul_right pitch less
    rw [Nat.succ_mul] at this
    omega
  · exact same
  · have := Nat.mul_le_mul_right pitch more
    rw [Nat.succ_mul] at this
    omega

theorem savedRow_covers {d : Desc} {i x : Nat} : Covers c (savedRow s c e d i).1 (savedRow s c e d i).2 x
    ↔ (coreBase c + aAddr d + i * aPitch d ≤ x ∧ x < coreBase c + aAddr d + i * aPitch d + 128) ∧ x < coreBase c + 0x600000 := by
  simp only [Covers, savedRow, List.length_map, List.length_range, ← Nat.add_assoc, and_assoc]

theorem saveGroup_saves (wf : s.mem.wf = true) (c : CoreId) (e : EngId) (a : Active) : let t := s.saveGroup c e a
    let d := a.entry.bits
    let at_ := fun r => coreBase c + aAddr d + r * aPitch d
    AccDone s t c e a .done ∧ t.eng c e = { s.eng c e with q := (t.eng c e).q }
      ∧ (128 ≤ aPitch d → ∀ r j, r < 64 → j < 128 → Inside c (at_ r + j) 1 → t.mem.byteAt (at_ r + j) = s.mem.byteAt (groupBase c e (aGroup d) + 128 * r + j))
      ∧ ∀ b, coreBase c + 0x600000 ≤ b ∨ (∀ r, r < 64 → b < at_ r ∨ at_ r + 128 ≤ b) → t.mem.byteAt b = s.mem.byteAt b := by
  intro t d at_
  obtain ⟨went, engine, outside, inside⟩ := saveGroup_written wf c e a
  refine ⟨went, engine, fun apart r j hr hj within => ?_, fun b hb => outside b fun w hw covers => ?_⟩
  · have here : Covers c (savedRow s c e d r).1 (savedRow s c e d r).2 (at_ r + j) := savedRow_covers.mpr ⟨by dsimp only [at_]; omega, within⟩
    rw [inside _ (savedRow s c e d r) (List.mem_map_of_mem (List.mem_range.mpr hr)) here fun v hv covers => ?_]
    · have place : at_ r + j - (coreBase c + (savedRow s c e d r).1) = j := by
        dsimp only [at_, savedRow]
        omega
      rw [place, savedRow, getD_map_range hj, Nat.mul_comm r 128]
    · obtain ⟨k, -, rfl⟩ := List.mem_map.mp hv
      rw [same_row apart (savedRow_covers.mp covers).1 (savedRow_covers.mp here).1]
  · obtain ⟨k, hk, rfl⟩ := List.mem_map.mp hw
    obtain ⟨⟨low, high⟩, below⟩ := savedRow_covers.mp covers
    rcases hb with above | out
    · omega
    · have := out k (List.mem_range.mp hk)
      dsimp only [at_, d] at this
      omega

end Sys2Proof.Machine

end

/-! ## Accumulation groups: the record of STATUS (Table ACC-5, R121) -/

section

namespace Sys2Proof.Machine

open Sys2Proof.Claims

variable {s t : State} {c : CoreId} {e : EngId} {a : Active}

/-! ### The largest band -/

theorem le_foldl_max (l : List Nat) (m : Nat) : m ≤ l.foldl max m ∧ ∀ x ∈ l, x ≤ l.foldl max m := by
  induction l generalizing m with
  | nil => simp
  | cons y l ih =>
    obtain ⟨first, rest⟩ := ih (max m y)
    refine ⟨(le_max_left m y).trans first, fun x hx => ?_⟩
    rcases List.mem_cons.mp hx with rfl | hx
    · exact (le_max_right m x).trans first
    · exact rest x hx

theorem foldl_max_mem (l : List Nat) (m : Nat) : l.foldl max m = m ∨ l.foldl max m ∈ l := by
  induction l generalizing m with
  | nil => exact .inl rfl
  | cons y l ih =>
    rcases ih (max m y) with same | later
    · rcases max_choice m y with hm | hy
      · exact .inl (same.trans hm)
      · exact .inr (by rw [List.foldl_cons, same, hy]; exact List.mem_cons_self)
    · exact .inr (List.mem_cons_of_mem y later)

variable (x : Group)

theorem Group.band_le_most (k : Fin 32) : x.bands[k] ≤ x.most :=
  (le_foldl_max _ _).2 _ (by simp)

theorem Group.most_band : ∃ b : Fin 32, x.bands[b] = x.most := by
  rcases foldl_max_mem x.bands.toList 0 with zero | mem
  · have most : x.most = 0 := zero
    exact ⟨0, by have := x.band_le_most 0; omega⟩
  · obtain ⟨i, hi, eq⟩ := List.getElem_of_mem mem
    rw [Vector.length_toList] at hi
    exact ⟨⟨i, hi⟩, by rw [Group.most, ← eq]; rfl⟩

theorem Group.most_eq_zero : x.most = 0 ↔ ∀ b : Fin 32, x.bands[b] = 0 := by
  refine ⟨fun most b => by have := x.band_le_most b; omega, fun none => ?_⟩
  obtain ⟨b, hb⟩ := x.most_band
  rw [← hb, none b]

/-! ### The record -/

/-- The record's first word. -/
def statusWord (g : Group) (poisoned : Bool) : Nat :=
  min (g.most - 1) 0xFFFF + 65536 * b2n (g.most == 0) + 131072 * b2n g.len + 262144 * g.state.code + 1048576 * b2n g.seeded + 2097152 * b2n poisoned

/-- The record's four words. -/
def statusWords (g : Group) (poisoned : Bool) : Nat → Nat
  | 0 => statusWord g poisoned
  | 1 => g.promoted.toNat
  | 2 => g.replayed.toNat
  | _ => 0

theorem statusRecord_eq (poisoned : Bool) : statusRecord x poisoned = spelled 4 4 (statusWords x poisoned) := by
  simp [statusRecord, spelled, statusWords, statusWord, List.range_succ]

theorem b2n_le (b : Bool) : b2n b ≤ 1 := by cases b <;> decide

theorem GState.code_le (g : GState) : g.code ≤ 3 := by cases g <;> decide

/-- What the fields of the first word hold. -/
structure StatusFields (w : Nat) (x : Group) (poisoned : Bool) : Prop where
  lt : w < 256 ^ 4
  empty : field w 16 1 = b2n (x.most == 0)
  chunks : field w 0 16 = min (x.most - 1) 0xFFFF
  len : field w 17 1 = b2n x.len
  state : field w 18 2 = x.state.code
  seeded : field w 20 1 = b2n x.seeded
  poisoned : field w 21 1 = b2n poisoned
  rest : field w 22 10 = 0

theorem statusWord_fields (poisoned : Bool) : StatusFields (statusWord x poisoned) x poisoned := by
  have empty := b2n_le (x.most == 0)
  have len := b2n_le x.len
  have seeded := b2n_le x.seeded
  have marked := b2n_le poisoned
  have state := x.state.code_le
  constructor <;> simp only [statusWord, field, Nat.shiftRight_eq_div_pow] <;> omega

/-! ### STATUS -/

theorem statusGroup_written (wf : s.mem.wf = true) (c : CoreId) (e : EngId) (a : Active) : AccWritten s (s.statusGroup c e a) c e a
    [(aAddr a.entry.bits, spelled 4 4 (statusWords (s.group c e (aGroup a.entry.bits)) (s.mem.poisoned (groupBase c e (aGroup a.entry.bits)) 0x2000)))] := by
  have written := (Written.nil wf c).cupWrite (aAddr a.entry.bits)
    ((statusRecord (s.group c e (aGroup a.entry.bits)) (s.mem.poisoned (groupBase c e (aGroup a.entry.bits)) 0x2000)).map fun b => (b, false))
  have bytes : ∀ bs : List Byte, bytesOf (bs.map fun b => (b, false)) = bs := fun bs => by simp [bytesOf, Function.comp_def]
  rw [bytes, statusRecord_eq] at written
  exact (written.logged (State.logBounds_changes_blf ..)).done e a

theorem statusGroup_records (wf : s.mem.wf = true) (c : CoreId) (e : EngId) (a : Active) : let t := s.statusGroup c e a
    let d := a.entry.bits
    let x := s.group c e (aGroup d)
    let poisoned := s.mem.poisoned (groupBase c e (aGroup d)) 0x2000
    let at_ := coreBase c + aAddr d
    AccDone s t c e a .done ∧ t.eng c e = { s.eng c e with q := (t.eng c e).q } ∧ SameBytesBut s t at_ 16
      ∧ (∀ b, coreBase c + 0x600000 ≤ b → t.mem.byteAt b = s.mem.byteAt b)
      ∧ (Inside c at_ 16 → StatusFields (numberAt t at_ 4) x poisoned ∧ numberAt t (at_ + 4) 4 = x.promoted.toNat
        ∧ numberAt t (at_ + 8) 4 = x.replayed.toNat ∧ numberAt t (at_ + 12) 4 = 0) := by
  intro t d x poisoned at_
  obtain ⟨went, engine, outside, inside⟩ := statusGroup_written wf c e a
  have covers : ∀ {y}, Covers c (aAddr d) (spelled 4 4 (statusWords x poisoned)) y → at_ ≤ y ∧ y < at_ + 16 ∧ y < coreBase c + 0x600000 := fun h => by
    rwa [Covers, length_spelled] at h
  refine ⟨went, engine, fun b hb => outside b fun w hw h => ?_, fun b hb => outside b fun w hw h => ?_, fun within => ?_⟩
  · obtain rfl := List.mem_singleton.mp hw
    have := covers h
    omega
  · obtain rfl := List.mem_singleton.mp hw
    have := covers h
    omega
  · have fields := statusWord_fields x poisoned
    have bytes : ∀ b, b < 16 → t.mem.byteAt (at_ + b) = (spelled 4 4 (statusWords x poisoned)).getD b 0 := fun b hb => by
      have here : Covers c (aAddr d) (spelled 4 4 (statusWords x poisoned)) (at_ + b) := by
        rw [Covers, length_spelled]
        unfold Inside at within
        omega
      rw [inside _ _ List.mem_cons_self here fun v hv _ => List.mem_singleton.mp hv]
      dsimp only
      rw [Nat.add_sub_cancel_left]
    have word : ∀ j, j < 4 → statusWords x poisoned j < 256 ^ 4 → numberAt t (at_ + 4 * j) 4 = statusWords x poisoned j :=
      fun j hj fits => numberAt_spelled hj fits fun k hk => bytes _ (by omega)
    have first := word 0 (by omega) fields.lt
    exact ⟨first ▸ fields, word 1 (by omega) x.promoted.isLt, word 2 (by omega) x.replayed.isLt, word 3 (by omega) (show 0 < 256 ^ 4 by decide)⟩

end Sys2Proof.Machine

end

/-! ## Accumulation groups: the numbers of a CLOSE (R93, R119, R120) -/

section

namespace Sys2Proof.Machine

open Sys2Proof.Claims

variable {s t : State} {c : CoreId} {e : EngId} {a : Active} {d : Desc}

/-! ### One value (R119) -/

/-- The fields of a CLOSE that are legal (Table TIL-16). -/
structure CloseFit (d : Desc) : Prop where
  form : aFmt d ≤ 3
  mode : aRm d ≤ 3
  cols : 1 ≤ aCols d ∧ aCols d ≤ 32

theorem closeFit_of_accBad (op : dBits d 8 0 4 = 4) (fit : accBad d e = false) : CloseFit d := by
  have named : aOp d = 4 := op
  simp only [accBad, named, within, Bool.or_eq_false_iff, decide_eq_false_iff_not, Bool.not_eq_false', decide_eq_true_eq, Nat.not_lt] at fit
  obtain ⟨⟨⟨⟨⟨⟨⟨⟨form, mode⟩, -⟩, -⟩, cols⟩, -⟩, -⟩, -⟩, -⟩ := fit
  exact ⟨form, mode, cols⟩

/-- The rounding mode of a CLOSE. -/
theorem mode_of_le {m : Nat} (h : m ≤ 3) : rmodeOf m = some ((rmodeOf m).getD .rne) := by
  have : ∀ k, k ≤ 3 → rmodeOf k = some ((rmodeOf k).getD .rne) := by decide
  exact this m h

theorem epilogue_closed (fit : CloseFit d) (subn : Bool) (v scale : Nat) (bias : Option Nat) : epilogue d subn v scale bias = closed d subn v scale bias := by
  have mode := mode_of_le fit.mode
  have form := fit.form
  unfold aRm at mode
  unfold epilogue closed aRm aFmt aSat
  unfold aFmt at form
  rw [mode]
  generalize dBits d 9 0 4 = k at form ⊢
  rcases (by omega : k = 0 ∨ k = 1 ∨ k = 2 ∨ k = 3) with rfl | rfl | rfl | rfl <;> cases bias <;> rfl

/-- The value before it is converted. -/
theorem epilogue_value_lt (d : Desc) (subn : Bool) {v : Nat} (hv : v < 2 ^ 32) (scale : Nat) (bias : Option Nat) : (epilogue d subn v scale bias).1 < 2 ^ 32 := by
  cases bias with
  | some b => exact fAdd_lt .fp32 subn _ b
  | none =>
    by_cases one : scale = one32
    · simpa [epilogue, one] using hv
    · have product : (fMul .fp32 subn v scale).1 < 2 ^ 32 := finish_lt .fp32 subn _
      simpa only [epilogue, one, if_false] using product

theorem epilogue_output (d : Desc) (subn : Bool) (v scale : Nat) (bias : Option Nat) : let r := epilogue d subn v scale bias
    r.2.1 = if aForm d = .fp32 then r.1 else (convert .fp32 (aForm d) ((rmodeOf (aRm d)).getD .rne) 0 (aSat d) subn 127 r.1).1 := by
  unfold epilogue aForm
  dsimp only
  split <;> rfl

theorem epilogue_lt (d : Desc) (subn : Bool) {v : Nat} (hv : v < 2 ^ 32) (scale : Nat) (bias : Option Nat) :
    (epilogue d subn v scale bias).2.1 < 256 ^ (aForm d).size := by
  rw [epilogue_output]
  by_cases wide : aForm d = .fp32
  · rw [if_pos wide, wide]
    exact epilogue_value_lt d subn hv scale bias
  · have power : 256 ^ (aForm d).size = 2 ^ width (aForm d) := by
      rw [Fmt.width_size, Nat.pow_mul]
    rw [if_neg wide, power]
    exact convert_lt _ _ _ _ _ _ _ (by simp)

/-! ### The largest of a row (R120) -/

/-- `m` is the largest magnitude of `vs` that is no NaN, or the canonical NaN where there is none. -/
def RowMax (m : Nat) (vs : List Nat) : Prop :=
  (m = 0x7FC00000 ∧ ∀ v ∈ vs, 0x7F800000 < v % 2 ^ 31)
    ∨ (m ≤ 0x7F800000 ∧ (∃ v ∈ vs, v % 2 ^ 31 = m) ∧ ∀ v ∈ vs, v % 2 ^ 31 ≤ m ∨ 0x7F800000 < v % 2 ^ 31)

theorem amaxOf_rowMax (vs : List Nat) : RowMax (amaxOf vs) vs := by
  have numbers : ∀ x, x ∈ (vs.map fun v => v % 0x80000000).filter (fun v => v ≤ 0x7F800000) ↔ (∃ v ∈ vs, v % 2 ^ 31 = x) ∧ x ≤ 0x7F800000 := by simp
  unfold amaxOf
  dsimp only
  generalize (vs.map fun v => v % 0x80000000).filter (fun v => v ≤ 0x7F800000) = m at numbers
  cases m with
  | nil =>
    refine .inl ⟨rfl, fun v hv => ?_⟩
    by_contra small
    exact absurd ((numbers _).mpr ⟨⟨v, hv, rfl⟩, not_lt.mp small⟩) (by simp)
  | cons x l =>
    obtain ⟨first, rest⟩ := le_foldl_max l x
    have mem : l.foldl max x ∈ x :: l := by
      rcases foldl_max_mem l x with same | later
      · rw [same]
        exact List.mem_cons_self
      · exact List.mem_cons_of_mem x later
    obtain ⟨attained, bound⟩ := (numbers _).mp mem
    refine .inr ⟨bound, attained, fun v hv => ?_⟩
    by_cases small : v % 2 ^ 31 ≤ 0x7F800000
    · rcases List.mem_cons.mp ((numbers _).mpr ⟨⟨v, hv, rfl⟩, small⟩) with eq | mem
      · exact .inl (eq.trans_le first)
      · exact .inl (rest _ mem)
    · exact .inr (not_le.mp small)

theorem RowMax.lt {m : Nat} {vs : List Nat} (h : RowMax m vs) : m < 256 ^ 4 := by
  rcases h with ⟨rfl, -⟩ | ⟨small, -⟩
  · decide
  · omega

end Sys2Proof.Machine

end

/-! ## Accumulation groups: the rows of a CLOSE (R119, R120) -/

section

namespace Sys2Proof.Machine

open Sys2Proof.Claims

variable {s t : State} {c : CoreId} {e : EngId} {d : Desc}

/-! ### Scales and biases (Table TIL-7) -/

/-- The scale of column `j`. -/
def closeScale (s : State) (c : CoreId) (d : Desc) (j : Nat) : Nat :=
  match dBits d 10 2 2 with
  | 1 => body d 24 4
  | 2 => cupNum s c (body d 24 4 + 4 * j) 4
  | _ => 0x3F800000

/-- The bias of column `j`, where one is named. -/
def biasNum (s : State) (c : CoreId) (d : Desc) (j : Nat) : Option Nat :=
  if dBits d 10 4 1 = 1 then some (cupNum s c (body d 28 4 + 4 * j) 4) else none

/-- The scale CLOSE takes for column `j` from the list it read. -/
def scaleAt (scales : List (Nat × Bool)) (j : Nat) : Nat := ((scales[j]?).getD (one32, false)).1

/-- The bias CLOSE takes for column `j` from the list it read. -/
def biasAt (bias : Option (List (Nat × Bool))) (j : Nat) : Option Nat := (bias.map fun l => (l[j]?).getD (0, false)).map (·.1)

theorem elements_getElem? {size count j : Nat} (bs : Marked) (x : Nat × Bool) (hj : j < count) :
    (((elements size count bs)[j]?).getD x).1 = leNat (((bytesOf bs).drop (size * j)).take size) := by
  have named := congrArg (fun l : List Nat => l[j]?) (elements_eq size count bs)
  rw [List.getElem?_map, List.getElem?_map, List.getElem?_range hj] at named
  obtain ⟨y, found, value⟩ := Option.map_eq_some_iff.mp named
  rw [found]
  exact value

/-- A vector of 32 numbers read from Cupola. -/
theorem cupRead_number (wf : s.mem.wf = true) (off : Nat) (x : Nat × Bool) {j : Nat} (hj : j < 32) :
    (((elements 4 32 (s.cupRead c off 128).2)[j]?).getD x).1 = cupNum s c (off + 4 * j) 4 := by
  rw [elements_getElem? _ _ hj, State.cupRead_bytes wf, map_range_drop_take _ (by omega), cupNum_eq]
  simp only [Nat.add_assoc]

/-- One scale for all columns. -/
theorem scaleAt_replicate (v : Nat) {j : Nat} (hj : j < 32) : scaleAt (List.replicate 32 (v, false)) j = v := by
  rw [scaleAt, List.getElem?_replicate_of_lt hj]
  rfl

theorem closeScales_reads (s : State) (c : CoreId) (d : Desc) : Reads s (s.closeScales c d).1 := by
  unfold State.closeScales
  split
  · exact State.cupRead_reads _ c _ _
  · exact .refl s
  · exact .refl s

theorem closeScales_scale (wf : s.mem.wf = true) {j : Nat} (hj : j < 32) : scaleAt (s.closeScales c d).2.1 j = closeScale s c d j := by
  unfold State.closeScales closeScale aScaleSrc
  split
  · next two =>
    rw [two]
    exact cupRead_number wf _ _ hj
  · next one =>
    rw [one]
    exact scaleAt_replicate _ hj
  · next other two one =>
    split
    · next one' => exact absurd one' one
    · next two' => exact absurd two' two
    · exact scaleAt_replicate _ hj

theorem closeBias_reads (s : State) (c : CoreId) (d : Desc) : Reads s (s.closeBias c d).1 := by
  unfold State.closeBias
  split
  · exact State.cupRead_reads _ c _ _
  · exact .refl s

theorem closeBias_bias (wf : s.mem.wf = true) {j : Nat} (hj : j < 32) : biasAt (s.closeBias c d).2.1 j = biasNum s c d j := by
  unfold State.closeBias biasNum aBias biasAt
  by_cases named : dBits d 10 4 1 = 1
  · rw [if_pos named, if_pos (by simp [named])]
    exact congrArg some (cupRead_number wf _ _ hj)
  · rw [if_neg named, if_neg (by simp [named])]
    rfl

/-! ### One row -/

/-- The value (r, j) of a CLOSE. -/
def closeOut (s : State) (c : CoreId) (e : EngId) (d : Desc) (subn : Bool) (r j : Nat) : Nat × Nat × Flags :=
  closed d subn (groupNum s c e (aGroup d) r j) (closeScale s c d j) (biasNum s c d j)

/-- The cells of row `i` with the poisoned word each consumes, from the row's old bytes. -/
def closeCells (c : CoreId) (e : EngId) (d : Desc) (subn : Bool) (scales : List (Nat × Bool)) (bias : Option (List (Nat × Bool))) (i : Nat) (old : Marked) :
    List ((Nat × Nat × Flags) × Option Nat) :=
  (elements 4 (aCols d) old).zipIdx.map fun v =>
    let sc := (scales[v.2]?).getD (one32, false)
    let b := bias.map fun l => (l[v.2]?).getD (0, false)
    let r := epilogue d subn v.1.1 sc.1 (b.map (·.1))
    let hot := if v.1.2 then some ((groupBase c e (aGroup d) + i * 128 + 4 * v.2) / 8 * 8)
      else if sc.2 && sc.1 != one32 then some ((coreBase c + aScale d + 4 * v.2) / 8 * 8)
      else match b with
        | some (_, true) => some ((coreBase c + aBiasAddr d + 4 * v.2) / 8 * 8)
        | _ => none
    (r, hot)

variable {scales : List (Nat × Bool)} {bias : Option (List (Nat × Bool))} {subn : Bool}

theorem closeCells_values (i : Nat) (old : Marked) : (closeCells c e d subn scales bias i old).map (·.1)
    = (List.range (aCols d)).map fun j => epilogue d subn (leNat (((bytesOf old).drop (4 * j)).take 4)) (scaleAt scales j) (biasAt bias j) := by
  apply List.ext_getElem
  · simp [closeCells]
  · intro j hj hj'
    have inside : j < aCols d := by simpa using hj'
    have value := elements_getElem? (size := 4) old (0, false) inside
    rw [List.getElem?_eq_getElem (by simpa using inside)] at value
    simp only [closeCells, List.map_map, List.getElem_map, List.getElem_zipIdx, List.getElem_range, Function.comp, Nat.zero_add]
    rw [← value]
    rfl

/-- The row read and the cells of it. -/
def rowRead (z : CloseAcc) (c : CoreId) (e : EngId) (d : Desc) (i : Nat) : State × Marked := z.s.readP (groupBase c e (aGroup d) + i * 128) (4 * aCols d)

theorem rowRead_reads (z : CloseAcc) (c : CoreId) (e : EngId) (d : Desc) (i : Nat) : Reads z.s (rowRead z c e d i).1 := State.readP_reads ..

theorem closeRow_state (z : CloseAcc) (i : Nat) : (closeRow c e d subn scales bias z i).s =
    let cells := closeCells c e d subn scales bias i (rowRead z c e d i).2
    let out := (rowRead z c e d i).1.cupWrite c (aAddr d + i * aPitch d) (spell (aForm d).size (cells.map fun x => (x.1.2.1, x.2.isSome)))
    if aAmax d then out.cupWrite c (aAmaxAddr d + 4 * i) (spell 4 [(amaxOf (cells.map (·.1.1)), cells.any (·.2.isSome))]) else out := by
  unfold closeRow
  dsimp only
  by_cases amax : aAmax d = true
  · rw [if_pos amax, if_pos amax]
    rfl
  · rw [if_neg amax, if_neg amax]
    rfl

theorem closeRow_flags (z : CloseAcc) (i : Nat) : (closeRow c e d subn scales bias z i).flags =
    ((closeCells c e d subn scales bias i (rowRead z c e d i).2).map (·.1)).foldl (fun f x => f ||| x.2.2) z.flags := by
  rw [List.foldl_map]
  rfl

/-- The outputs of row `i`. -/
def rowWrite (s : State) (c : CoreId) (e : EngId) (d : Desc) (subn : Bool) (i : Nat) : Nat × List Byte :=
  (aAddr d + i * aPitch d, spelled (aForm d).size (aCols d) fun j => (closeOut s c e d subn i j).2.1)

/-- The maximum of row `i`. -/
def rowAmax (s : State) (c : CoreId) (e : EngId) (d : Desc) (subn : Bool) (i : Nat) : Nat :=
  amaxOf ((List.range (aCols d)).map fun j => (closeOut s c e d subn i j).1)

/-- The AMAX word of row `i`. -/
def amaxWrite (s : State) (c : CoreId) (e : EngId) (d : Desc) (subn : Bool) (i : Nat) : Nat × List Byte :=
  (aAmaxAddr d + 4 * i, leBytes (rowAmax s c e d subn i) 4)

/-- What CLOSE writes for row `i`. -/
def closeWrites (s : State) (c : CoreId) (e : EngId) (d : Desc) (subn : Bool) (i : Nat) : List (Nat × List Byte) :=
  rowWrite s c e d subn i :: if aAmax d then [amaxWrite s c e d subn i] else []

theorem getLsbD_foldl_or {α : Type} (l : List α) (flags : α → Flags) (f : Flags) (b : Nat) :
    (l.foldl (fun f x => f ||| flags x) f).getLsbD b = (f.getLsbD b || l.any fun x => (flags x).getLsbD b) := by
  induction l generalizing f with
  | nil => simp
  | cons x l ih => rw [List.foldl_cons, ih, BitVec.getLsbD_or, List.any_cons, Bool.or_assoc]

/-- What CLOSE has done after its first `n` rows. -/
structure RowsClosed (s : State) (c : CoreId) (e : EngId) (d : Desc) (subn : Bool) (z : CloseAcc) (n : Nat) : Prop where
  written : Written s z.s c ((List.range n).flatMap (closeWrites s c e d subn))
  flags : ∀ b, z.flags.getLsbD b = (List.range n).any fun i => (List.range (aCols d)).any fun j => (closeOut s c e d subn i j).2.2.getLsbD b

/-- The lists CLOSE has read hold its scales and biases. -/
def OperandsRead (s : State) (c : CoreId) (d : Desc) (scales : List (Nat × Bool)) (bias : Option (List (Nat × Bool))) : Prop :=
  ∀ j, j < 32 → scaleAt scales j = closeScale s c d j ∧ biasAt bias j = biasNum s c d j

section

variable (fit : CloseFit d) (operands : OperandsRead s c d scales bias) {z : CloseAcc} {n : Nat} (before : RowsClosed s c e d subn z n)
include fit operands before

theorem RowsClosed.values : (closeCells c e d subn scales bias n (rowRead z c e d n).2).map (·.1) = (List.range (aCols d)).map (closeOut s c e d subn n) := by
  rw [closeCells_values]
  refine List.map_congr_left fun j hj => ?_
  rw [List.mem_range] at hj
  obtain ⟨-, cols⟩ := fit.cols
  obtain ⟨scale, bias⟩ := operands j (by omega)
  have old : leNat (((bytesOf (rowRead z c e d n).2).drop (4 * j)).take 4) = groupNum s c e (aGroup d) n j := by
    rw [rowRead, State.readP_bytes, before.written.load_above (groupBase_above c e _ _), map_range_drop_take _ (by omega), groupNum, numberAt]
    simp only [Nat.add_assoc]
  rw [old, scale, bias, epilogue_closed fit]
  rfl

theorem RowsClosed.next : RowsClosed s c e d subn (closeRow c e d subn scales bias z n) (n + 1) := by
  have values := before.values fit operands
  refine ⟨?_, fun b => ?_⟩
  · rw [closeRow_state, List.range_succ, List.flatMap_append]
    dsimp only
    generalize hc : closeCells c e d subn scales bias n (rowRead z c e d n).2 = cells at values
    have outputs : bytesOf (spell (aForm d).size (cells.map fun x => (x.1.2.1, x.2.isSome)))
        = spelled (aForm d).size (aCols d) fun j => (closeOut s c e d subn n j).2.1 := by
      have same := congrArg (List.flatMap fun x : Nat × Nat × Flags => leBytes x.2.1 (aForm d).size) values
      rw [List.flatMap_map, List.flatMap_map] at same
      rw [bytesOf_spell, List.flatMap_map]
      exact same
    have largest : cells.map (·.1.1) = (List.range (aCols d)).map fun j => (closeOut s c e d subn n j).1 := by
      have same := congrArg (List.map fun x : Nat × Nat × Flags => x.1) values
      rw [List.map_map, List.map_map] at same
      exact same
    have row := (before.written.reads (rowRead_reads z c e d n)).cupWrite (aAddr d + n * aPitch d) (spell (aForm d).size (cells.map fun x => (x.1.2.1, x.2.isSome)))
    rw [outputs] at row
    by_cases amax : aAmax d = true
    · have both := row.cupWrite (aAmaxAddr d + 4 * n) (spell 4 [(amaxOf (cells.map (·.1.1)), cells.any (·.2.isSome))])
      rw [bytesOf_spell, largest] at both
      rw [if_pos amax, largest]
      simpa [closeWrites, rowWrite, amaxWrite, rowAmax, amax, List.append_assoc] using both
    · rw [if_neg amax]
      simpa [closeWrites, rowWrite, amax] using row
  · rw [closeRow_flags, values, List.foldl_map, getLsbD_foldl_or, before.flags, List.range_succ, List.any_append]
    simp

end

theorem closeRows_closed (wf : s.mem.wf = true) (read : Reads s t) (fit : CloseFit d) (operands : OperandsRead s c d scales bias) (outs : List Nat) (n : Nat) :
    RowsClosed s c e d subn ((List.range n).foldl (closeRow c e d subn scales bias) { s := t, flags := 0, first := none, outs := outs }) n := by
  induction n with
  | zero => exact ⟨(Written.nil wf c).reads read, fun b => by simp⟩
  | succ n ih =>
    rw [List.range_succ, List.foldl_append]
    exact ih.next fit operands

end Sys2Proof.Machine

end

/-! ## Accumulation groups: the end of a CLOSE (R119, R120, R397) -/

section

namespace Sys2Proof.Machine

open Sys2Proof.Claims

variable {s t r : State} {c : CoreId} {e : EngId} {a : Active} {d : Desc} {subn : Bool}

/-! ### Where the words of a CLOSE stand -/

theorem rowWrite_covers {i x : Nat} : Covers c (rowWrite s c e d subn i).1 (rowWrite s c e d subn i).2 x
    ↔ (coreBase c + aAddr d + i * aPitch d ≤ x ∧ x < coreBase c + aAddr d + i * aPitch d + aCols d * (aForm d).size) ∧ x < coreBase c + 0x600000 := by
  simp only [Covers, rowWrite, length_spelled, Nat.mul_comm (aForm d).size, ← Nat.add_assoc, and_assoc]

theorem amaxWrite_covers {i x : Nat} : Covers c (amaxWrite s c e d subn i).1 (amaxWrite s c e d subn i).2 x
    ↔ (coreBase c + aAmaxAddr d + 4 * i ≤ x ∧ x < coreBase c + aAmaxAddr d + 4 * i + 4) ∧ x < coreBase c + 0x600000 := by
  simp only [Covers, amaxWrite, length_leBytes, ← Nat.add_assoc, and_assoc]

theorem mem_closeWrites {n : Nat} {w : Nat × List Byte} : w ∈ (List.range n).flatMap (closeWrites s c e d subn)
    ↔ ∃ i, i < n ∧ (w = rowWrite s c e d subn i ∨ (aAmax d = true ∧ w = amaxWrite s c e d subn i)) := by
  simp only [List.mem_flatMap, List.mem_range, closeWrites, List.mem_cons]
  refine exists_congr fun i => and_congr_right fun _ => or_congr_right ?_
  by_cases amax : aAmax d = true <;> simp [amax]

theorem rowAmax_rowMax (i : Nat) : RowMax (rowAmax s c e d subn i) ((List.range (aCols d)).map fun j => (closeOut s c e d subn i j).1) := amaxOf_rowMax _

/-- No two words of a CLOSE of `n` rows share a byte. -/
structure Apart (c : CoreId) (d : Desc) (n : Nat) : Prop where
  rows : aCols d * (aForm d).size ≤ aPitch d
  words : aAmax d = true → ∀ r q, r < n → q < n → coreBase c + aAmaxAddr d + 4 * q + 4 ≤ coreBase c + aAddr d + r * aPitch d
    ∨ coreBase c + aAddr d + r * aPitch d + aCols d * (aForm d).size ≤ coreBase c + aAmaxAddr d + 4 * q

section

variable {n : Nat} (written : Written s t c ((List.range n).flatMap (closeWrites s c e d subn))) (apart : Apart c d n)
include written apart

theorem row_written {i x : Nat} (hi : i < n) (covers : Covers c (rowWrite s c e d subn i).1 (rowWrite s c e d subn i).2 x) :
    t.mem.byteAt x = (rowWrite s c e d subn i).2.getD (x - (coreBase c + (rowWrite s c e d subn i).1)) 0 := by
  refine written.inside x _ (mem_closeWrites.mpr ⟨i, hi, .inl rfl⟩) covers fun v hv shares => ?_
  obtain ⟨k, hk, rfl | ⟨amax, rfl⟩⟩ := mem_closeWrites.mp hv
  · rw [same_row apart.rows (rowWrite_covers.mp shares).1 (rowWrite_covers.mp covers).1]
  · have := apart.words amax i k hi hk
    have := rowWrite_covers.mp covers
    have := amaxWrite_covers.mp shares
    omega

theorem amax_written {i x : Nat} (amax : aAmax d = true) (hi : i < n) (covers : Covers c (amaxWrite s c e d subn i).1 (amaxWrite s c e d subn i).2 x) :
    t.mem.byteAt x = (amaxWrite s c e d subn i).2.getD (x - (coreBase c + (amaxWrite s c e d subn i).1)) 0 := by
  refine written.inside x _ (mem_closeWrites.mpr ⟨i, hi, .inr ⟨amax, rfl⟩⟩) covers fun v hv shares => ?_
  have here := amaxWrite_covers.mp covers
  obtain ⟨k, hk, rfl | ⟨-, rfl⟩⟩ := mem_closeWrites.mp hv
  · have := apart.words amax k i hk hi
    have := rowWrite_covers.mp shares
    omega
  · have := amaxWrite_covers.mp shares
    rw [show k = i by omega]

/-- The value at row `i`, column `j`. -/
theorem row_number (fit : CloseFit d) {i j : Nat} (hi : i < n) (hj : j < aCols d)
    (within : Inside c (coreBase c + aAddr d + i * aPitch d + j * (aForm d).size) (aForm d).size) :
    numberAt t (coreBase c + aAddr d + i * aPitch d + j * (aForm d).size) (aForm d).size = (closeOut s c e d subn i j).2.1 := by
  have fits : (closeOut s c e d subn i j).2.1 < 256 ^ (aForm d).size := by
    rw [closeOut, ← epilogue_closed fit]
    exact epilogue_lt d subn (numberAt_lt _ 4) _ _
  rw [Nat.mul_comm j]
  refine numberAt_spelled (n := aCols d) (V := fun j => (closeOut s c e d subn i j).2.1) hj fits fun k hk => ?_
  have := Nat.mul_le_mul_right (aForm d).size hj
  rw [Nat.succ_mul, Nat.mul_comm j] at this
  unfold Inside at within
  rw [Nat.mul_comm j] at within
  rw [row_written written apart hi (rowWrite_covers.mpr (by omega))]
  dsimp only [rowWrite]
  congr 1
  omega

/-- The AMAX word of row `i`. -/
theorem amax_number (amax : aAmax d = true) {i : Nat} (hi : i < n) (within : Inside c (coreBase c + aAmaxAddr d + 4 * i) 4) :
    numberAt t (coreBase c + aAmaxAddr d + 4 * i) 4 = rowAmax s c e d subn i := by
  rw [numberAt_of_bytes (v := rowAmax s c e d subn i) fun k hk => ?_, Nat.mod_eq_of_lt (rowAmax_rowMax i).lt]
  unfold Inside at within
  rw [amax_written written apart amax hi (amaxWrite_covers.mpr (by omega))]
  dsimp only [amaxWrite]
  congr 1
  omega

end

/-! ### The poison of a CLOSE (R397) -/

/-- Note the first poisoned word a CLOSE has consumed. -/
def State.noteHot (s : State) (c : CoreId) (e : EngId) (off : Nat) (first : Option Nat) : State :=
  match first with
  | some w => (s.engFlags c e fPOISON).logPoison c (.eng e) off w
  | none => s

/-- Of engine `e` the flags alone differ, and of the rest the fault log. -/
structure FlagsOnly (s t : State) (c : CoreId) (e : EngId) (f : Flags) : Prop where
  mem : t.mem = s.mem
  engine : t.eng c e = { s.eng c e with flags := (s.eng c e).flags ||| f }
  frame : ∀ g, AccFrame s t c e g

theorem engFlags_flagsOnly (s : State) (c : CoreId) (e : EngId) (f : Flags) : FlagsOnly s (s.engFlags c e f) c e f :=
  ⟨rfl, s.eng_modEng c e _, fun g => s.engFlags_accFrame c e g f⟩

theorem FlagsOnly.logged {f : Flags} (h : FlagsOnly s t c e f) (blf : r = { t with blf := r.blf }) : FlagsOnly s r c e f where
  mem := by rw [blf]; exact h.mem
  engine := by
    have same : r.eng c e = t.eng c e := by
      rw [blf]
      rfl
    rw [same, h.engine]
  frame g := (h.frame g).trans (accFrame_of_die (die_of_blf blf))

theorem noteHot_flagsOnly (s : State) (c : CoreId) (e : EngId) (off : Nat) (first : Option Nat) :
    ∃ f, FlagsOnly s (s.noteHot c e off first) c e f ∧ ∀ b, b ≠ 6 → f.getLsbD b = false := by
  cases first with
  | none => exact ⟨0, ⟨rfl, by simp [State.noteHot], fun g => accFrame_of_die rfl⟩, fun b _ => BitVec.getLsbD_zero⟩
  | some w =>
    refine ⟨fPOISON, (engFlags_flagsOnly s c e fPOISON).logged (State.log_changes_blf _ _), fun b hb => ?_⟩
    by_cases small : b < 8
    · have bits : ∀ b, b < 8 → b ≠ 6 → fPOISON.getLsbD b = false := by decide
      exact bits b small hb
    · exact BitVec.getLsbD_of_ge _ _ (by omega)

/-! ### The end -/

/-- What the rows of a CLOSE have done. -/
def State.closedRows (s : State) (c : CoreId) (e : EngId) (a : Active) : CloseAcc :=
  let d := a.entry.bits
  let x := s.closeScales c d
  let y := x.1.closeBias c d
  (List.range (aRows d)).foldl (closeRow c e d a.entry.subn x.2.1 y.2.1) { s := y.1, flags := 0, first := none, outs := x.2.2 ++ y.2.2 }

theorem closeGroup_eq (s : State) (c : CoreId) (e : EngId) (a : Active) : s.closeGroup c e a = let z := s.closedRows c e a
    (((((z.s.logBounds c (.eng e) false z.outs).noteHot c e a.entry.off z.first).engFlags c e z.flags).modGroup c e (aGroup a.entry.bits)
      fun g => { g with state := .closed }).setProgress c (.eng e) a.entry.id .done) := rfl

theorem closedRows_closed (wf : s.mem.wf = true) (c : CoreId) (e : EngId) (fit : CloseFit a.entry.bits) :
    RowsClosed s c e a.entry.bits a.entry.subn (s.closedRows c e a) (aRows a.entry.bits) := by
  have first := closeScales_reads s c a.entry.bits
  refine closeRows_closed wf (first.trans (closeBias_reads _ c _)) fit (fun j hj => ⟨closeScales_scale wf hj, ?_⟩) _ _
  rw [closeBias_bias (first.wf wf) hj, biasNum, biasNum, first.cupNum]

/-- A CLOSE has ended. -/
structure CloseEnded (s t : State) (c : CoreId) (e : EngId) (a : Active) (z : CloseAcc) : Prop where
  went : AccDone s t c e a .done
  mem : t.mem = z.s.mem
  group : t.group c e (aGroup a.entry.bits) = { s.group c e (aGroup a.entry.bits) with state := .closed }
  flags : ∀ b, b ≠ 6 → (t.eng c e).flags.getLsbD b = ((s.eng c e).flags.getLsbD b || z.flags.getLsbD b)

theorem closeGroup_ended (die : (s.closedRows c e a).s = { s with mem := (s.closedRows c e a).s.mem, blf := (s.closedRows c e a).s.blf }) :
    CloseEnded s (s.closeGroup c e a) c e a (s.closedRows c e a) := by
  rw [closeGroup_eq]
  dsimp only
  generalize s.closedRows c e a = z at die
  have logged := die_trans die (die_of_blf (State.logBounds_changes_blf z.s c (.eng e) false z.outs))
  have mem : (z.s.logBounds c (.eng e) false z.outs).mem = z.s.mem := by rw [State.logBounds_changes_blf]
  generalize z.s.logBounds c (.eng e) false z.outs = x at logged mem
  obtain ⟨f, hot, others⟩ := noteHot_flagsOnly x c e a.entry.off z.first
  generalize x.noteHot c e a.entry.off z.first = y at hot
  have raised := engFlags_flagsOnly y c e z.flags
  generalize y.engFlags c e z.flags = w at raised
  obtain ⟨memP, -, flagsP, groupP⟩ := setProgress_keeps (w.modGroup c e (aGroup a.entry.bits) fun g => { g with state := .closed }) c e a.entry.id .done
  have same : x.eng c e = s.eng c e := by
    rw [logged]
    rfl
  refine ⟨(((accFrame_of_die logged).trans (hot.frame _)).trans ((raised.frame _).trans (w.modGroup_accFrame c e _ _))).went .done, ?_, ?_, fun b hb => ?_⟩
  · rw [memP, State.modGroup_mem, raised.mem, hot.mem, mem]
  · rw [groupP, State.group_modGroup, State.group, State.group, raised.engine, hot.engine, same]
  · rw [flagsP, State.modGroup, State.eng_modEng]
    dsimp only
    rw [raised.engine, hot.engine, same]
    simp only [BitVec.getLsbD_or, others b hb, Bool.or_false]

end Sys2Proof.Machine

end

/-! ## Accumulation groups: CLOSE, SAVE, STATUS and CLOSE_CHAIN follow their operations (R117, R119 to R124) -/

section

namespace Sys2Proof.Machine

open Sys2Proof.Claims

variable {s t : State} {c : CoreId} {e : EngId} {a : Active}

/-! ### CLOSE in its engine -/

/-- With no CLOSE under way the next one starts. -/
theorem performClose_next (h : NoClose s c e) : s.performClose c e = s.performAcc c e 4 (· == .opened) fun s a => s.closeBegins c e a := by
  have none : (s.eng c e).q.active.find? (fun a => a.progress == .epilogue) = none := List.find?_eq_none.mpr fun b hb => by simpa using h b hb
  unfold State.performClose
  dsimp only
  rw [none]

/-- A CLOSE that may start begins. -/
theorem performClose_begins (h : AccReady s c e 4 a) (idle : NoClose s c e) (state : (s.group c e (aGroup a.entry.bits)).state = .opened) :
    s.performClose c e = s.closeBegins c e a := by
  rw [performClose_next idle]
  exact performAcc_legal h (legal := (· == .opened)) (by rw [state]; rfl) _

/-- A CLOSE that is under way ends. -/
theorem performClose_ends (h : Closing s c e a) : s.performClose c e = s.closeGroup c e a := by
  obtain ⟨-, live, goes, -, -, found⟩ := h
  unfold State.performClose
  dsimp only
  rw [found]
  exact if_pos (by rw [live, goes]; rfl)

theorem exec_close (powered : s.powered = true) : exec (.close c (.perform e)) s = .next (s.performClose c e) := by
  change ev s (fun s => s.performClose c e) = _
  rw [ev_powered s _ powered]

/-! ### What a CLOSE writes -/

theorem rowMax_range {m : Nat} {n : Nat} {f : Nat → Nat} (h : RowMax m ((List.range n).map f)) :
    (m = 0x7FC00000 ∧ ∀ j, j < n → 0x7F800000 < f j % 2 ^ 31)
      ∨ (m ≤ 0x7F800000 ∧ (∃ j, j < n ∧ f j % 2 ^ 31 = m) ∧ ∀ j, j < n → f j % 2 ^ 31 ≤ m ∨ 0x7F800000 < f j % 2 ^ 31) := by
  simpa only [RowMax, List.mem_map, List.mem_range, forall_exists_index, and_imp, forall_apply_eq_imp_iff₂, exists_exists_and_eq_and] using h

/-- CLOSE has written its rows, their maxima and nothing else. -/
structure CloseWrites (s t : State) (c : CoreId) (e : EngId) (d : Desc) (subn : Bool) : Prop where
  values : Apart c d (aRows d) → ∀ r j, r < aRows d → j < aCols d → Inside c (coreBase c + aAddr d + r * aPitch d + j * (aForm d).size) (aForm d).size →
    numberAt t (coreBase c + aAddr d + r * aPitch d + j * (aForm d).size) (aForm d).size = (closeOut s c e d subn r j).2.1
  maxima : Apart c d (aRows d) → aAmax d = true → ∀ r, r < aRows d → Inside c (coreBase c + aAmaxAddr d + 4 * r) 4 →
    RowMax (numberAt t (coreBase c + aAmaxAddr d + 4 * r) 4) ((List.range (aCols d)).map fun j => (closeOut s c e d subn r j).1)
  outside : ∀ b, coreBase c + 0x600000 ≤ b ∨ (∀ r, r < aRows d → (b < coreBase c + aAddr d + r * aPitch d
      ∨ coreBase c + aAddr d + r * aPitch d + aCols d * (aForm d).size ≤ b)
      ∧ (aAmax d = true → b < coreBase c + aAmaxAddr d + 4 * r ∨ coreBase c + aAmaxAddr d + 4 * r + 4 ≤ b)) → t.mem.byteAt b = s.mem.byteAt b

theorem closeWrites_of_written {d : Desc} {subn : Bool} (fit : CloseFit d) {x : State}
    (written : Written s x c ((List.range (aRows d)).flatMap (closeWrites s c e d subn))) (mem : t.mem = x.mem) : CloseWrites s t c e d subn := by
  have number : ∀ p n, numberAt t p n = numberAt x p n := fun p n => by rw [numberAt, mem, numberAt]
  refine ⟨fun apart r j hr hj within => ?_, fun apart amax r hr within => ?_, fun b hb => ?_⟩
  · rw [number]
    exact row_number written apart fit hr hj within
  · rw [number, amax_number written apart amax hr within]
    exact rowAmax_rowMax r
  · rw [mem]
    refine written.outside b fun w hw covers => ?_
    obtain ⟨r, hr, rfl | ⟨amax, rfl⟩⟩ := mem_closeWrites.mp hw
    · obtain ⟨here, below⟩ := rowWrite_covers.mp covers
      rcases hb with above | out
      · omega
      · obtain ⟨row, -⟩ := out r hr
        omega
    · obtain ⟨here, below⟩ := amaxWrite_covers.mp covers
      rcases hb with above | out
      · omega
      · obtain ⟨-, word⟩ := out r hr
        have := word amax
        omega

theorem closeGroup_closes (wf : s.mem.wf = true) (fit : CloseFit a.entry.bits) : let z := s.closedRows c e a
    CloseEnded s (s.closeGroup c e a) c e a z ∧ CloseWrites s (s.closeGroup c e a) c e a.entry.bits a.entry.subn
      ∧ ∀ b, z.flags.getLsbD b = (List.range (aRows a.entry.bits)).any fun r => (List.range (aCols a.entry.bits)).any fun j =>
        (closeOut s c e a.entry.bits a.entry.subn r j).2.2.getLsbD b := by
  have rows := closedRows_closed (a := a) wf c e fit
  have ended := closeGroup_ended rows.written.die
  exact ⟨ended, closeWrites_of_written fit rows.written ended.mem, rows.flags⟩

/-! ### STATUS -/

theorem gstate_code (x : GState) : x.code = match x with | .closed => 0 | .opened => 1 | .waitChain => 2 | .closing => 3 := by cases x <;> rfl

/-- The fields of the record as the group's own numbers. -/
theorem StatusFields.named {w : Nat} {x : Group} {poisoned : Bool} (h : StatusFields w x poisoned) (small : ∀ b : Fin 32, x.bands[b] ≤ 65536) :
    field w 16 1 = (if ∀ b : Fin 32, x.bands[b] = 0 then 1 else 0) ∧ ∃ b : Fin 32, field w 0 16 = x.bands[b] - 1 ∧ ∀ k : Fin 32, x.bands[k] ≤ x.bands[b] := by
  obtain ⟨b, most⟩ := x.most_band
  refine ⟨?_, b, ?_, fun k => most ▸ x.band_le_most k⟩
  · simp only [h.empty, b2n, beq_iff_eq, x.most_eq_zero]
  · have := small b
    rw [h.chunks, ← most]
    omega

/-! ### Refusals (R117) -/

theorem accRow_refuses {op : Nat} (h : AccReady s c e op a) {need : GState} (state : (s.group c e (aGroup a.entry.bits)).state ≠ need)
    (f : State → CoreId → EngId → Active → State) :
    ∃ t, ev s (fun s => s.accRow c (.perform e) op (· == need) f) = .next t ∧ AccRefused s t c e a :=
  ⟨_, ev_powered s _ h.1, performAcc_refuses h (legal := (· == need)) (beq_eq_false_iff_ne.mpr state) fun s a => f s c e a⟩

theorem performClose_refuses (h : AccReady s c e 4 a) (idle : NoClose s c e) (state : (s.group c e (aGroup a.entry.bits)).state ≠ .opened) :
    ∃ t, exec (.close c (.perform e)) s = .next t ∧ AccRefused s t c e a := by
  refine ⟨_, exec_close h.1, ?_⟩
  rw [performClose_next idle]
  exact performAcc_refuses h (by simpa using state) _

/-- An ACC in a group in another state is refused. -/
theorem acc_refused {i : Instr × Nat × GState} (hi : i ∈ [(Instr.openZero c (.perform e), 0, GState.closed), (.openCupola c (.perform e), 1, .closed),
      (.openGroup c (.perform e), 2, .closed), (.openChain c (.perform e), 3, .closed), (.close c (.perform e), 4, .opened),
      (.closeChain c (.perform e), 5, .opened), (.save c (.perform e), 6, .opened)])
    (ready : AccReady s c e i.2.1 a) (idle : i.2.1 = 4 → NoClose s c e) (state : (s.group c e (aGroup a.entry.bits)).state ≠ i.2.2) :
    ∃ t, exec i.1 s = .next t ∧ AccRefused s t c e a := by
  simp only [List.mem_cons, List.not_mem_nil, or_false] at hi
  rcases hi with rfl | rfl | rfl | rfl | rfl | rfl | rfl
  case inr.inr.inr.inr.inl => exact performClose_refuses ready (idle rfl) state
  all_goals exact accRow_refuses ready state _

/-! ### The operations -/

theorem aAmax_iff (d : Desc) : aAmax d = true ↔ dBits d 10 1 1 = 1 := beq_iff_eq

theorem closeSaveAndStatusWriteCupola : CloseSaveAndStatusWriteCupola := by
  intro s c e a wf
  dsimp only
  refine ⟨fun ready idle state => ?begins, fun closing fit => ?ends, fun ready state => ?save, fun ready => ?status, fun ready state => ?chain,
    fun i hi ready idle state => ?refused⟩
  case begins =>
    obtain ⟨went, mem, blf, flags, group⟩ := modGroup_moved s c e a .epilogue fun g => { g with state := .closing }
    exact ⟨_, (exec_close ready.1).trans (congrArg _ (performClose_begins ready idle state)), went, mem, blf, flags, group⟩
  case ends =>
    obtain ⟨powered, -, -, -, op, -⟩ := id closing
    obtain ⟨⟨went, mem, group, flags⟩, ⟨values, maxima, outside⟩, raised⟩ := closeGroup_closes (c := c) (e := e) wf (closeFit_of_accBad op fit)
    refine ⟨_, (exec_close powered).trans (congrArg _ (performClose_ends closing)), went, group, fun rows words => ?_, fun b hb => ?_, fun b hb => ?_⟩
    · have apart : Apart c a.entry.bits (aRows a.entry.bits) := ⟨rows, fun amax => words ((aAmax_iff _).mp amax)⟩
      exact ⟨values apart, fun amax r hr within => rowMax_range (maxima apart ((aAmax_iff _).mpr amax) r hr within)⟩
    · refine outside b (hb.imp_right fun out r hr => ?_)
      obtain ⟨row, word⟩ := out r hr
      exact ⟨row, fun amax => word ((aAmax_iff _).mp amax)⟩
    · rw [flags b hb, raised b]
      rfl
  case save =>
    have acts := accRow_acts ready (legal := (· == .opened)) (by rw [state]; rfl) State.saveGroup
    exact ⟨_, acts, saveGroup_saves wf c e a⟩
  case status =>
    have acts := accRow_acts ready (legal := fun _ => true) rfl State.statusGroup
    obtain ⟨went, engine, others, above, record⟩ := statusGroup_records wf c e a
    simp only [Nat.zero_mul, Nat.add_zero]
    refine ⟨_, acts, went, engine, others, above, fun within small => ?_⟩
    obtain ⟨fields, promoted, replayed, last⟩ := record within
    obtain ⟨empty, chunks⟩ := fields.named small
    exact ⟨empty, chunks, fields.len, fields.state.trans (gstate_code _), fields.seeded, fields.poisoned, fields.rest, promoted, replayed, last⟩
  case chain =>
    obtain ⟨went, mem, blf, -, group⟩ := modGroup_moved s c e a .busy fun g =>
      { g with state := .closing, sent := 0, accepted := 0, resend := 0, chainDesc := a.entry.id, failed := false,
               wait := some (s.newWait .chainSend 0 16 a.entry.off 0) }
    exact ⟨_, _, accRow_acts ready (legal := (· == .opened)) (by rw [state]; rfl) State.closeChain, went, mem, blf, group, rfl, rfl, rfl⟩
  case refused =>
    obtain ⟨t, acts, refused⟩ := acc_refused hi ready idle state
    exact ⟨t, acts, refused.frozen, refused.code, refused.cls, refused.detail, refused.mem, refused.groups⟩

end Sys2Proof.Machine

open Sys2Proof.Machine

/-- Settles O22: an OPEN stores its rows and opens its group; SAVE, STATUS and the rows of a CLOSE are writes to Cupola in turn, of which each byte that one of
them alone covers holds its own; an operation in another group state is refused. -/
theorem accumulationGroupsFollowTheirOperations : Obligations.AccumulationGroupsFollowTheirOperations :=
  ⟨openOperationsSeedTheGroup, closeSaveAndStatusWriteCupola⟩

end

/-! ## WAIT_RETEST: a woken unit tests its wait again (R145, R181, R247) -/

section

namespace Sys2Proof.Machine

open Sys2Proof.Claims

variable {s t : State} {c : CoreId} {w : Wait}

/-- The counter test of a wait as the model makes it (R249). -/
theorem cntMet_eq_met (s : State) (c : CoreId) (w : Wait) : s.cntMet c w.counter.toNat w.thresh.toNat = met s c w := rfl

/-! ### An unmet wait sleeps on -/

theorem retestSeq_unmet (live : (s.core c).live = true) (woken : w.woken = true) (running : (s.core c).seq.freeze = none)
    (waits : (s.core c).seq.wait = some w) (unmet : met s c w = false) :
    s.retestSeq c = s.modSeq c fun q => { q with wait := some { w with woken := false } } := by
  simp [State.retestSeq, waits, woken, running, live, cntMet_eq_met, unmet]

theorem retestHead_unmet {u : UnitId} (live : (s.core c).live = true) (woken : w.woken = true) (running : ((s.core c).unitQ u).freeze = none)
    (waits : ((s.core c).unitQ u).wait = some w) (unmet : met s c w = false) :
    s.retestHead c u = s.modQ c u fun q => { q with wait := some { w with woken := false } } := by
  have still : met (s.modQ c u fun q => { q with wait := some { w with woken := false } }) c w = met s c w := by
    rw [met, met, (s.modQ_onlyCore c u _).cnt_eq]
  simp [State.retestHead, waits, woken, running, live, cntMet_eq_met, still, unmet]

theorem retestStage_none {e : EngId} (h : (s.eng c e).stageWait = none) : s.retestStage c e = s := by
  simp [State.retestStage, h]

theorem stageWait_modQ (s : State) (c : CoreId) (e : EngId) (f : UnitQ → UnitQ) : ((s.modQ c (.eng e) f).eng c e).stageWait = (s.eng c e).stageWait := by
  rw [State.modQ, State.eng_modEng]

/-! ### A met wait of the sequencer ends -/

/-- The sequencer's wait has ended. -/
def State.seqWoken (s : State) (c : CoreId) : State := s.modSeq c fun q => { q with wait := none }

theorem nextDesc_seqWoken (s : State) (c : CoreId) : (s.seqWoken c).nextDesc c = s.nextDesc c := by
  rw [State.seqWoken, State.nextDesc, State.seq_modSeq]
  rfl

section

variable (live : (s.core c).live = true) (woken : w.woken = true) (running : (s.core c).seq.freeze = none) (waits : (s.core c).seq.wait = some w)
  (holds : met s c w = true) {n : NextDesc} (next : s.nextDesc c = some n)
include live woken running waits holds next

theorem retestSeq_header (kind : w.kind = .header) :
    s.retestSeq c = s.modSeq c fun q => { q with wait := none, waitMet := some ((s.core c).predRuns n.d) } := by
  simp [State.retestSeq, waits, woken, running, live, cntMet_eq_met, holds, kind, State.seqMet, next]

theorem retestSeq_wait (kind : w.kind = .waitDesc) : s.retestSeq c = (s.seqWoken c).waitDone c n.d := by
  have there : (s.seqWoken c).nextDesc c = some n := (nextDesc_seqWoken s c).trans next
  simp only [State.seqWoken] at there
  simp [State.retestSeq, waits, woken, running, live, cntMet_eq_met, holds, kind, there, State.seqWoken]

end

/-! ### A met WAIT completes (R181) -/

/-- A sequencer that does not wait is left so by counter operations. -/
theorem CountedAll.awake {l : List (Nat × CntOp)} (h : CountedAll s t c l) (awake : (s.core c).seq.wait = none) : (t.core c).seq.wait = none := by
  obtain ⟨_, core⟩ := h.core
  rw [core]
  simp [rung, awake]

theorem completeOwn_awake (d : Desc) (skipped : Bool) (awake : (s.core c).seq.wait = none) :
    ((s.completeOwn c d skipped).core c).seq.wait = none := by
  rw [State.completeOwn_eq, State.seq_modSeq]
  exact (s.signalled_countedAll c d).awake awake

theorem advance_awake (awake : (s.core c).seq.wait = none) : ((s.advance c).core c).seq.wait = none := by
  unfold State.advance
  dsimp only
  split
  · split
    · simpa using awake
    · exact completeOwn_awake _ _ (by simp [awake])
  · rw [State.seq_modSeq]
    split <;> simpa [Sequencer.release] using awake

/-- Which signal a REPEAT gives depends on the loop the sequencer is in. -/
theorem loopSig_congr (h : (t.core c).seq.loop = (s.core c).seq.loop) : loopSig t c = loopSig s c := by
  rw [loopSig, loopSig, lastCopy, lastCopy, h]

theorem loopSig_none (h : (s.core c).seq.loop = none) : loopSig s c = [] ∧ (lastCopy s c).isSome = false := by
  simp [loopSig, lastCopy, h]

/-- The counter operation of a WAIT that is met, and the signals of its completion. -/
def waitOps (s : State) (c : CoreId) (d : Desc) : List (Nat × CntOp) := [(dWaitCnt d, .sub (wDec d))] ++ (sigOps d ++ loopSig s c)

/-- A met WAIT is done: its DEC is subtracted, and the sequencer has moved past it. -/
structure WaitEnded (s t : State) (c : CoreId) (d : Desc) : Prop where
  keeps : KeepsQueues s t c (waitOps s c d)
  awake : (t.core c).seq.wait = none
  retired : (t.core c).seq.retired = (s.core c).seq.retired + 1 + (if (lastCopy s c).isSome then 1 else 0)

theorem waitDone_waitEnded (d : Desc) (awake : (s.core c).seq.wait = none) : WaitEnded s (s.waitDone c d) c d := by
  have subtracted : CountedAll s (s.cntOp c (Fin.ofNat 64 (dWaitCnt d)) (.sub (wDec d))) c [(dWaitCnt d, .sub (wDec d))] := by
    have counted := s.cntOp_countedAll c (Fin.ofNat 64 (dWaitCnt d)) (.sub (wDec d))
    rwa [Fin.val_ofNat, Nat.mod_eq_of_lt (show dWaitCnt d < 64 from dWaitCnt_lt d)] at counted
  unfold State.waitDone State.finishOwn
  generalize s.cntOp c (Fin.ofNat 64 (dWaitCnt d)) (.sub (wDec d)) = r at subtracted
  have completed := r.completeOwn_keepsQueues c d false
  have seq := r.completeOwn_seq c d false
  have slept := completeOwn_awake d false (subtracted.awake awake)
  generalize r.completeOwn c d false = x at completed seq slept
  have past := x.advance_pastNext c
  have loop : (x.core c).seq.loop = (s.core c).seq.loop := by rw [seq, subtracted.seq]
  have last : lastCopy x c = lastCopy s c := by rw [lastCopy, lastCopy, loop]
  refine ⟨?_, advance_awake slept, ?_⟩
  · rw [waitOps, ← loopSig_congr loop]
    exact subtracted.keepsQueues.trans (completed.trans past.keeps)
  · rw [past.seq, last, seq, subtracted.seq]

end Sys2Proof.Machine

namespace Sys2Proof.Claims

open Sys2Proof.Machine

/-- O10 (a). -/
theorem wokenUnitsTestTheirWaitAgain : WokenUnitsTestTheirWaitAgain := by
  intro s c w powered live woken
  have act (u : UnitId) : exec (.waitRetest c u) s = .next (s.retest c u) := ev_powered s (·.retest c u) powered
  refine ⟨fun running waits unmet => ?sequencer, fun u performer running waits unmet => ?performer, fun e running waits stage unmet => ?engine,
    fun n running waits header holds next => ?header, fun n running waits desc holds next => ?done⟩
  case sequencer => exact ⟨_, act .seq, retestSeq_unmet live woken running waits unmet⟩
  case performer =>
    have head := retestHead_unmet live woken running waits unmet
    rcases performer with rfl | rfl
    · exact ⟨_, act .vec, head⟩
    · exact ⟨_, act .mover, head⟩
  case engine =>
    have head := retestHead_unmet (u := .eng e) live woken running waits unmet
    refine ⟨_, act (.eng e), ?_⟩
    rw [State.retest, head]
    exact retestStage_none ((stageWait_modQ s c e _).trans stage)
  case header => exact ⟨_, act .seq, retestSeq_header live woken running waits holds next header⟩
  case done =>
    have ended : WaitEnded (s.seqWoken c) ((s.seqWoken c).waitDone c n.d) c n.d := waitDone_waitEnded n.d (by rw [State.seqWoken, State.seq_modSeq])
    have before : KeepsQueues s (s.seqWoken c) c [] := s.modSeq_keepsQueues c _
    have seq : ((s.seqWoken c).core c).seq = { (s.core c).seq with wait := none } := s.seq_modSeq c _
    have both := before.trans ended.keeps
    refine ⟨_, (act .seq).trans (congrArg _ (retestSeq_wait live woken running waits holds next desc)), ended.awake, both.bytes, both.others,
      fun unsigned loop => ?_⟩
    obtain ⟨sig, last⟩ := loopSig_none (s := s.seqWoken c) (c := c) (by rw [seq]; exact loop)
    refine ⟨?_, ?_⟩
    · rw [ended.retired, last, seq]
      simp
    · have count := both.cnt (dWaitCnt n.d) (dWaitCnt_lt n.d)
      rw [waitOps, sig, sigOps, unsigned] at count
      simpa [counts, cntAt, countTo] using count

end Sys2Proof.Claims

end

/-! ## Time passes up to the moment a wait expires (R250) -/

section

namespace Sys2Proof.Machine

open Sys2Proof.Claims

variable {s t : State} {c : CoreId} {k l : Core}

/-! ### The waits of a core -/

/-- Where a wait stands: at a unit's next descriptor, at the LOADB an engine is to stage, or at a group's chain (Table SYN-2). -/
inductive WaitPlace where
  | head (u : UnitId) | stage (e : EngId) | chain (e : EngId) (g : GroupId)
deriving DecidableEq

/-- The wait that stands there. -/
def WaitPlace.wait (k : Core) : WaitPlace → Option Wait
  | .head u => (k.unitQ u).wait
  | .stage e => k.eng[e].stageWait
  | .chain e g => (k.eng[e].groups[g]).wait

/-- A wait of a performer, the sequencer, an engine's staging or a group changed. -/
def UnitQ.mapWait (f : Wait → Wait) (q : UnitQ) : UnitQ := { q with wait := q.wait.map f }

def Sequencer.mapWait (f : Wait → Wait) (q : Sequencer) : Sequencer := { q with wait := q.wait.map f }

def Engine.mapStage (f : Wait → Wait) (x : Engine) : Engine := { x with stageWait := x.stageWait.map f }

def Group.mapWait (f : Wait → Wait) (x : Group) : Group := { x with wait := x.wait.map f }

/-- Change the wait that stands there. -/
def State.modWait (s : State) (c : CoreId) (f : Wait → Wait) : WaitPlace → State
  | .head .seq => s.modSeq c (Sequencer.mapWait f)
  | .head u => s.modQ c u (UnitQ.mapWait f)
  | .stage e => s.modEng c e (Engine.mapStage f)
  | .chain e g => s.modGroup c e g (Group.mapWait f)

/-! ### A core some time later -/

/-- Core `l` is core `k` after `d` bt in a state in which its waits age (R250). -/
structure Aged (d : Nat) (k l : Core) : Prop where
  cnt : l.cnt = k.cnt
  freeze : ∀ u, (l.unitQ u).freeze = (k.unitQ u).freeze
  queue : ∀ u, (l.unitQ u).queue = (k.unitQ u).queue
  active : ∀ u, (l.unitQ u).active = (k.unitQ u).active
  wait : ∀ p : WaitPlace, p.wait l = (p.wait k).map (Wait.age d)
  outst : l.outst = k.outst.map fun o => { o with elapsed := o.elapsed + d }

theorem Core.age_cnt (d : Nat) (k : Core) : (k.age d).cnt = k.cnt := by
  unfold Core.age
  dsimp only
  split <;> rfl

theorem Core.age_aged (d : Nat) (c2 : k.cstate ≠ .c2) (c3 : k.cstate ≠ .c3) : Aged d k (k.age d) := by
  have awake : (k.cstate == .c2 || k.cstate == .c3) = false := by simp [c2, c3]
  unfold Core.age
  dsimp only
  rw [awake, if_neg Bool.false_ne_true]
  exact {
    cnt := rfl
    freeze := fun u => by cases u <;> simp [Core.unitQ, UnitQ.age]
    queue := fun u => by cases u <;> simp [Core.unitQ, UnitQ.age]
    active := fun u => by cases u <;> simp [Core.unitQ, UnitQ.age]
    wait := fun p => by
      cases p with
      | head u => cases u <;> simp [WaitPlace.wait, Core.unitQ, UnitQ.age]
      | _ => simp [WaitPlace.wait]
    outst := rfl }

theorem Aged.refl (k : Core) : Aged 0 k k where
  cnt := rfl
  freeze _ := rfl
  queue _ := rfl
  active _ := rfl
  wait p := by simp [show Wait.age 0 = id from rfl]
  outst := by simp

/-- Up to the moment `d` bt from now: the clock moves, and each core ages. -/
theorem core_advanceTo (s : State) (c : CoreId) (d : Nat) : (s.advanceTo (s.now + d)).core c = if d = 0 then s.core c else (s.core c).age d := by
  unfold State.advanceTo
  by_cases none : d = 0
  · simp [none]
  · rw [if_pos (by omega), if_neg none, Nat.add_sub_cancel_left]
    simp [State.core]

theorem advanceTo_aged (d : Nat) (c2 : (s.core c).cstate ≠ .c2) (c3 : (s.core c).cstate ≠ .c3) :
    Aged d (s.core c) ((s.advanceTo (s.now + d)).core c) := by
  rw [core_advanceTo]
  split
  case isTrue none =>
    rw [none]
    exact .refl _
  case isFalse => exact Core.age_aged d c2 c3

theorem advanceTo_cnt (s : State) (c : CoreId) (d : Nat) : ((s.advanceTo (s.now + d)).core c).cnt = (s.core c).cnt := by
  rw [core_advanceTo]
  split
  · rfl
  · exact Core.age_cnt d _

theorem advanceTo_waitDefault (s : State) (m : Nat) : (s.advanceTo m).blf.waitDefault = s.blf.waitDefault := by
  unfold State.advanceTo
  split <;> rfl

end Sys2Proof.Machine

end

/-! ## WAIT_TIMEOUT: an unmet wait expires (R250, R251) -/

section

namespace Sys2Proof.Machine

open Sys2Proof.Claims

variable {s t : State} {c : CoreId} {k l : Core} {u : UnitId} {g : Option GroupId} {p : WaitPlace} {w : Wait}

/-- What is left of a wait's timeout. -/
def Wait.left (w : Wait) : Nat := w.timeout - w.elapsed

/-- The wait that WAIT_TIMEOUT names for unit `u` and group `g` is `w`, standing at `p`: of an engine's two header waits the one that expires first. -/
inductive Awaits (k : Core) : UnitId → Option GroupId → WaitPlace → Wait → Prop
  | chain {e : EngId} {g : GroupId} {w : Wait} (stands : (WaitPlace.chain e g).wait k = some w) : Awaits k (.eng e) (some g) (.chain e g) w
  | unit {u : UnitId} {w : Wait} (plain : ∀ e, u ≠ .eng e) (stands : (WaitPlace.head u).wait k = some w) : Awaits k u none (.head u) w
  | head {e : EngId} {w : Wait} (stands : (WaitPlace.head (.eng e)).wait k = some w)
      (first : ∀ v, (WaitPlace.stage e).wait k = some v → w.left ≤ v.left) : Awaits k (.eng e) none (.head (.eng e)) w
  | stage {e : EngId} {w : Wait} (stands : (WaitPlace.stage e).wait k = some w)
      (first : ∀ v, (WaitPlace.head (.eng e)).wait k = some v → w.left < v.left) : Awaits k (.eng e) none (.stage e) w

theorem Awaits.stands (h : Awaits k u g p w) : p.wait k = some w := by
  cases h <;> assumption

/-- Of two waits of an engine one expires first. -/
theorem exists_awaits_eng {e : EngId} (h : waitOf s c (.eng e) none = some w) : ∃ p, Awaits (s.core c) (.eng e) none p w := by
  have headPlace : (WaitPlace.head (.eng e)).wait (s.core c) = (s.eng c e).q.wait := rfl
  have stagePlace : (WaitPlace.stage e).wait (s.core c) = (s.eng c e).stageWait := rfl
  cases head : (s.eng c e).q.wait with
  | none =>
    simp only [waitOf, head, Option.orElse_none] at h
    exact ⟨_, .stage h (by simp [headPlace, head])⟩
  | some x =>
    cases stage : (s.eng c e).stageWait with
    | none =>
      simp only [waitOf, head, stage, Option.orElse_some] at h
      obtain rfl := Option.some.inj h
      exact ⟨_, .head head (by simp [stagePlace, stage])⟩
    | some y =>
      simp only [waitOf, head, stage] at h
      split at h
      case isTrue sooner =>
        obtain rfl := Option.some.inj h
        exact ⟨_, .stage stage (by simpa [headPlace, head, Wait.left] using sooner)⟩
      case isFalse later =>
        obtain rfl := Option.some.inj h
        exact ⟨_, .head head (by simpa [stagePlace, stage, Wait.left] using later)⟩

theorem exists_awaits (h : waitOf s c u g = some w) : ∃ p, Awaits (s.core c) u g p w := by
  cases g with
  | some g =>
    cases u with
    | eng e => exact ⟨_, .chain h⟩
    | _ => simp [waitOf] at h
  | none =>
    cases u with
    | eng e => exact exists_awaits_eng h
    | _ => exact ⟨_, .unit (by simp) h⟩

theorem Awaits.waitOf (h : Awaits (s.core c) u g p w) : waitOf s c u g = some w := by
  cases h with
  | chain stands => exact stands
  | unit plain stands =>
    cases u with
    | eng e => exact absurd rfl (plain e)
    | _ => exact stands
  | @head e _ stands first =>
    have head : (s.eng c e).q.wait = some w := stands
    cases stage : (s.eng c e).stageWait with
    | none => simp [Claims.waitOf, head, stage]
    | some v =>
      have sooner := first v stage
      simp only [Claims.waitOf, head, stage]
      exact if_neg (Nat.not_lt.mpr sooner)
  | @stage e _ stands first =>
    have stage : (s.eng c e).stageWait = some w := stands
    cases head : (s.eng c e).q.wait with
    | none => simp [Claims.waitOf, head, stage]
    | some v =>
      have sooner := first v head
      simp only [Claims.waitOf, head, stage]
      exact if_pos sooner

/-- WAIT_TIMEOUT marks the wait it names. -/
theorem Awaits.waitTimeout (h : Awaits (s.core c) u g p w) : s.waitTimeout c u g = s.expire c u g w fun s => s.modWait c Wait.lapse p := by
  cases h with
  | chain stands =>
    have wait : (s.group c _ _).wait = some w := stands
    simp only [State.waitTimeout, wait]
    rfl
  | unit plain stands =>
    cases u with
    | eng e => exact absurd rfl (plain e)
    | seq =>
      have wait : (s.core c).seq.wait = some w := stands
      simp only [State.waitTimeout, wait]
      rfl
    | _ =>
      have wait : ((s.core c).unitQ _).wait = some w := stands
      simp only [State.waitTimeout, wait]
      rfl
  | @head e _ stands first =>
    have head : (s.eng c e).q.wait = some w := stands
    have named : (s.eng c e).firstWait = some (w, false) := by
      cases stage : (s.eng c e).stageWait with
      | none => simp [Engine.firstWait, head, stage]
      | some v =>
        have sooner := first v stage
        simp only [Engine.firstWait, head, stage]
        exact congrArg some (if_neg (Nat.not_lt.mpr sooner))
    simp only [State.waitTimeout, named]
    rfl
  | @stage e _ stands first =>
    have stage : (s.eng c e).stageWait = some w := stands
    have named : (s.eng c e).firstWait = some (w, true) := by
      cases head : (s.eng c e).q.wait with
      | none => simp [Engine.firstWait, head, stage]
      | some v =>
        have sooner := first v head
        simp only [Engine.firstWait, head, stage]
        exact congrArg some (if_pos sooner)
    simp only [State.waitTimeout, named]
    rfl

/-- When the wait named has expired and every other has aged as long, it is still the one that is named. -/
theorem Awaits.lapsed (h : Awaits k u g p w)
    (aged : ∀ q : WaitPlace, q.wait l = ((q.wait k).map (Wait.age w.left)).map (if q = p then Wait.lapse else id)) :
    Awaits l u g p (w.age w.left).lapse := by
  have here : p.wait l = some (w.age w.left).lapse := by
    rw [aged, h.stands]
    simp
  have left (v : Wait) : (v.age w.left).left = v.left - w.left := by
    simp only [Wait.left, Wait.age]
    omega
  have gone (v : Wait) : v.lapse.left = v.left := rfl
  cases h with
  | chain => exact .chain here
  | unit plain => exact .unit plain here
  | head stands first =>
    refine .head here fun v hv => ?_
    rw [gone, left]
    omega
  | stage stands first =>
    refine .stage here fun v hv => ?_
    rw [aged] at hv
    obtain ⟨x, hx, rfl⟩ := by simpa using hv
    have sooner := first x hx
    rw [gone, left, left]
    omega

/-! ### What marking and freezing leave alone -/

theorem OnlyCore.now (h : OnlyCore s t c) : t.now = s.now := by rw [h.die]

theorem modWait_head {u : UnitId} (hu : u ≠ .seq) (s : State) (c : CoreId) (f : Wait → Wait) : s.modWait c f (.head u) = s.modQ c u (UnitQ.mapWait f) := by
  cases u with
  | seq => exact absurd rfl hu
  | _ => rfl

theorem modWait_afterAnswer (s : State) (c : CoreId) (f : Wait → Wait) (p : WaitPlace) : AfterAnswer s (s.modWait c f p) c := by
  cases p with
  | head u =>
    by_cases hu : u = .seq
    · rw [hu]
      exact s.modSeq_afterAnswer c fun _ => ⟨rfl, rfl⟩
    · rw [modWait_head hu]
      exact s.modQ_afterAnswer c u fun _ => rfl
  | stage e => exact s.modEng_afterAnswer c e fun _ => rfl
  | chain e g => exact s.modGroup_afterAnswer c e g _

theorem modWait_sameQueues (s : State) (c : CoreId) (f : Wait → Wait) (p : WaitPlace) : SameQueues s (s.modWait c f p) c := by
  cases p with
  | head u =>
    by_cases hu : u = .seq
    · rw [hu]
      exact (s.modSeq_keepsQueues c _).sameQueues
    · rw [modWait_head hu]
      exact s.modQ_sameQueues c (f := UnitQ.mapWait f) (fun _ => ⟨rfl, rfl⟩) u
  | stage e => exact fun v => by rw [State.modWait, s.unitQ_modEng c e (f := Engine.mapStage f) fun _ => rfl]; exact ⟨rfl, rfl⟩
  | chain e g => exact fun v => by rw [State.modWait, s.unitQ_modGroup c e g]; exact ⟨rfl, rfl⟩

/-- The engines of a core with one changed. -/
theorem engines_modEng (s : State) (c : CoreId) (e x : EngId) (f : Engine → Engine) :
    ((s.modEng c e f).core c).eng[x] = if x = e then f (s.core c).eng[x] else (s.core c).eng[x] := by
  rw [State.core_modEng, getElem_upd]

/-- The waits of a core with a performer's queue changed. -/
theorem wait_modQ {u : UnitId} (hu : u ≠ .seq) (s : State) (c : CoreId) (f : UnitQ → UnitQ) (p : WaitPlace) :
    p.wait ((s.modQ c u f).core c) = if p = .head u then (f ((s.core c).unitQ u)).wait else p.wait (s.core c) := by
  have engine (e : EngId) : ((s.modQ c u f).core c).eng[e].stageWait = (s.core c).eng[e].stageWait
      ∧ ((s.modQ c u f).core c).eng[e].groups = (s.core c).eng[e].groups := by
    cases u with
    | eng x =>
      rw [State.modQ, engines_modEng]
      split <;> exact ⟨rfl, rfl⟩
    | _ => simp [State.modQ]
  cases p with
  | head v =>
    by_cases hv : v = u
    · rw [hv, if_pos rfl, WaitPlace.wait, s.unitQ_modQ c f hu]
    · rw [if_neg (by simpa using hv), WaitPlace.wait, s.unitQ_modQ_other c f hv]
      rfl
  | stage e => exact (engine e).1
  | chain e g => exact congrArg (fun v : Vector Group 8 => v[g].wait) (engine e).2

/-- The waits of a core with its sequencer changed. -/
theorem wait_modSeq (s : State) (c : CoreId) (f : Sequencer → Sequencer) (p : WaitPlace) :
    p.wait ((s.modSeq c f).core c) = if p = .head .seq then (f (s.core c).seq).wait else p.wait (s.core c) := by
  rw [State.core_modSeq]
  cases p with
  | head v => cases v <;> rfl
  | _ => rfl

theorem modWait_wait (s : State) (c : CoreId) (f : Wait → Wait) (p q : WaitPlace) :
    q.wait ((s.modWait c f p).core c) = (q.wait (s.core c)).map (if q = p then f else id) := by
  cases p with
  | head u =>
    by_cases hu : u = .seq
    · rw [hu, State.modWait, wait_modSeq]
      by_cases hq : q = .head .seq <;> simp [hq, Sequencer.mapWait, WaitPlace.wait, Core.unitQ]
    · rw [modWait_head hu, wait_modQ hu]
      by_cases hq : q = .head u <;> simp [hq, UnitQ.mapWait, WaitPlace.wait]
  | stage e =>
    cases q with
    | head v =>
      rw [State.modWait, WaitPlace.wait, s.unitQ_modEng c e (f := Engine.mapStage f) fun _ => rfl, if_neg (by simp), Option.map_id]
      rfl
    | stage x =>
      rw [WaitPlace.wait, WaitPlace.wait, State.modWait, engines_modEng]
      by_cases hx : x = e <;> simp [hx, Engine.mapStage]
    | chain x g =>
      rw [WaitPlace.wait, WaitPlace.wait, State.modWait, engines_modEng]
      by_cases hx : x = e <;> simp [hx, Engine.mapStage]
  | chain e g =>
    cases q with
    | head v =>
      rw [State.modWait, WaitPlace.wait, s.unitQ_modGroup c e g, if_neg (by simp), Option.map_id]
      rfl
    | stage x =>
      rw [WaitPlace.wait, WaitPlace.wait, State.modWait, State.modGroup, engines_modEng]
      by_cases hx : x = e <;> simp [hx]
    | chain x h =>
      rw [WaitPlace.wait, WaitPlace.wait, State.modWait, State.modGroup, engines_modEng]
      by_cases hx : x = e
      · subst hx
        rw [if_pos rfl, getElem_upd]
        by_cases hh : h = g <;> simp [hh, Group.mapWait]
      · simp [hx]

theorem freezeUnit_wait (s : State) (c : CoreId) (u : UnitId) (cause : FreezeCause) (discard : Bool) (desc : Option Nat) (p : WaitPlace) :
    p.wait ((s.freezeUnit c u cause discard desc).core c) = p.wait (s.core c) := by
  have kept {f : Sequencer → Sequencer} (hf : ∀ q, (f q).wait = q.wait) (r : State) : p.wait ((r.modSeq c f).core c) = p.wait (r.core c) := by
    rw [wait_modSeq, hf]
    split
    case isTrue here => rw [here]; rfl
    case isFalse => rfl
  unfold State.freezeUnit
  extract_lets stops r
  have frozen : p.wait (r.core c) = p.wait (s.core c) := by
    by_cases hu : u = .seq
    · simp only [r, hu]
      exact kept (by intro q; rfl) s
    · have queued : r = s.modQ c u fun q => { q with freeze := mergeFreeze q.freeze cause discard } := by
        cases u with
        | seq => exact absurd rfl hu
        | _ => rfl
      rw [queued, wait_modQ hu]
      split
      case isTrue here => rw [here]; rfl
      case isFalse => rfl
  cases desc with
  | none => exact frozen
  | some d =>
    dsimp only
    split
    · exact (kept (by intro q; rfl) r).trans frozen
    · exact frozen

/-! ### The wait expires -/

/-- What an expired wait of unit `u` logs (R251). -/
def expiryInfo (c : CoreId) (u : UnitId) (g : Option GroupId) (w : Wait) : FaultInfo :=
  { cls := .contained, code := 0x601, block := (unitSource c u).1, inst := (unitSource c u).2, pkey := none, detail := w.desc, address := w.address g }

/-- The moment a wait expires. -/
def State.atExpiry (s : State) (w : Wait) : State := s.advanceTo (s.now + w.left)

theorem mayExpire_unmet (running : s.frozen c u = none) (c0 : (s.core c).cstate = .c0) (unmet : onCounter w = true → met s c w = false) :
    s.mayExpire c u w = true := by
  have still : ((w.kind != .waitDesc && w.kind != .header) || !s.cntMet c w.counter.toNat w.thresh.toNat) = true := by
    rw [cntMet_eq_met]
    cases counted : onCounter w with
    | true => simp [unmet counted]
    | false =>
      simp only [onCounter, Bool.or_eq_false_iff, beq_eq_false_iff_ne] at counted
      simp [counted]
  simp [State.mayExpire, running, c0, still]

theorem Awaits.expires (h : Awaits (s.core c) u g p w) (running : s.frozen c u = none) (c0 : (s.core c).cstate = .c0)
    (unmet : onCounter w = true → met s c w = false) : s.waitTimeout c u g
      = (((s.atExpiry w).log (expiryInfo c u g w)).freezeUnit c u .waitTimeout false (some w.desc)).modWait c Wait.lapse p := by
  rw [h.waitTimeout, State.expire, mayExpire_unmet running c0 unmet]
  rfl

end Sys2Proof.Machine

namespace Sys2Proof.Claims

open Sys2Proof.Machine

/-- O10 (b). -/
theorem expiredWaitsFreezeTheirUnit : ExpiredWaitsFreezeTheirUnit := by
  intro s c u g w powered named running c0 unmet
  obtain ⟨p, awaits⟩ := exists_awaits named
  have aged : Aged w.left (s.core c) ((s.atExpiry w).core c) := advanceTo_aged w.left (by simp [c0]) (by simp [c0])
  obtain ⟨r, hr⟩ : ∃ r, r = (s.atExpiry w).log (expiryInfo c u g w) := ⟨_, rfl⟩
  have logged (d : CoreId) : r.core d = (s.atExpiry w).core d := by rw [hr, State.core_log]
  have still : r.frozen c u = none := by
    rw [State.frozen, logged, aged.freeze]
    exact running
  have frozen := r.freezeUnit_onlyCore c u .waitTimeout false (some w.desc)
  have queues := r.freezeUnit_sameQueues c u .waitTimeout false (some w.desc)
  have marked := modWait_afterAnswer (r.freezeUnit c u .waitTimeout false (some w.desc)) c Wait.lapse p
  have unqueued := modWait_sameQueues (r.freezeUnit c u .waitTimeout false (some w.desc)) c Wait.lapse p
  have record := (marked.lastRecord.trans frozen.lastRecord).trans (hr ▸ lastRecord_log (s.atExpiry w) (expiryInfo c u g w))
  have waits := awaits.lapsed (l := ((r.freezeUnit c u .waitTimeout false (some w.desc)).modWait c Wait.lapse p).core c) fun q => by
    rw [modWait_wait, freezeUnit_wait, logged, aged.wait]
  refine ⟨_, (ev_powered s (·.waitTimeout c u g) powered).trans (congrArg _ ((awaits.expires running c0 unmet).trans (by rw [← hr]))), ?_,
    ⟨_, waits.waitOf, rfl, rfl, rfl, rfl, rfl⟩, ?_, ?_, ?_, ?_, ?_, ?_, ?_, fun d => ?_, ?_, ?_⟩
  · rw [marked.frozen, State.frozen_freezeUnit, still]
    rfl
  · rw [marked.now, frozen.now, hr, State.log_now, State.atExpiry, State.advanceTo_now, Nat.max_eq_right (Nat.le_add_right _ _)]
    rfl
  · rw [record]
    rfl
  · rw [record]
    rfl
  · rw [record]
    rfl
  · rw [record]
    cases g <;> rfl
  · rw [marked.faultDesc, State.freezeUnit_faultDesc _ c still]
  · rw [marked.mem, frozen.mem, hr, State.log_mem, State.atExpiry, State.advanceTo_mem]
  · rw [marked.cnt_eq, frozen.cnt_eq, logged, State.atExpiry, advanceTo_cnt]
  · rw [(unqueued u).1, (queues u).1, logged, aged.queue]
  · rw [(unqueued u).2, (queues u).2, logged, aged.active]

end Sys2Proof.Claims

end

/-! ## ANSWER_WAIT_TIMEOUT: an answer that does not come fails its operation (R252, R255) -/

section

namespace Sys2Proof.Machine

open Sys2Proof.Claims

variable {s t r : State} {c : CoreId} {u : UnitId} {tag : Nat} {o : Outst}

/-! ### What a failed operation leaves of the entries and their tags -/

/-- Core `c` has as many entries as before, and the same tags rest. -/
def KeepsTags (s t : State) (c : CoreId) : Prop :=
  (t.core c).outst.length = (s.core c).outst.length ∧ (t.core c).deadTags = (s.core c).deadTags

theorem KeepsTags.refl (s : State) (c : CoreId) : KeepsTags s s c := ⟨rfl, rfl⟩

theorem KeepsTags.trans (h : KeepsTags s t c) (h' : KeepsTags t r c) : KeepsTags s r c := ⟨h'.1.trans h.1, h'.2.trans h.2⟩

/-- Entries that change, none being added or dropped. -/
theorem modOutst_keepsTags (s : State) (c : CoreId) (f : Outst → Outst) : KeepsTags s (s.modCore c fun k => { k with outst := k.outst.map f }) c := by
  simp [KeepsTags]

theorem modSeq_keepsTags (s : State) (c : CoreId) (f : Sequencer → Sequencer) : KeepsTags s (s.modSeq c f) c := by simp [KeepsTags]

theorem modMov_keepsTags (s : State) (c : CoreId) (f : Mover → Mover) : KeepsTags s (s.modMov c f) c := by simp [KeepsTags]

theorem modEng_keepsTags (s : State) (c : CoreId) (e : EngId) (f : Engine → Engine) : KeepsTags s (s.modEng c e f) c := by simp [KeepsTags]

theorem modQ_keepsTags (s : State) (c : CoreId) (u : UnitId) (f : UnitQ → UnitQ) : KeepsTags s (s.modQ c u f) c := by
  cases u <;> simp [KeepsTags, State.modQ]

theorem freezeUnit_keepsTags (s : State) (c : CoreId) (u : UnitId) (cause : FreezeCause) (discard : Bool) (desc : Option Nat) :
    KeepsTags s (s.freezeUnit c u cause discard desc) c := by
  unfold State.freezeUnit
  extract_lets stops r
  have frozen : KeepsTags s r c := by
    cases u with
    | seq => exact modSeq_keepsTags s c _
    | _ => exact modQ_keepsTags s c _ _
  cases desc with
  | none => exact frozen
  | some d =>
    dsimp only
    split
    · exact frozen.trans (modSeq_keepsTags r c _)
    · exact frozen

theorem failOp_keepsTags (s : State) (c : CoreId) (u : UnitId) (id : Nat) : KeepsTags s (s.failOp c u id) c := by
  unfold State.failOp
  extract_lets t r
  have failed : KeepsTags s r c := (modOutst_keepsTags s c _).trans (modQ_keepsTags t c u _)
  cases u with
  | mover => exact failed.trans (modMov_keepsTags r c _)
  | eng e =>
    dsimp only
    split
    · exact (failed.trans (modEng_keepsTags r c e _)).trans (modEng_keepsTags _ c e _)
    · exact failed
  | _ => exact failed

theorem failEntry_keepsTags (s : State) (c : CoreId) (u : UnitId) (o : Outst) : KeepsTags s (s.failEntry c u o) c := by
  unfold State.failEntry
  split
  · exact (modOutst_keepsTags s c _).trans (modSeq_keepsTags _ c _)
  · exact failOp_keepsTags s c u o.desc

/-! ### The entry is freed, its operation fails and its unit is frozen -/

/-- Entry `x` is one of unit `u` with TAG `tag`. -/
def isEntry (u : UnitId) (tag : Nat) (x : Outst) : Bool := x.unit.toNat == unitNum u && x.pkt.tag.toNat == tag

/-- The moment the answer is given up, the entry freed and its TAG put to rest. -/
def State.givenUp (s : State) (c : CoreId) (u : UnitId) (tag : Nat) (o : Outst) : State :=
  (s.advanceTo (s.now + (o.timeout - o.elapsed))).modCore c fun k => { k with
    outst := k.outst.filter fun x => !isEntry u tag x
    deadTags := (tag, (s.advanceTo (s.now + (o.timeout - o.elapsed))).now + (s.advanceTo (s.now + (o.timeout - o.elapsed))).waitDefault)
      :: k.deadTags.filter fun x => x.1 != tag }

/-- What an answer given up logs (R252). -/
def unansweredInfo (c : CoreId) (u : UnitId) (tag : Nat) (o : Outst) : FaultInfo :=
  { cls := .contained, code := 0x601, block := (unitSource c u).1, inst := (unitSource c u).2, pkey := none, detail := o.off, address := 128 + tag }

/-- It is logged once for an operation. -/
def State.loggedUnanswered (s : State) (c : CoreId) (u : UnitId) (tag : Nat) (o : Outst) : State :=
  if o.failed then s else s.log (unansweredInfo c u tag o)

/-- The operation of an unanswered entry fails, and its unit is frozen. -/
def State.unanswered (s : State) (c : CoreId) (u : UnitId) (o : Outst) : State :=
  ((s.failEntry c u o).freezeUnit c u .answerTimeout true (some o.off)).noteAnswer c u o

theorem answerTimeout_eq (found : (s.core c).outst.find? (isEntry u tag) = some o) (ours : o.spec = false) (c2 : (s.core c).cstate ≠ .c2)
    (c3 : (s.core c).cstate ≠ .c3) : s.answerTimeout c u tag = ((s.givenUp c u tag o).loggedUnanswered c u tag o).unanswered c u o := by
  have entry : (s.core c).outst.find? (fun o => o.unit.toNat == unitNum u && o.pkt.tag.toNat == tag) = some o := found
  unfold State.answerTimeout
  simp only [entry, ours, c2, c3, or_self, if_false, Bool.false_eq_true]
  rfl

/-- The entries of a core from which the answer was given up. -/
structure GivenUp (s t : State) (c : CoreId) (u : UnitId) (tag : Nat) (o : Outst) : Prop where
  freed : ∀ x ∈ (t.core c).outst, isEntry u tag x = false
  fewer : (t.core c).outst.length < (s.core c).outst.length
  rests : (tag, t.now + s.blf.waitDefault.toNat) ∈ (t.core c).deadTags
  now : t.now = s.now + (o.timeout - o.elapsed)
  mem : t.mem = s.mem
  cnt : ∀ d, (t.core d).cnt = (s.core d).cnt
  frozen : t.frozen c u = s.frozen c u

theorem givenUp_frees (found : (s.core c).outst.find? (isEntry u tag) = some o) (c2 : (s.core c).cstate ≠ .c2) (c3 : (s.core c).cstate ≠ .c3) :
    GivenUp s (s.givenUp c u tag o) c u tag o := by
  have aged := advanceTo_aged (s := s) (o.timeout - o.elapsed) c2 c3
  have default := advanceTo_waitDefault s (s.now + (o.timeout - o.elapsed))
  have moment : (s.advanceTo (s.now + (o.timeout - o.elapsed))).now = s.now + (o.timeout - o.elapsed) := by
    rw [State.advanceTo_now, Nat.max_eq_right (Nat.le_add_right _ _)]
  have cnt (d : CoreId) := advanceTo_cnt s d (o.timeout - o.elapsed)
  have mem := s.advanceTo_mem (s.now + (o.timeout - o.elapsed))
  unfold State.givenUp
  generalize s.advanceTo (s.now + (o.timeout - o.elapsed)) = r at aged default moment cnt mem
  have keeps : KeepsFreezes r (r.modCore c fun k => { k with
      outst := k.outst.filter fun x => !isEntry u tag x, deadTags := (tag, r.now + r.waitDefault) :: k.deadTags.filter fun x => x.1 != tag }) c :=
    r.modCore_keepsFreezes c (fun _ => rfl) fun k v => by cases v <;> rfl
  exact {
    freed := fun x hx => by
      rw [State.core_modCore] at hx
      simpa using (List.mem_filter.mp hx).2
    fewer := by
      obtain ⟨here, there⟩ := And.intro (List.find?_some found) (List.mem_of_find?_eq_some found)
      have entries : (r.core c).outst.length = (s.core c).outst.length := by rw [aged.outst, List.length_map]
      rw [State.core_modCore, ← entries]
      refine List.length_filter_lt_length_iff_exists.mpr ⟨{ o with elapsed := o.elapsed + (o.timeout - o.elapsed) }, ?_, ?_⟩
      · rw [aged.outst]
        exact List.mem_map_of_mem there
      · simpa [isEntry] using here
    rests := by
      rw [State.core_modCore, ← default]
      exact List.mem_cons_self
    now := keeps.now.trans moment
    mem := keeps.mem.trans mem
    cnt := fun d => (keeps.cnt_eq d).trans (cnt d)
    frozen := by
      rw [keeps.frozen, State.frozen, aged.freeze]
      rfl }

theorem GivenUp.logged (h : GivenUp s t c u tag o) : GivenUp s (t.loggedUnanswered c u tag o) c u tag o := by
  unfold State.loggedUnanswered
  split
  · exact h
  · have same (d : CoreId) : (t.log (unansweredInfo c u tag o)).core d = t.core d := State.core_log t d _
    exact ⟨by rw [same]; exact h.freed, by rw [same]; exact h.fewer, by rw [same, State.log_now]; exact h.rests, (State.log_now ..).trans h.now,
      (State.log_mem ..).trans h.mem, fun d => by rw [same]; exact h.cnt d, by rw [State.frozen, same]; exact h.frozen⟩

/-- The freeze of a unit with the answer wait noted (R255). -/
theorem frozen_noteAnswer (hu : u ≠ .seq) (s : State) (c : CoreId) (o : Outst) : (s.noteAnswer c u o).frozen c u = (s.frozen c u).map fun f =>
    if f.cause = .answerTimeout ∧ f.answer = none then { f with answer := some (o.off, o.began) } else f := by
  rw [State.frozen, State.noteAnswer, s.unitQ_modQ c _ hu]
  rfl

theorem noteAnswer_onlyCore (s : State) (c : CoreId) (u : UnitId) (o : Outst) : OnlyCore s (s.noteAnswer c u o) c := s.modQ_onlyCore c u _

/-- The operation of entry `o` has failed and its unit stands frozen. -/
structure UnansweredTaken (s t : State) (c : CoreId) (u : UnitId) (o : Outst) : Prop where
  only : OnlyCore s t c
  entries : ∀ x ∈ (t.core c).outst, ∃ y ∈ (s.core c).outst, x.unit = y.unit ∧ x.pkt = y.pkt
  tags : KeepsTags s t c
  frozen : (t.frozen c u).isSome = true
  faultDesc : s.frozen c u = none → (t.core c).seq.faultDesc = BitVec.ofNat 23 o.off
  noted : s.frozen c u = none → u ≠ .seq → t.frozen c u = some { cause := .answerTimeout, discard := true, answer := some (o.off, o.began) }
  ended : o.pkt.opcode ≠ 0x20 → HasEnded t c u o.desc

theorem unanswered_taken (s : State) (c : CoreId) (u : UnitId) (o : Outst) : UnansweredTaken s (s.unanswered c u o) c u o := by
  have failed := s.failEntry_afterAnswer c u o
  have ended : o.pkt.opcode ≠ 0x20 → HasEnded (s.failEntry c u o) c u o.desc := fun read => by
    rw [State.failEntry, if_neg read]
    exact s.failOp_ended c u o.desc
  have tags := failEntry_keepsTags s c u o
  unfold State.unanswered
  generalize s.failEntry c u o = r at failed ended tags
  have stopped := r.freezeUnit_onlyCore c u .answerTimeout true (some o.off)
  have queues := r.freezeUnit_sameQueues c u .answerTimeout true (some o.off)
  have merged := r.frozen_freezeUnit c u .answerTimeout true (some o.off)
  have outst := r.outst_freezeUnit c u .answerTimeout true (some o.off)
  have faultDesc (running : s.frozen c u = none) := r.freezeUnit_faultDesc c ((failed.frozen u).trans running) .answerTimeout true o.off
  have tagged := freezeUnit_keepsTags r c u .answerTimeout true (some o.off)
  generalize r.freezeUnit c u .answerTimeout true (some o.off) = x at stopped queues merged outst faultDesc tagged
  have noted := noteAnswer_onlyCore x c u o
  have unqueued : SameQueues x (x.noteAnswer c u o) c := x.modQ_sameQueues c (by intro q; exact ⟨rfl, rfl⟩) u
  exact {
    only := (failed.toOnlyCore.trans stopped).trans noted
    entries := fun y hy => failed.entries y (by rwa [State.noteAnswer, x.outst_modQ c u, outst] at hy)
    tags := (tags.trans tagged).trans (modQ_keepsTags x c u _)
    frozen := by
      by_cases hu : u = .seq
      · subst hu
        exact (congrArg _ merged).trans (mergeFreeze_isSome _ _ _)
      · rw [frozen_noteAnswer hu, Option.isSome_map, merged]
        exact mergeFreeze_isSome _ _ _
    faultDesc := fun running => by rw [State.noteAnswer, x.seq_modQ, faultDesc running]
    noted := fun running hu => by
      rw [frozen_noteAnswer hu, merged, failed.frozen, running]
      rfl
    ended := fun read y hy => ended read y (by rwa [(unqueued u).2, (queues u).2] at hy) }

end Sys2Proof.Machine

namespace Sys2Proof.Claims

open Sys2Proof.Machine

/-- O10 (c). -/
theorem unansweredRequestsFailTheirOperation : UnansweredRequestsFailTheirOperation := by
  intro s c u tag o powered found ours c2 c3
  have gone := (givenUp_frees (u := u) (tag := tag) found c2 c3).logged
  obtain ⟨r, hr⟩ : ∃ r, r = (s.givenUp c u tag o).loggedUnanswered c u tag o := ⟨_, rfl⟩
  rw [← hr] at gone
  obtain ⟨only, entries, ⟨count, resting⟩, frozen, faultDesc, noted, ended⟩ := unanswered_taken r c u o
  refine ⟨r.unanswered c u o, (ev_powered s (·.answerTimeout c u tag) powered).trans (congrArg _ ((answerTimeout_eq found ours c2 c3).trans (by rw [← hr]))),
    fun x hx ⟨unit, tagged⟩ => ?_, by rw [count]; exact gone.fewer, by rw [resting, only.now]; exact gone.rests, only.now.trans gone.now, frozen,
    fun running => ⟨faultDesc (gone.frozen.trans running), noted (gone.frozen.trans running)⟩, fun first => ?_, fun read _ => ended read,
    only.mem.trans gone.mem, fun d => (only.cnt_eq d).trans (gone.cnt d)⟩
  · obtain ⟨y, hy, unit', pkt⟩ := entries x hx
    have other := gone.freed y hy
    simp [isEntry, ← unit', ← pkt, unit, tagged] at other
  · have record : lastRecord (r.unanswered c u o) = _ :=
      only.lastRecord.trans (by rw [hr, State.loggedUnanswered, first, if_neg Bool.false_ne_true, lastRecord_log])
    rw [record]
    exact ⟨rfl, rfl, rfl, rfl⟩

end Sys2Proof.Claims

open Sys2Proof.Claims

/-- Settles O10: a woken unit's wait is tested as the counter stands; the wait that expires first is marked once its unit is frozen; an answer given up
frees its entry before its operation fails. -/
theorem waitsAreRetestedAndExpire : Obligations.WaitsAreRetestedAndExpire :=
  ⟨wokenUnitsTestTheirWaitAgain, expiredWaitsFreezeTheirUnit, unansweredRequestsFailTheirOperation⟩

end

/-! ## The mover performs a descriptor: which one, and what it leaves alone (R168, R446) -/

section

namespace Sys2Proof.Machine

open Sys2Proof.Claims

variable {s t r : State} {c : CoreId} {a : Active}

/-! ### The descriptor that is ready -/

/-- The kind of a descriptor by the one code that names it (Table TIL-3). -/
theorem isKind_of_code {k : DKind} {code : Nat} (h : ∀ n, kindOf n = some k ↔ n = code) (d : Desc) : isKind k d = decide (dType d = code) := by
  rw [isKind, dKind, Bool.eq_iff_iff, beq_iff_eq, h, decide_eq_true_iff]

theorem kindOf_compress (n : Nat) : kindOf n = some .compress ↔ n = 0x26 := by
  unfold kindOf
  split <;> simp_all

theorem kindOf_scatter (n : Nat) : kindOf n = some .scatter ↔ n = 0x22 := by
  unfold kindOf
  split <;> simp_all

theorem kindOf_gather (n : Nat) : kindOf n = some .gather ↔ n = 0x21 := by
  unfold kindOf
  split <;> simp_all

/-- The descriptor that `UnitReady` names is the one the mover performs. -/
theorem moverRow_acts {k : DKind} {code : Nat} (ready : UnitReady s c .mover code a) (h : ∀ n, kindOf n = some k ↔ n = code) (f : State → Active → State) :
    s.moverRow c k f = f s a := by
  obtain ⟨-, live, running, type, started, before, after, active, passed, -⟩ := ready
  have thawed : (s.core c).mov.q.freeze = none := running
  have found : (s.core c).mov.q.ready k = some a := by
    refine List.find?_eq_some_iff_append.mpr ⟨by simp [isKind_of_code h, type, started], before, after, active, fun b hb => ?_⟩
    have other := passed b hb
    rw [isKind_of_code h, Bool.not_eq_true', Bool.and_eq_false_iff]
    by_cases kind : dType b.entry.bits = code
    · exact .inr (by simpa using fun begun => other ⟨kind, begun⟩)
    · exact .inl (by simpa using kind)
  simp [State.moverRow, State.moverReady, live, thawed, found]

/-! ### What the mover changes while it works -/

/-- A started descriptor that may have noted an access past Cupola's end (R446). -/
def noteIf (id : Nat) (noted : Bool) (b : Active) : Active := if b.entry.id = id then { b with boundsLogged := b.boundsLogged || noted } else b

/-- Besides the mover's work and counts, the count registers, the SRAM, the log and the free values nothing differs, but that `a` may have noted an access
past Cupola's end. -/
structure MoverWorks (s t : State) (c : CoreId) (a : Active) : Prop where
  active : ∃ noted, (t.core c).mov.q.active = (s.core c).mov.q.active.map (noteIf a.entry.id noted)
  core : t.core c = { s.core c with mov := (t.core c).mov, countReg := (t.core c).countReg }
  others : SameCores s t c
  die : t = { s with cores := t.cores, mem := t.mem, blf := t.blf, free := t.free }

theorem noteIf_entry (id : Nat) (noted : Bool) (b : Active) : (noteIf id noted b).entry = b.entry := by
  unfold noteIf
  split <;> rfl

theorem noteIf_false (id : Nat) (b : Active) : noteIf id false b = b := by simp [noteIf]

theorem noteIf_noteIf (id : Nat) (x y : Bool) (b : Active) : noteIf id y (noteIf id x b) = noteIf id (x || y) b := by
  by_cases h : b.entry.id = id <;> simp [noteIf, h, Bool.or_assoc]

theorem MoverWorks.trans (h : MoverWorks s t c a) (h' : MoverWorks t r c a) : MoverWorks s r c a where
  active := by
    obtain ⟨⟨x, first⟩, y, second⟩ := And.intro h.active h'.active
    refine ⟨x || y, ?_⟩
    rw [second, first, List.map_map]
    exact List.map_congr_left fun b _ => noteIf_noteIf _ x y b
  core := by rw [h'.core, h.core]
  others d hd := (h'.others d hd).trans (h.others d hd)
  die := by rw [h'.die, h.die]

/-- A change outside the cores. -/
theorem moverWorks_of_cores (cores : t.cores = s.cores) (die : t = { s with cores := t.cores, mem := t.mem, blf := t.blf, free := t.free }) :
    MoverWorks s t c a := by
  have same (d : CoreId) : t.core d = s.core d := by rw [State.core, cores, State.core]
  exact ⟨⟨false, by rw [same]; simp [funext (noteIf_false _)]⟩, by rw [same], fun d _ => same d, die⟩

theorem moverWorks_of_die (die : t = { s with mem := t.mem, blf := t.blf }) : MoverWorks s t c a :=
  moverWorks_of_cores (by rw [die]) (by rw [die])

theorem takeFree_moverWorks (s : State) (c : CoreId) (a : Active) : MoverWorks s s.takeFree c a := moverWorks_of_cores rfl rfl

/-- A change of the mover and the count registers that keeps the mover's queue. -/
theorem modCore_moverWorks (s : State) (c : CoreId) (a : Active) {f : Core → Core} (queue : ∀ k, (f k).mov.q = k.mov.q)
    (core : ∀ k, f k = { k with mov := (f k).mov, countReg := (f k).countReg }) : MoverWorks s (s.modCore c f) c a where
  active := ⟨false, by rw [State.core_modCore, queue, funext (noteIf_false _), List.map_id']⟩
  core := by rw [State.core_modCore]; exact core _
  others d hd := s.core_modCore_other c d f hd
  die := rfl

theorem modMov_moverWorks (s : State) (c : CoreId) (a : Active) {f : Mover → Mover} (h : ∀ m, (f m).q = m.q) : MoverWorks s (s.modMov c f) c a :=
  modCore_moverWorks s c a (fun k => h k.mov) fun _ => rfl

theorem putCount_moverWorks (s : State) (c : CoreId) (a : Active) (d : Desc) (v : Word) : MoverWorks s (s.putCount c d v) c a := by
  unfold State.putCount
  split
  · exact moverWorks_of_cores rfl rfl
  · exact modCore_moverWorks s c a (by intro k; rfl) (by intro k; rfl)

theorem core_logBounds (s : State) (c d : CoreId) (u : UnitId) (logged : Bool) (outs : List Nat) : (s.logBounds c u logged outs).core d = s.core d := by
  rw [State.logBounds_changes_blf]
  rfl

theorem noteBounds_moverWorks (s : State) (c : CoreId) (a : Active) (outs : List Nat) : MoverWorks s (s.noteBounds c .mover a.entry.id outs) c a := by
  unfold State.noteBounds
  extract_lets logged
  have changes := s.logBounds_changes_blf c .mover logged outs
  have same (d : CoreId) := core_logBounds s c d .mover logged outs
  generalize s.logBounds c .mover logged outs = r at changes same
  refine ⟨⟨!outs.isEmpty, ?_⟩, ?_, fun d hd => ?_, ?_⟩
  · simp only [State.modQ, State.core_modMov, same]
    rfl
  · simp only [State.modQ, State.core_modMov, same]
  · rw [State.modQ, State.modMov, State.core_modCore_other _ _ _ _ hd, same]
  · rw [State.modQ, State.modMov, State.modCore]
    dsimp only
    rw [changes]

/-! ### The descriptor goes on -/

/-- The started descriptor goes to progress `p` by `f`. -/
theorem MoverWorks.goes (h : MoverWorks s t c a) (p : Progress) {f : Active → Active}
    (hf : ∀ noted, ∀ b ∈ (s.core c).mov.q.active, b.entry.id = a.entry.id → f (noteIf a.entry.id noted b) = { noteIf a.entry.id noted b with progress := p }) :
    MovFrame s (t.modQ c .mover fun q => q.modActive a.entry.id f) c a p where
  went := by
    obtain ⟨noted, active⟩ := h.active
    refine ⟨noted, ?_⟩
    rw [t.unitQ_modQ c _ (by simp)]
    refine (congrArg (List.map _) active).trans ?_
    rw [List.map_map]
    refine List.map_congr_left fun b hb => ?_
    rw [Function.comp_apply, noteIf_entry]
    split
    case isTrue here =>
      rw [hf noted b hb here, noteIf, if_pos here]
    case isFalse other => rw [noteIf, if_neg other]
  core := by
    rw [State.modQ, State.core_modMov, h.core]
  others d hd := (t.core_modCore_other c d _ hd).trans (h.others d hd)
  die := by
    rw [State.modQ, State.modMov, State.modCore]
    dsimp only
    rw [h.die]

theorem MoverWorks.busy (h : MoverWorks s t c a) : MovFrame s (t.moverBusy c a.entry.id) c a .busy := h.goes .busy fun _ _ _ _ => rfl

theorem MoverWorks.done {code : Nat} (h : MoverWorks s t c a) (ready : UnitReady s c .mover code a) : MovFrame s (t.moverDone c a.entry.id) c a .done := by
  obtain ⟨-, -, -, -, started, before, after, active, -, others⟩ := ready
  refine h.goes .done fun noted b hb here => if_neg ?_
  have mine : b = a := by
    have members : (s.core c).mov.q.active = before ++ a :: after := active
    rw [members] at hb
    by_contra other
    exact others b (by simpa [other] using hb) here
  rw [mine, noteIf, if_pos rfl, started]
  simp

end Sys2Proof.Machine

end

/-! ## The mover writes areas of its Cupola that share no byte (R135, R151, R180, R446) -/

section

namespace Sys2Proof.Machine

open Sys2Proof.Claims

variable {s t r : State} {c : CoreId} {ws : List (Nat × List Byte)}

/-! ### Rows written in turn, and the block scales -/

theorem Written.writeRowsAt (h : Written s t c ws) (rows : List (Nat × Marked)) :
    Written s (t.writeRowsAt c rows).1 c (ws ++ rows.map fun r => (r.1, bytesOf r.2)) := by
  induction rows using List.reverseRecOn with
  | nil => simpa [State.writeRowsAt] using h
  | append_singleton rows row ih =>
    have next := ih.cupWrite row.1 row.2
    simpa [State.writeRowsAt] using next

/-- The bytes of the scales as core `c` reads them. -/
def scaleBytesAt (s : State) (c : CoreId) (d : Desc) : List Byte := (List.range (scaleBytes (kMode d))).map fun b => cupByte s c (kScaleSrc d + b)

/-- What the copy of the block scales writes (R132). -/
def scaleWrites (s : State) (c : CoreId) (d : Desc) : List (Nat × List Byte) := if kMode d = 0 then [] else [(kScaleDst d, scaleBytesAt s c d)]

theorem Written.copyScales (h : Written s t c ws) (d : Desc) : Written s (t.copyScales c d).1 c (ws ++ scaleWrites t c d) := by
  unfold State.copyScales scaleWrites
  split
  · simpa using h
  · have next := (h.reads (State.cupRead_reads t c (kScaleSrc d) (scaleBytes (kMode d)))).cupWrite (kScaleDst d)
      (t.cupRead c (kScaleSrc d) (scaleBytes (kMode d))).2
    rwa [State.cupRead_bytes h.wf] at next

/-- A byte of Cupola that no write covers. -/
theorem Written.cupByte (h : Written s t c ws) {o : Nat} (out : ∀ w ∈ ws, o < w.1 ∨ w.1 + w.2.length ≤ o) : cupByte t c o = cupByte s c o := by
  unfold Machine.cupByte
  split
  · exact h.outside _ fun w hw ⟨low, high, _⟩ => by
      have := out w hw
      omega
  · rfl

/-! ### Writes by area -/

/-- No byte is covered by both writes. -/
def Separate (c : CoreId) (v w : Nat × List Byte) : Prop := ∀ x, Covers c v.1 v.2 x → ¬ Covers c w.1 w.2 x

/-- The writes lie in the area and share no byte. -/
structure InArea (c : CoreId) (area : Nat × Nat) (ws : List (Nat × List Byte)) : Prop where
  within : ∀ w ∈ ws, area.1 ≤ w.1 ∧ w.1 + w.2.length ≤ area.1 + area.2
  separate : ws.Pairwise (Separate c)

theorem InArea.nil (c : CoreId) (area : Nat × Nat) : InArea c area [] := ⟨by simp, .nil⟩

/-- A write that fills its area. -/
theorem InArea.whole (c : CoreId) {base n : Nat} {bs : List Byte} (h : bs.length = n) : InArea c (base, n) [(base, bs)] :=
  ⟨by simp [h], List.pairwise_singleton _ _⟩

/-- Rows of `n` bytes at a pitch of at least as many. -/
theorem InArea.rows (c : CoreId) {base pitch n count : Nat} (apart : n ≤ pitch) {f : Nat → List Byte} (hf : ∀ i, (f i).length = n) :
    InArea c (base, count * pitch) ((List.range count).map fun i => (base + i * pitch, f i)) where
  within w hw := by
    obtain ⟨i, hi, rfl⟩ := List.mem_map.mp hw
    have := Nat.mul_le_mul_right pitch (List.mem_range.mp hi)
    rw [Nat.succ_mul] at this
    simp only [hf]
    omega
  separate := by
    refine List.pairwise_map.mpr (List.pairwise_lt_range.imp fun {i k} less x hi hk => ?_)
    obtain ⟨low, high, -⟩ := hi
    obtain ⟨low', high', -⟩ := hk
    rw [hf] at high high'
    have same : i = k := same_row (x := x) (at_ := coreBase c + base) apart (by omega) (by omega)
    omega

/-- The areas given with their writes hold what was written; every other byte is as before. -/
structure Placed (s t : State) (c : CoreId) (gs : List ((Nat × Nat) × List (Nat × List Byte))) : Prop where
  die : t = { s with mem := t.mem, blf := t.blf }
  outside : SameOutside s t c (gs.map (·.1))
  inside : ∀ g ∈ gs, ∀ w ∈ g.2, ∀ i, i < w.2.length → cupByte t c (w.1 + i) = w.2.getD i 0

theorem Written.placed {gs : List ((Nat × Nat) × List (Nat × List Byte))} (h : Written s t c (gs.flatMap (·.2))) (area : ∀ g ∈ gs, InArea c g.1 g.2)
    (apart : Claims.Apart (gs.map (·.1))) (fits : Fits (gs.map (·.1))) : Placed s t c gs where
  die := h.die
  outside b hb := h.outside b fun w hw ⟨low, high, _⟩ => by
    obtain ⟨g, hg, mem⟩ := List.mem_flatMap.mp hw
    have out := hb g.1 (List.mem_map_of_mem hg)
    have := (area g hg).within w mem
    omega
  inside g hg w hw i hi := by
    have separate : (gs.flatMap (·.2)).Pairwise (Separate c) := by
      refine List.pairwise_flatMap.mpr ⟨fun g hg => (area g hg).separate, (List.pairwise_map.mp apart).imp_of_mem fun {f g} hf hg apart v hv w hw x => ?_⟩
      rintro ⟨low, high, -⟩ ⟨low', high', -⟩
      have first := (area f hf).within v hv
      have second := (area g hg).within w hw
      omega
    have symmetric : Std.Symm (Separate c) := ⟨fun v w h x hw hv => h x hv hw⟩
    have within := (area g hg).within w hw
    have below : w.1 + i < 0x600000 := by
      have := fits g.1 (List.mem_map_of_mem hg)
      omega
    have here : Covers c w.1 w.2 (coreBase c + (w.1 + i)) := ⟨by omega, by omega, by omega⟩
    have mem : w ∈ gs.flatMap (·.2) := List.mem_flatMap.mpr ⟨g, hg, hw⟩
    have one : ∀ v ∈ gs.flatMap (·.2), Covers c v.1 v.2 (coreBase c + (w.1 + i)) → v = w := fun v hv covers => by
      by_contra other
      exact separate.forall hv mem other _ covers here
    rw [Machine.cupByte, if_pos (by rw [cupolaEnd]; omega), h.inside _ w mem here one]
    congr 1
    omega

/-! ### Numbers written -/

theorem cupNum_of_bytes {x size v : Nat} (h : ∀ k, k < size → cupByte t c (x + k) = (leBytes v size).getD k 0) : cupNum t c x size = v % 256 ^ size := by
  have bytes : (List.range size).map (fun b => cupByte t c (x + b)) = leBytes v size := by
    apply List.ext_getElem
    · simp
    · intro k hk hk'
      rw [length_leBytes] at hk'
      rw [List.getElem_map, List.getElem_range, h k hk', List.getD_eq_getElem]
  rw [cupNum_eq, bytes, leNat_leBytes]

variable {gs : List ((Nat × Nat) × List (Nat × List Byte))} {g : (Nat × Nat) × List (Nat × List Byte)}

/-- A row of numbers that was written. -/
theorem Placed.num (h : Placed s t c gs) (hg : g ∈ gs) {x size n j : Nat} {V : Nat → Nat} (hw : (x, spelled size n V) ∈ g.2) (hj : j < n)
    (small : V j < 256 ^ size) : cupNum t c (x + j * size) size = V j := by
  rw [cupNum_of_bytes (v := V j) fun k hk => ?_, Nat.mod_eq_of_lt small]
  have inside := h.inside g hg _ hw (size * j + k) (by
    rw [length_spelled]
    have := Nat.mul_le_mul_left size (Nat.succ_le_of_lt hj)
    rw [Nat.mul_succ] at this
    omega)
  rw [Nat.add_assoc, Nat.mul_comm j size, inside]
  exact getD_flatMap_range (fun _ => length_leBytes _ _) hj hk

/-- A byte that was written. -/
theorem Placed.byte (h : Placed s t c gs) (hg : g ∈ gs) {x n j : Nat} {f : Nat → Byte} (hw : (x, (List.range n).map f) ∈ g.2) (hj : j < n) :
    cupNum t c (x + j) 1 = (f j).toNat := by
  rw [cupNum_one, h.inside g hg _ hw j (by simpa using hj), getD_map_range hj]

end Sys2Proof.Machine

end

/-! ## COMPRESS: the tile that is read and the two positions kept of four (R135) -/

section

namespace Sys2Proof.Machine

open Sys2Proof.Claims

variable {s t : State} {c : CoreId}

/-! ### The tile as it is read -/

theorem elements_row {size n off j : Nat} {row : Marked} (bytes : bytesOf row = (List.range (n * size)).map fun b => cupByte s c (off + b)) (hj : j < n)
    (x : Nat × Bool) : (((elements size n row)[j]?).getD x).1 = cupNum s c (off + j * size) size := by
  have fits : size * j + size ≤ n * size := by
    have := Nat.mul_le_mul_left size (Nat.succ_le_of_lt hj)
    rw [Nat.mul_succ, Nat.mul_comm size n] at this
    exact this
  rw [elements_getElem? _ _ hj, bytes, map_range_drop_take _ fits, cupNum_eq, Nat.mul_comm size j]
  simp only [Nat.add_assoc]

/-- Row `i` of rows of Cupola, as it is read. -/
theorem readRows_row (wf : s.mem.wf = true) {rows : List (Nat × Nat)} {i : Nat} {r : Nat × Nat} (hr : rows[i]? = some r) :
    ∃ row, (s.readRows c rows).2.1[i]? = some row ∧ bytesOf row = (List.range r.2).map fun b => cupByte s c (r.1 + b) := by
  have read := congrArg (·[i]?) (State.readRows_bytes (c := c) wf rows)
  simp only [List.getElem?_map, hr, Option.map_some] at read
  exact Option.map_eq_some_iff.mp read

theorem length_readRows (wf : s.mem.wf = true) (rows : List (Nat × Nat)) : (s.readRows c rows).2.1.length = rows.length := by
  simpa using congrArg List.length (State.readRows_bytes (c := c) wf rows)

/-- Element (i, j) of a tile of Cupola; 0 outside it. -/
def tileNum (s : State) (c : CoreId) (base pitch size rows cols i j : Nat) : Nat :=
  if i < rows ∧ j < cols then cupNum s c (base + i * pitch + j * size) size else 0

theorem readTile_reads (s : State) (c : CoreId) (base pitch size rows cols : Nat) : Reads s (s.readTile c base pitch size rows cols).1 :=
  State.readRows_reads _

theorem tileAt_readTile (wf : s.mem.wf = true) (base pitch size rows cols i j : Nat) :
    (tileAt (s.readTile c base pitch size rows cols).2.1 i j).1 = tileNum s c base pitch size rows cols i j := by
  unfold State.readTile tileAt tileNum
  simp only [List.getElem?_toArray, List.getElem?_map]
  by_cases hi : i < rows
  · obtain ⟨row, found, bytes⟩ := readRows_row (c := c) wf
      (rows := (List.range rows).map fun k => (base + k * pitch, cols * size)) (i := i) (r := (base + i * pitch, cols * size)) (by simp [hi])
    rw [found]
    by_cases hj : j < cols
    · rw [if_pos ⟨hi, hj⟩]
      simpa using elements_row bytes hj (0, false)
    · rw [if_neg fun h => hj h.2]
      simp [Nat.not_lt.mp hj]
  · have short : (s.readRows c ((List.range rows).map fun k => (base + k * pitch, cols * size))).2.1[i]? = none := by
      rw [List.getElem?_eq_none]
      rw [length_readRows wf]
      simpa using hi
    rw [short, if_neg fun h => hi h.1]
    simp

/-! ### The two positions kept (R135) -/

/-- How many of four positions outrank position `i`. -/
def above (f : Fmt) (g : List (Nat × Bool)) (i : Nat) : Nat := ((List.range 4).filter fun j => j != i && outranks f g j i).length

theorem outranks_iff (f : Fmt) (g : List (Nat × Bool)) (i j : Nat) : outranks f g i j = true ↔
    magRank f (elemAt g j).1 < magRank f (elemAt g i).1 ∨ (magRank f (elemAt g i).1 = magRank f (elemAt g j).1 ∧ i < j) := by
  simp [outranks, elemAt]

/-- A position that outranks another has fewer above it. -/
theorem above_lt_above {f : Fmt} {g : List (Nat × Bool)} {i j : Nat} (hi : i < 4) (h : outranks f g i j = true) : above f g i < above f g j := by
  rw [outranks_iff] at h
  have narrower : ((List.range 4).filter fun k => k != i && outranks f g k i)
      = ((List.range 4).filter fun k => k != j && outranks f g k j).filter fun k => k != i && outranks f g k i := by
    rw [List.filter_filter]
    refine List.filter_congr fun k _ => ?_
    rw [Bool.eq_iff_iff]
    simp only [Bool.and_eq_true, bne_iff_ne, outranks_iff]
    by_cases here : k = j
    · subst here
      omega
    · omega
  rw [above, narrower, above, List.length_filter_lt_length_iff_exists]
  refine ⟨i, List.mem_filter.mpr ⟨List.mem_range.mpr hi, ?_⟩, by simp⟩
  have other : i ≠ j := fun same => by
    subst same
    omega
  simpa [other, outranks_iff] using h

theorem above_lt_four (f : Fmt) (g : List (Nat × Bool)) {i : Nat} (hi : i < 4) : above f g i < 4 := by
  rw [above]
  refine Nat.lt_of_lt_of_eq (List.length_filter_lt_length_iff_exists.mpr ⟨i, List.mem_range.mpr hi, by simp⟩) (by simp)

/-- Of two positions one outranks the other. -/
theorem outranks_total (f : Fmt) (g : List (Nat × Bool)) {i j : Nat} (h : i ≠ j) : outranks f g i j = true ∨ outranks f g j i = true := by
  rw [outranks_iff, outranks_iff]
  omega

/-- The positions outranked by less than two others are two, for the numbers above the four positions are 0 to 3 in some order. -/
theorem kept_eq (f : Fmt) (g : List (Nat × Bool)) : ((List.range 4).filter fun i => decide (above f g i < 2)).length = 2 := by
  have distinct : ((List.range 4).map (above f g)).Nodup := by
    refine List.Nodup.map_on (fun i hi j hj same => ?_) List.nodup_range
    by_contra other
    rcases outranks_total f g other with less | less
    · exact absurd same (above_lt_above (List.mem_range.mp hi) less).ne
    · exact absurd same (above_lt_above (List.mem_range.mp hj) less).ne'
  have small : (List.range 4).map (above f g) ⊆ List.range 4 := fun n hn => by
    obtain ⟨i, hi, rfl⟩ := List.mem_map.mp hn
    exact List.mem_range.mpr (above_lt_four f g (List.mem_range.mp hi))
  have perm : ((List.range 4).map (above f g)).Perm (List.range 4) := (List.subperm_of_subset distinct small).perm_of_length_le (by simp)
  have count := perm.countP_eq fun n => decide (n < 2)
  rw [List.countP_map, List.countP_eq_length_filter] at count
  exact count

/-- Two positions are kept, the lower first, and each outranks the others (R135). -/
theorem keptPair_outranks (f : Fmt) (g : List (Nat × Bool)) : let p := keptPair f g
    p.1 < p.2 ∧ p.2 < 4 ∧ ∀ i, i < 4 → i ≠ p.1 → i ≠ p.2 → outranks f g p.1 i = true ∧ outranks f g p.2 i = true := by
  have sorted : ((List.range 4).filter fun i => decide (above f g i < 2)).Pairwise (· < ·) := List.pairwise_lt_range.filter _
  have members (i : Nat) : i ∈ (List.range 4).filter (fun i => decide (above f g i < 2)) ↔ i < 4 ∧ above f g i < 2 := by simp
  have pair : keptPair f g = (((List.range 4).filter fun i => decide (above f g i < 2)).headD 0,
      (((List.range 4).filter fun i => decide (above f g i < 2)).drop 1).headD 1) := rfl
  obtain ⟨x, y, kept⟩ := List.length_eq_two.mp (kept_eq f g)
  rw [kept] at sorted members pair
  rw [pair]
  obtain ⟨hx, abovex⟩ := (members x).mp (by simp)
  obtain ⟨hy, abovey⟩ := (members y).mp (by simp)
  refine ⟨by simpa using sorted, hy, fun i hi other other' => ?_⟩
  have out : ¬ above f g i < 2 := fun less => by
    have mem := (members i).mpr ⟨hi, less⟩
    simp at mem
    exact mem.elim other other'
  have first (j : Nat) (hj : above f g j < 2) (ne : i ≠ j) : outranks f g j i = true := by
    refine (outranks_total f g ne).resolve_left fun less => ?_
    have := above_lt_above hi less
    omega
  exact ⟨first x abovex other, first y abovey other'⟩

/-- The model's ranks and those of R135 as the statement gives them are in the same order. -/
theorem magRank_order (f : Fmt) (x y : Nat) : (magRank f x < magRank f y ↔ magnitudeRank f x < magnitudeRank f y)
    ∧ (magRank f x = magRank f y ↔ magnitudeRank f x = magnitudeRank f y) := by
  have place : width f - 1 = f.ebits + f.mbits := by
    unfold width
    omega
  have below : f.signBit < 2 ^ width f := Nat.pow_lt_pow_right Nat.one_lt_two (by unfold width; omega)
  have small (b : Nat) : b % f.signBit < f.signBit := Nat.mod_lt _ (Nat.two_pow_pos _)
  have hx := small x
  have hy := small y
  unfold magRank magnitudeRank Fmt.mag
  rw [place, ← Fmt.signBit]
  split <;> split <;> omega

theorem before_of_outranks {f : Fmt} {g : List (Nat × Bool)} {i j : Nat} (h : outranks f g i j = true) : Claims.before f (fun i => (elemAt g i).1) i j := by
  obtain ⟨less, equal⟩ := magRank_order f (elemAt g j).1 (elemAt g i).1
  rw [outranks_iff] at h
  exact h.imp less.mp fun ⟨same, first⟩ => ⟨equal.mp same.symm, first⟩

end Sys2Proof.Machine

end

/-! ## COMPRESS: what each direction writes (R130 to R132, R135 to R137, R180) -/

section

namespace Sys2Proof.Machine

open Sys2Proof.Claims

/-! ### A tile as it is compressed -/

/-- A tile that was read: elements with their marks. -/
abbrev ReadTile := Array (Array (Nat × Bool))

/-- The four elements of group `g` of column `n`. -/
def fourOf (t : ReadTile) (g n : Nat) : List (Nat × Bool) := (List.range 4).map fun i => tileAt t (4 * g + i) n

/-- The positions kept of them. -/
def keptOf (f : Fmt) (t : ReadTile) (g n : Nat) : Nat × Nat := keptPair f (fourOf t g n)

/-- The index nibble of a group (Table SPA-2). -/
def nibbleOf (f : Fmt) (t : ReadTile) (g n : Nat) : Nat := (keptOf f t g n).1 + 4 * (keptOf f t g n).2

/-- The kept element of value row `p`. -/
def keptAt (f : Fmt) (t : ReadTile) (p n : Nat) : Nat × Bool :=
  elemAt (fourOf t (p / 2) n) (if p % 2 = 0 then (keptOf f t (p / 2) n).1 else (keptOf f t (p / 2) n).2)

/-- A group takes a poisoned element. -/
def fourHot (t : ReadTile) (g n : Nat) : Bool := (fourOf t g n).any (·.2)

/-- The rows of values as they are written. -/
def valueRows (f : Fmt) (d : Desc) (t : ReadTile) : List (Nat × Marked) :=
  (List.range 32).map fun p => (kVal d + p * 32 * f.size, spell f.size ((List.range 32).map fun n => keptAt f t p n))

/-- Byte `b` of the index area. -/
def indexByte (f : Fmt) (t : ReadTile) (b : Nat) : Byte := BitVec.ofNat 8 (nibbleOf f t (b / 16) (2 * (b % 16)) + 16 * nibbleOf f t (b / 16) (2 * (b % 16) + 1))

/-- The index area as it is written. -/
def indexArea (f : Fmt) (t : ReadTile) : Marked :=
  (List.range 256).map fun b => (indexByte f t b, fourHot t (b / 16) (2 * (b % 16)) || fourHot t (b / 16) (2 * (b % 16) + 1))

/-- The nonzero elements that are not kept. -/
def prunedOf (f : Fmt) (t : ReadTile) : Nat :=
  ((List.range 16).map fun g => ((List.range 32).map fun n =>
    ((List.range 4).filter fun i => i != (keptOf f t g n).1 && i != (keptOf f t g n).2 && f.mag (elemAt (fourOf t g n) i).1 != 0).length).sum).sum

/-- The format of a COMPRESS. -/
def kForm (d : Desc) : Fmt := (fmtOf (kFmt d)).getD .fp16

/-- The result word, where one is asked for. -/
def State.writeResult (s : State) (c : CoreId) (d : Desc) (v : Nat) : State × List Nat :=
  if kResultEn d then s.writeRowsAt c [(kResult d, (leBytes v 4).map fun b => (b, false))] else (s, [])

/-- The SRAM after a dense tile was compressed. -/
def State.compressed (s : State) (c : CoreId) (d : Desc) (t : ReadTile) : State :=
  ((((s.writeRowsAt c (valueRows (kForm d) d t)).1.writeRowsAt c [(kIdx d, indexArea (kForm d) t)]).1.copyScales c d).1.writeResult c d (prunedOf (kForm d) t)).1

theorem compressTile_eq (s : State) (c : CoreId) (d : Desc) : let r := s.readTile c (kDense d) (kPitch d) (kForm d).size (kK d) (kN d)
    (s.compressTile c d).1 = (r.1.compressed c d r.2.1).modMov c fun m => { m with pruneCount := satAdd m.pruneCount (prunedOf (kForm d) r.2.1) } := by
  intro r
  rfl

/-! ### What the pieces hold -/

variable {s r u : State} {c : CoreId} {d : Desc} {f : Fmt} {t : ReadTile} {g n i : Nat}

theorem elemAt_fourOf (hi : i < 4) : elemAt (fourOf t g n) i = tileAt t (4 * g + i) n := by
  simp [elemAt, fourOf, hi]

theorem keptOf_places (f : Fmt) (t : ReadTile) (g n : Nat) : (keptOf f t g n).1 < (keptOf f t g n).2 ∧ (keptOf f t g n).2 < 4 := by
  obtain ⟨less, below, -⟩ := keptPair_outranks f (fourOf t g n)
  exact ⟨less, below⟩

theorem before_congr {g h : Nat → Nat} {i j : Nat} (hi : g i = h i) (hj : g j = h j) (first : Claims.before f g i j) : Claims.before f h i j := by
  unfold Claims.before at first ⊢
  rwa [hi, hj] at first

/-- The kept positions rank before the others (R135). -/
theorem keptOf_before {el : Nat → Nat → Nat} (hel : ∀ i j, (tileAt t i j).1 = el i j) (hi : i < 4) (first : i ≠ (keptOf f t g n).1)
    (second : i ≠ (keptOf f t g n).2) :
    Claims.before f (fun i => el (4 * g + i) n) (keptOf f t g n).1 i ∧ Claims.before f (fun i => el (4 * g + i) n) (keptOf f t g n).2 i := by
  have elem (j : Nat) (hj : j < 4) : (elemAt (fourOf t g n) j).1 = el (4 * g + j) n := by rw [elemAt_fourOf hj, hel]
  obtain ⟨less, below, outrank⟩ := keptPair_outranks f (fourOf t g n)
  obtain ⟨low, high⟩ := outrank i hi first second
  exact ⟨before_congr (elem _ (less.trans below)) (elem i hi) (before_of_outranks low),
    before_congr (elem _ below) (elem i hi) (before_of_outranks high)⟩

theorem keptAt_even (f : Fmt) (t : ReadTile) (g n : Nat) : keptAt f t (2 * g) n = tileAt t (4 * g + (keptOf f t g n).1) n := by
  obtain ⟨less, below⟩ := keptOf_places f t g n
  rw [keptAt, if_pos (by omega), Nat.mul_div_cancel_left g Nat.two_pos, elemAt_fourOf (less.trans below)]

theorem keptAt_odd (f : Fmt) (t : ReadTile) (g n : Nat) : keptAt f t (2 * g + 1) n = tileAt t (4 * g + (keptOf f t g n).2) n := by
  obtain ⟨less, below⟩ := keptOf_places f t g n
  rw [keptAt, if_neg (by omega), show (2 * g + 1) / 2 = g by omega, elemAt_fourOf below]

theorem nibbleOf_lt (f : Fmt) (t : ReadTile) (g n : Nat) : nibbleOf f t g n < 16 := by
  obtain ⟨less, below⟩ := keptOf_places f t g n
  unfold nibbleOf
  omega

theorem field_nibble (v j : Nat) : field v (4 * (j % 2)) 4 = if j % 2 = 0 then v % 16 else v / 16 % 16 := by
  rcases Nat.mod_two_eq_zero_or_one j with even | odd
  · simp [field, even]
  · simp [field, odd, Nat.shiftRight_eq_div_pow]

/-- The nibble of a column in its byte of the index area. -/
theorem indexByte_nibble (f : Fmt) (t : ReadTile) {j : Nat} (hj : j < 32) :
    field (indexByte f t (g * 16 + j / 2)).toNat (4 * (j % 2)) 4 = nibbleOf f t g j := by
  have low := nibbleOf_lt f t g (2 * (j / 2))
  have high := nibbleOf_lt f t g (2 * (j / 2) + 1)
  have group : (g * 16 + j / 2) / 16 = g := by omega
  have place : (g * 16 + j / 2) % 16 = j / 2 := by omega
  rw [indexByte, group, place, BitVec.toNat_ofNat, Nat.mod_eq_of_lt (by omega), field_nibble]
  split
  case isTrue even =>
    rw [show 2 * (j / 2) = j by omega] at low high ⊢
    omega
  case isFalse odd =>
    rw [show 2 * (j / 2) + 1 = j by omega] at high ⊢
    omega

/-! ### The count of pruned elements (R136) -/

theorem sum_map_range (n : Nat) (f : Nat → Nat) : ((List.range n).map f).sum = ∑ i ∈ Finset.range n, f i := rfl

theorem length_filter_range (n : Nat) (p : Nat → Bool) : ((List.range n).filter p).length = ∑ i ∈ Finset.range n, if p i then 1 else 0 := by
  induction n with
  | zero => rfl
  | succ n ih =>
    rw [List.range_succ, List.filter_append, List.length_append, ih, Finset.sum_range_succ]
    cases hn : p n <;> simp [hn]

/-- A sum over `m` times `n` numbers, by rows. -/
theorem sum_range_rows (m n : Nat) (f : Nat → Nat) : ∑ x ∈ Finset.range (m * n), f x = ∑ i ∈ Finset.range m, ∑ j ∈ Finset.range n, f (i * n + j) := by
  induction m with
  | zero => simp
  | succ m ih => rw [Nat.succ_mul, Finset.sum_range_add, ih, Finset.sum_range_succ]

/-- The pruned elements of the tile, row by row. -/
theorem prunedOf_eq {el : Nat → Nat → Nat} (hel : ∀ i j, (tileAt t i j).1 = el i j) (f : Fmt) : prunedOf f t
    = ((List.range 64).map fun i => ((List.range 32).filter fun j =>
        i % 4 != (keptOf f t (i / 4) j).1 && i % 4 != (keptOf f t (i / 4) j).2 && f.mag (el i j) != 0).length).sum := by
  simp only [prunedOf, sum_map_range, length_filter_range]
  rw [show (64 : Nat) = 16 * 4 from rfl, sum_range_rows]
  refine Finset.sum_congr rfl fun g _ => ?_
  rw [Finset.sum_comm]
  refine Finset.sum_congr rfl fun i hi => Finset.sum_congr rfl fun j _ => ?_
  have small : i < 4 := Finset.mem_range.mp hi
  rw [elemAt_fourOf small, hel, show (g * 4 + i) / 4 = g by omega, show (g * 4 + i) % 4 = i by omega, Nat.mul_comm g 4]

theorem prunedOf_lt (f : Fmt) (t : ReadTile) : prunedOf f t < 2 ^ 32 := by
  have row (i : Nat) : ((List.range 32).filter fun j =>
      i % 4 != (keptOf f t (i / 4) j).1 && i % 4 != (keptOf f t (i / 4) j).2 && f.mag (tileAt t i j).1 != 0).length ≤ 32 :=
    (List.length_filter_le _ _).trans (by simp)
  rw [prunedOf_eq (el := fun i j => (tileAt t i j).1) (fun _ _ => rfl), sum_map_range]
  refine Nat.lt_of_le_of_lt (Finset.sum_le_sum fun i _ => row i) ?_
  simp

end Sys2Proof.Machine

end

/-! ## COMPRESS is performed (R130 to R132, R135 to R137, R180) -/

section

namespace Sys2Proof.Machine

open Sys2Proof.Claims

variable {s r u : State} {c : CoreId} {d : Desc} {f : Fmt} {t : ReadTile} {a : Active}

/-! ### The areas a COMPRESS shares in both directions -/

/-- The size of the scale areas of a 2:4 tile (R132). -/
def scaleSize (d : Desc) : Nat := if dBits d 10 0 2 = 1 then 128 else if dBits d 10 0 2 = 0 then 0 else 64

theorem scaleBytes_eq (h : kMode d ≠ 0) : scaleBytes (kMode d) = scaleSize d := by
  unfold scaleBytes scaleSize kMode at *
  split <;> simp_all

/-- The writes of the scales fill their area. -/
theorem scaleWrites_inArea (s : State) (c : CoreId) (d : Desc) : InArea c (kScaleDst d, scaleSize d) (scaleWrites s c d) := by
  unfold scaleWrites
  split
  · exact .nil _ _
  · exact .whole c (by rw [scaleBytesAt, List.length_map, List.length_range, scaleBytes_eq ‹_›])

/-- Scales that were not written over are copied as they were. -/
theorem scaleWrites_congr (h : ∀ b, b < scaleSize d → cupByte r c (kScaleSrc d + b) = cupByte s c (kScaleSrc d + b)) : scaleWrites r c d = scaleWrites s c d := by
  unfold scaleWrites
  split
  · rfl
  · rename_i some
    have same : scaleBytesAt r c d = scaleBytesAt s c d :=
      List.map_congr_left fun b hb => h b (by rwa [List.mem_range, scaleBytes_eq some] at hb)
    rw [same]

/-- What the result word is written as. -/
def resultWrites (d : Desc) (v : Nat) : List (Nat × List Byte) := if kResultEn d then [(kResult d, leBytes v 4)] else []

theorem resultWrites_inArea (c : CoreId) (d : Desc) (v : Nat) : InArea c (kResult d, 4 * dBits d 44 0 1) (resultWrites d v) := by
  unfold resultWrites kResultEn
  split
  case isTrue asked => exact .whole c (by rw [length_leBytes, beq_iff_eq.mp asked])
  case isFalse => exact .nil _ _

theorem Written.writeResult {ws : List (Nat × List Byte)} (h : Written s r c ws) (d : Desc) (v : Nat) :
    Written s (r.writeResult c d v).1 c (ws ++ resultWrites d v) := by
  unfold State.writeResult resultWrites
  split
  · have next := h.writeRowsAt [(kResult d, (leBytes v 4).map fun b => (b, false))]
    simpa [bytesOf, Function.comp_def] using next
  · simpa using h

variable {gs : List ((Nat × Nat) × List (Nat × List Byte))}

/-- The result is read back where one was asked for. -/
theorem Placed.result (h : Placed s u c gs) {area : Nat × Nat} {v : Nat} (hg : (area, resultWrites d v) ∈ gs) (asked : dBits d 44 0 1 = 1) (small : v < 2 ^ 32) :
    cupNum u c (kResult d) 4 = v := by
  have mem : (kResult d, leBytes v 4) ∈ resultWrites d v := by simp [resultWrites, kResultEn, asked]
  rw [cupNum_of_bytes (v := v) fun k hk => h.inside _ hg _ mem k (by simpa using hk), Nat.mod_eq_of_lt (show v < 256 ^ 4 from small)]

/-- The scales are read back. -/
theorem Placed.scale (h : Placed s u c gs) {area : Nat × Nat} (hg : (area, scaleWrites r c d) ∈ gs) {b : Nat} (hb : b < scaleSize d) :
    cupNum u c (kScaleDst d + b) 1 = cupNum r c (kScaleSrc d + b) 1 := by
  have some : kMode d ≠ 0 := fun none => by
    have : dBits d 10 0 2 = 0 := none
    simp [scaleSize, this] at hb
  have mem : (kScaleDst d, scaleBytesAt r c d) ∈ scaleWrites r c d := by simp [scaleWrites, some]
  rw [h.byte hg mem (by rwa [scaleBytes_eq some]), ← cupNum_one]

theorem cupNum_congr (h : u.mem = r.mem) (off n : Nat) : cupNum u c off n = cupNum r c off n := by
  simp only [cupNum, h]

/-- Two areas that share no byte: a byte of one lies outside the other. -/
theorem out_of_apart {x y : Nat × Nat} (h : Claims.Apart [x, y]) {b : Nat} (hb : b < y.2) : x.2 = 0 ∨ y.1 + b < x.1 ∨ x.1 + x.2 ≤ y.1 + b := by
  have apart : x.2 = 0 ∨ y.2 = 0 ∨ x.1 + x.2 ≤ y.1 ∨ y.1 + y.2 ≤ x.1 := by simpa [Claims.Apart] using h
  omega

/-- A write within an area that a byte lies outside of does not reach it. -/
theorem InArea.misses {area : Nat × Nat} {ws : List (Nat × List Byte)} (h : InArea c area ws) {o : Nat} (out : area.2 = 0 ∨ o < area.1 ∨ area.1 + area.2 ≤ o) :
    ∀ w ∈ ws, o < w.1 ∨ w.1 + w.2.length ≤ o := fun w hw => by
  have := h.within w hw
  omega

/-! ### Dense to 2:4 -/

/-- The bytes of the value rows. -/
def valueWrites (f : Fmt) (d : Desc) (t : ReadTile) : List (Nat × List Byte) :=
  (List.range 32).map fun p => (kVal d + p * (32 * f.size), spelled f.size 32 fun n => (keptAt f t p n).1)

/-- The bytes of the index area. -/
def indexWrites (f : Fmt) (d : Desc) (t : ReadTile) : List (Nat × List Byte) := [(kIdx d, (List.range 256).map (indexByte f t))]

theorem valueWrites_inArea (c : CoreId) (f : Fmt) (d : Desc) (t : ReadTile) : InArea c (kVal d, 1024 * f.size) (valueWrites f d t) := by
  have rows := InArea.rows c (base := kVal d) (count := 32) (le_refl (32 * f.size)) (f := fun p => spelled f.size 32 fun n => (keptAt f t p n).1)
    fun p => by rw [length_spelled, Nat.mul_comm]
  rwa [← Nat.mul_assoc] at rows

theorem indexWrites_inArea (c : CoreId) (f : Fmt) (d : Desc) (t : ReadTile) : InArea c (kIdx d, 256) (indexWrites f d t) := .whole c (by simp)

/-- The areas a COMPRESS to 2:4 writes. -/
def compressGroups (s : State) (c : CoreId) (d : Desc) (f : Fmt) (t : ReadTile) : List ((Nat × Nat) × List (Nat × List Byte)) :=
  [((kVal d, 1024 * f.size), valueWrites f d t), ((kIdx d, 256), indexWrites f d t), ((kScaleDst d, scaleSize d), scaleWrites s c d),
    ((kResult d, 4 * dBits d 44 0 1), resultWrites d (prunedOf f t))]

theorem bytesOf_valueRows (f : Fmt) (d : Desc) (t : ReadTile) : (valueRows f d t).map (fun r => (r.1, bytesOf r.2)) = valueWrites f d t := by
  simp [valueRows, valueWrites, bytesOf_spell, spelled, List.flatMap_map, Nat.mul_assoc]

theorem bytesOf_indexArea (f : Fmt) (t : ReadTile) : bytesOf (indexArea f t) = (List.range 256).map (indexByte f t) := by
  simp [indexArea, bytesOf]

theorem compressed_placed (wf : s.mem.wf = true) (read : Reads s r)
    (areas : Claims.Apart [(kVal d, 1024 * (kForm d).size), (kIdx d, 256), (kScaleDst d, scaleSize d), (kResult d, 4 * dBits d 44 0 1)])
    (values : Claims.Apart [(kVal d, 1024 * (kForm d).size), (kScaleSrc d, scaleSize d)]) (index : Claims.Apart [(kIdx d, 256), (kScaleSrc d, scaleSize d)])
    (fits : Fits [(kVal d, 1024 * (kForm d).size), (kIdx d, 256), (kScaleDst d, scaleSize d), (kResult d, 4 * dBits d 44 0 1)]) :
    Placed s (r.compressed c d t) c (compressGroups s c d (kForm d) t) := by
  have first := ((Written.nil wf c).reads read).writeRowsAt (valueRows (kForm d) d t)
  have second := first.writeRowsAt [(kIdx d, indexArea (kForm d) t)]
  have third := second.copyScales d
  have fourth := third.writeResult d (prunedOf (kForm d) t)
  have before : scaleWrites ((r.writeRowsAt c (valueRows (kForm d) d t)).1.writeRowsAt c [(kIdx d, indexArea (kForm d) t)]).1 c d = scaleWrites s c d :=
    scaleWrites_congr fun b hb => second.cupByte fun w hw => by
      rw [bytesOf_valueRows, List.map_singleton, bytesOf_indexArea] at hw
      rcases List.mem_append.mp hw with hw | hw
      · exact (valueWrites_inArea c (kForm d) d t).misses (out_of_apart values hb) w hw
      · exact (indexWrites_inArea c (kForm d) d t).misses (out_of_apart index hb) w hw
  rw [before, bytesOf_valueRows, List.map_singleton, bytesOf_indexArea] at fourth
  refine Written.placed (gs := compressGroups s c d (kForm d) t) ?_ ?_ areas fits
  · simpa [State.compressed, compressGroups, indexWrites] using fourth
  · simp only [compressGroups, List.mem_cons, List.not_mem_nil, or_false, forall_eq_or_imp, forall_eq]
    exact ⟨valueWrites_inArea c _ d t, indexWrites_inArea c _ d t, scaleWrites_inArea s c d, resultWrites_inArea c d _⟩

end Sys2Proof.Machine

end

/-! ## COMPRESS to 2:4 (R135, R136) -/

section

namespace Sys2Proof.Machine

open Sys2Proof.Claims

variable {s u : State} {c : CoreId} {d : Desc} {a : Active} {code : Nat}

/-! ### The end of a descriptor of the mover -/

theorem mem_noteBounds (s : State) (c : CoreId) (id : Nat) (outs : List Nat) : (s.noteBounds c .mover id outs).mem = s.mem := by
  unfold State.noteBounds
  extract_lets logged
  rw [State.logBounds_changes_blf]
  rfl

theorem mov_noteBounds (s : State) (c : CoreId) (id : Nat) (outs : List Nat) :
    ((s.noteBounds c .mover id outs).core c).mov = { (s.core c).mov with q := ((s.noteBounds c .mover id outs).core c).mov.q } := by
  simp only [State.noteBounds, State.modQ, State.core_modMov, core_logBounds]

theorem countReg_noteBounds (s : State) (c : CoreId) (id : Nat) (outs : List Nat) : ((s.noteBounds c .mover id outs).core c).countReg = (s.core c).countReg := by
  simp only [State.noteBounds, State.modQ, State.core_modMov, core_logBounds]

theorem mov_moverDone (s : State) (c : CoreId) (id : Nat) : ((s.moverDone c id).core c).mov = { (s.core c).mov with q := ((s.moverDone c id).core c).mov.q } := by
  simp only [State.moverDone, State.modQ, State.core_modMov]

/-- A COMPRESS whose SRAM work is over ends. -/
theorem noteBounds_done (works : MoverWorks s u c a) (ready : UnitReady s c .mover code a) (outs : List Nat) :
    let t := (u.noteBounds c .mover a.entry.id outs).moverDone c a.entry.id
    MovFrame s t c a .done ∧ t.mem = u.mem ∧ (t.core c).mov.pruneCount = (u.core c).mov.pruneCount := by
  refine ⟨(works.trans (noteBounds_moverWorks u c a outs)).done ready, mem_noteBounds u c a.entry.id outs, ?_⟩
  rw [mov_moverDone, mov_noteBounds]

theorem sameOutside_congr {t : State} {l : List (Nat × Nat)} (same : t.mem = u.mem) (h : SameOutside s u c l) : SameOutside s t c l := fun b hb => by
  rw [same, h b hb]

theorem Placed.core_eq {gs : List ((Nat × Nat) × List (Nat × List Byte))} (h : Placed s u c gs) (x : CoreId) : u.core x = s.core x := by
  rw [h.die]
  rfl

/-! ### What a good COMPRESS may name -/

/-- The elements of a COMPRESS are FP8 or 16 bits wide. -/
theorem kFmt_of_good (good : compressBad d = false) : kFmt d = 1 ∨ kFmt d = 2 ∨ kFmt d = 3 := by
  have range : within 1 (kFmt d) 3 = true := by
    simp only [compressBad, Bool.or_eq_false_iff, Bool.not_eq_false'] at good
    tauto
  have := of_decide_eq_true range
  omega

theorem mag_kForm (good : compressBad d = false) (b : Nat) : (kForm d).mag b = b % 2 ^ (8 * (kForm d).size - 1) := by
  unfold kForm
  rcases kFmt_of_good good with h | h | h <;> rw [h] <;> rfl

/-! ### The tile -/

/-- Element (i, j) of the dense tile that a COMPRESS reads; +0 beyond its extents. -/
def denseNum (s : State) (c : CoreId) (d : Desc) (i j : Nat) : Nat := tileNum s c (kDense d) (kPitch d) (kForm d).size (kK d) (kN d) i j

theorem denseNum_lt (s : State) (c : CoreId) (d : Desc) (i j : Nat) : denseNum s c d i j < 256 ^ (kForm d).size := by
  unfold denseNum tileNum
  split
  · exact cupNum_lt _ _
  · positivity

variable {t : ReadTile}

theorem keptAt_lt {f : Fmt} {n : Nat} (hel : ∀ i j, (tileAt t i j).1 = denseNum s c d i j) (p : Nat) : (keptAt f t p n).1 < 256 ^ (kForm d).size := by
  have below : (if p % 2 = 0 then (keptOf f t (p / 2) n).1 else (keptOf f t (p / 2) n).2) < 4 := by
    have places := keptOf_places f t (p / 2) n
    split <;> omega
  rw [keptAt, elemAt_fourOf below, hel]
  exact denseNum_lt s c d _ _

/-- The kept values, their indices, the scales and the count are where they belong (R130 to R132, R135, R136, R180). -/
theorem compressed_reads (h : Placed s u c (compressGroups s c d (kForm d) t)) (hel : ∀ i j, (tileAt t i j).1 = denseNum s c d i j) :
    (∀ g j, g < 16 → j < 32 → field (cupNum u c (kIdx d + g * 16 + j / 2) 1) (4 * (j % 2)) 4 = nibbleOf (kForm d) t g j
      ∧ cupNum u c (kVal d + (2 * g * 32 + j) * (kForm d).size) (kForm d).size = denseNum s c d (4 * g + (keptOf (kForm d) t g j).1) j
      ∧ cupNum u c (kVal d + ((2 * g + 1) * 32 + j) * (kForm d).size) (kForm d).size = denseNum s c d (4 * g + (keptOf (kForm d) t g j).2) j)
    ∧ (dBits d 44 0 1 = 1 → cupNum u c (kResult d) 4 = prunedOf (kForm d) t)
    ∧ ∀ b, b < scaleSize d → cupNum u c (kScaleDst d + b) 1 = cupNum s c (kScaleSrc d + b) 1 := by
  have value {p j : Nat} (hp : p < 32) (hj : j < 32) : cupNum u c (kVal d + (p * 32 + j) * (kForm d).size) (kForm d).size = (keptAt (kForm d) t p j).1 := by
    have mem : (kVal d + p * (32 * (kForm d).size), spelled (kForm d).size 32 fun n => (keptAt (kForm d) t p n).1) ∈ valueWrites (kForm d) d t :=
      List.mem_map.mpr ⟨p, List.mem_range.mpr hp, rfl⟩
    have read := h.num (List.mem_cons_self ..) mem hj (keptAt_lt hel p)
    rwa [show kVal d + p * (32 * (kForm d).size) + j * (kForm d).size = kVal d + (p * 32 + j) * (kForm d).size by ring] at read
  refine ⟨fun g j hg hj => ⟨?_, ?_, ?_⟩, fun asked => ?_, fun b hb => ?_⟩
  · rw [Nat.add_assoc, h.byte (g := ((kIdx d, 256), indexWrites (kForm d) d t)) (by simp [compressGroups]) (List.mem_singleton_self _) (by omega),
      indexByte_nibble _ _ hj]
  · rw [value (by omega) hj, keptAt_even, hel]
  · rw [value (by omega) hj, keptAt_odd, hel]
  · exact h.result (area := (kResult d, 4 * dBits d 44 0 1)) (by simp [compressGroups]) asked (prunedOf_lt _ _)
  · exact h.scale (area := (kScaleDst d, scaleSize d)) (r := s) (by simp [compressGroups]) hb

theorem exec_compress (ready : UnitReady s c .mover 0x26 a) : exec (.compress c .perform) s = .next (s.compressPerform c a) := by
  have act : exec (.compress c .perform) s = ev s fun s => s.moverRow c .compress fun s a => s.compressPerform c a := rfl
  rw [act, ev_powered s _ ready.1, moverRow_acts ready kindOf_compress]

/-- The areas and what they must not meet, of a COMPRESS to 2:4. -/
structure SparseAreas (d : Desc) : Prop where
  outs : Claims.Apart [(kVal d, 1024 * (kForm d).size), (kIdx d, 256), (kScaleDst d, scaleSize d), (kResult d, 4 * dBits d 44 0 1)]
  values : Claims.Apart [(kVal d, 1024 * (kForm d).size), (kScaleSrc d, scaleSize d)]
  index : Claims.Apart [(kIdx d, 256), (kScaleSrc d, scaleSize d)]
  fits : Fits [(kVal d, 1024 * (kForm d).size), (kIdx d, 256), (kScaleDst d, scaleSize d), (kResult d, 4 * dBits d 44 0 1)]

/-- A dense tile is compressed to 2:4. -/
theorem compressPerform_sparse (wf : s.wf) (ready : UnitReady s c .mover code a) (sparse : dBits a.entry.bits 8 0 1 = 0) (areas : SparseAreas a.entry.bits) :
    let d := a.entry.bits
    let r := s.compressPerform c a
    ∃ u t, Placed s u c (compressGroups s c d (kForm d) t) ∧ (∀ i j, (tileAt t i j).1 = denseNum s c d i j) ∧ MovFrame s r c a .done ∧ r.mem = u.mem
      ∧ (r.core c).mov.pruneCount = satAdd (s.core c).mov.pruneCount (prunedOf (kForm d) t) := by
  intro d r
  have read := readTile_reads s c (kDense d) (kPitch d) (kForm d).size (kK d) (kN d)
  have elements := tileAt_readTile (c := c) wf (kDense d) (kPitch d) (kForm d).size (kK d) (kN d)
  have tile : (s.compressTile c d).1 = _ := compressTile_eq s c d
  have performs : r = ((s.compressTile c d).1.noteBounds c .mover a.entry.id (s.compressTile c d).2).moverDone c a.entry.id := by
    have direction : kDir a.entry.bits = false := by rw [kDir, sparse]; rfl
    simp only [r, State.compressPerform, direction, Bool.false_eq_true, if_false, d]
  generalize s.readTile c (kDense d) (kPitch d) (kForm d).size (kK d) (kN d) = x at read elements tile
  have placed := compressed_placed (c := c) (t := x.2.1) wf read areas.outs areas.values areas.index areas.fits
  have works : MoverWorks s (s.compressTile c d).1 c a := by
    rw [tile]
    exact (moverWorks_of_die placed.die).trans (modMov_moverWorks _ c a (by intro m; rfl))
  obtain ⟨frame, mem, pruned⟩ := noteBounds_done works ready (s.compressTile c d).2
  rw [← performs] at frame mem pruned
  rw [tile] at mem
  rw [tile, State.core_modMov] at pruned
  rw [placed.core_eq] at pruned
  dsimp only at pruned
  refine ⟨x.1.compressed c d x.2.1, x.2.1, placed, elements, frame, mem, ?_⟩
  rw [pruned]

end Sys2Proof.Machine

end

/-! ## COMPRESS to dense (R137) -/

section

namespace Sys2Proof.Machine

open Sys2Proof.Claims

variable {s r u : State} {c : CoreId} {d : Desc} {a : Active} {t : ReadTile} {area : Marked}

/-! ### The tile that is written -/

/-- Byte `b` of the index area is poisoned. -/
def hotAt (area : Marked) (b : Nat) : Bool :=
  match area[b]? with
  | some x => x.2
  | none => false

/-- The value that an index pair places at position `i` of its group, +0 where it places none. -/
def placedAt (t : ReadTile) (p : Nat × Nat) (g i n : Nat) : Nat × Bool :=
  if p.2 = i then tileAt t (2 * g + 1) n else if p.1 = i then tileAt t (2 * g) n else (0, false)

/-- Element (k, n) as it is written. -/
def denseAt (d : Desc) (t : ReadTile) (area : Marked) (k n : Nat) : Nat × Bool :=
  let v := placedAt t (indexPair (bytesOf area) (k / 4) n) (k / 4) (k % 4) n
  if kK d ≤ k ∨ kN d ≤ n then (0, false) else (v.1, v.2 || hotAt area (k / 4 * 16 + n / 2))

/-- The rows as they are written. -/
def denseRows (d : Desc) (t : ReadTile) (area : Marked) : List (Nat × Marked) :=
  (List.range 64).map fun k => (kDense d + k * kPitch d, spell (kForm d).size ((List.range 32).map fun n => denseAt d t area k n))

/-- The SRAM after a 2:4 tile was expanded. -/
def State.expanded (s : State) (c : CoreId) (d : Desc) (t : ReadTile) (area : Marked) : State :=
  (((s.writeRowsAt c (denseRows d t area)).1.copyScales c d).1.writeResult c d 0).1

theorem decompressTile_eq (s : State) (c : CoreId) (d : Desc) : let r := s.readTile c (kVal d) (32 * (kForm d).size) (kForm d).size 32 32
    (s.decompressTile c d).1 = (r.1.readRows c [(kIdx d, 256)]).1.expanded c d r.2.1 (r.1.readRows c [(kIdx d, 256)]).2.1.flatten := by
  have zeros : (leBytes 0 4).map (fun b => (b, false)) = List.replicate 4 ((0 : Byte), false) := rfl
  intro r
  simp only [State.expanded, State.writeResult, zeros, denseRows, denseAt, placedAt, hotAt]
  unfold State.decompressTile
  simp only [kForm, r]
  split <;> rfl

/-! ### The areas written -/

/-- The bytes of the dense rows. -/
def denseWrites (d : Desc) (t : ReadTile) (area : Marked) : List (Nat × List Byte) :=
  (List.range 64).map fun k => (kDense d + k * kPitch d, spelled (kForm d).size 32 fun n => (denseAt d t area k n).1)

theorem bytesOf_denseRows (d : Desc) (t : ReadTile) (area : Marked) : (denseRows d t area).map (fun r => (r.1, bytesOf r.2)) = denseWrites d t area := by
  simp [denseRows, denseWrites, bytesOf_spell, spelled, List.flatMap_map]

/-- The areas of a COMPRESS to dense, and what they must not meet. -/
structure DenseAreas (d : Desc) : Prop where
  pitch : 32 * (kForm d).size ≤ kPitch d
  outs : Claims.Apart [(kDense d, 64 * kPitch d), (kScaleDst d, scaleSize d), (kResult d, 4 * dBits d 44 0 1)]
  scales : Claims.Apart [(kDense d, 64 * kPitch d), (kScaleSrc d, scaleSize d)]
  fits : Fits [(kDense d, 64 * kPitch d), (kScaleDst d, scaleSize d), (kResult d, 4 * dBits d 44 0 1)]

theorem denseWrites_inArea (c : CoreId) (h : DenseAreas d) (t : ReadTile) (area : Marked) : InArea c (kDense d, 64 * kPitch d) (denseWrites d t area) :=
  InArea.rows c h.pitch fun k => by rw [length_spelled, Nat.mul_comm]

/-- The areas that a COMPRESS to dense writes. -/
def expandGroups (s : State) (c : CoreId) (d : Desc) (t : ReadTile) (area : Marked) : List ((Nat × Nat) × List (Nat × List Byte)) :=
  [((kDense d, 64 * kPitch d), denseWrites d t area), ((kScaleDst d, scaleSize d), scaleWrites s c d), ((kResult d, 4 * dBits d 44 0 1), resultWrites d 0)]

theorem expanded_placed (wf : s.mem.wf = true) (read : Reads s r) (h : DenseAreas d) (t : ReadTile) (area : Marked) :
    Placed s (r.expanded c d t area) c (expandGroups s c d t area) := by
  have first := ((Written.nil wf c).reads read).writeRowsAt (denseRows d t area)
  have second := (first.copyScales d).writeResult d 0
  have before : scaleWrites (r.writeRowsAt c (denseRows d t area)).1 c d = scaleWrites s c d :=
    scaleWrites_congr fun b hb => first.cupByte fun w hw => by
      rw [bytesOf_denseRows, List.nil_append] at hw
      exact (denseWrites_inArea c h t area).misses (out_of_apart h.scales hb) w hw
  rw [before, bytesOf_denseRows] at second
  refine Written.placed (gs := expandGroups s c d t area) ?_ ?_ h.outs h.fits
  · simpa [State.expanded, expandGroups] using second
  · simp only [expandGroups, List.mem_cons, List.not_mem_nil, or_false, forall_eq_or_imp, forall_eq]
    exact ⟨denseWrites_inArea c h t area, scaleWrites_inArea s c d, resultWrites_inArea c d _⟩

/-! ### What they hold -/

/-- Value (p, n) of the 2:4 tile. -/
def valueNum (s : State) (c : CoreId) (d : Desc) (p n : Nat) : Nat := cupNum s c (kVal d + (p * 32 + n) * (kForm d).size) (kForm d).size

/-- The index nibble of group `g` in column `n`. -/
def indexNum (s : State) (c : CoreId) (d : Desc) (g n : Nat) : Nat := field (cupNum s c (kIdx d + g * 16 + n / 2) 1) (4 * (n % 2)) 4

theorem readRows_single (wf : s.mem.wf = true) (off n : Nat) :
    bytesOf (s.readRows c [(off, n)]).2.1.flatten = (List.range n).map fun b => cupByte s c (off + b) := by
  have read := State.readRows_bytes (c := c) wf [(off, n)]
  rw [bytesOf, List.map_flatten]
  exact (congrArg List.flatten read).trans (by simp)

theorem indexPair_bytes {g n : Nat} (hg : g < 16) (hn : n < 32) : indexPair ((List.range 256).map fun b => cupByte s c (kIdx d + b)) g n
    = (indexNum s c d g n % 4, indexNum s c d g n / 4) := by
  have inside : g * 16 + n / 2 < 256 := by omega
  have small := (cupByte s c (kIdx d + (g * 16 + n / 2))).isLt
  have nibble : (if n % 2 = 0 then (cupByte s c (kIdx d + (g * 16 + n / 2))).toNat % 16 else (cupByte s c (kIdx d + (g * 16 + n / 2))).toNat / 16)
      = indexNum s c d g n := by
    rw [indexNum, field_nibble, cupNum_one, Nat.add_assoc]
    split
    · rfl
    · omega
  simp only [indexPair, List.getElem?_map, List.getElem?_range inside, Option.map_some, Option.getD_some, nibble]

/-- The number that is written at (k, n) (R137). -/
def expandedNum (s : State) (c : CoreId) (d : Desc) (i n : Nat) : Nat :=
  if kK d ≤ i ∨ kN d ≤ n then 0
  else if indexNum s c d (i / 4) n / 4 = i % 4 then valueNum s c d (2 * (i / 4) + 1) n
  else if indexNum s c d (i / 4) n % 4 = i % 4 then valueNum s c d (2 * (i / 4)) n else 0

theorem denseAt_eq (values : ∀ i j, (tileAt t i j).1 = tileNum s c (kVal d) (32 * (kForm d).size) (kForm d).size 32 32 i j)
    (index : bytesOf area = (List.range 256).map fun b => cupByte s c (kIdx d + b)) {i n : Nat} (hi : i < 64) (hn : n < 32) :
    (denseAt d t area i n).1 = expandedNum s c d i n := by
  have value {p : Nat} (hp : p < 32) : (tileAt t p n).1 = valueNum s c d p n := by
    rw [values, tileNum, if_pos ⟨hp, hn⟩, valueNum]
    ring_nf
  unfold denseAt expandedNum placedAt
  rw [index, indexPair_bytes (by omega) hn]
  dsimp only
  split
  · rfl
  · split
    · exact value (by omega)
    · split
      · exact value (by omega)
      · rfl

theorem expandedNum_lt (s : State) (c : CoreId) (d : Desc) (i n : Nat) : expandedNum s c d i n < 256 ^ (kForm d).size := by
  have zero : 0 < 256 ^ (kForm d).size := by positivity
  unfold expandedNum
  split
  · exact zero
  · split
    · exact cupNum_lt _ _
    · split
      · exact cupNum_lt _ _
      · exact zero

/-- The dense tile, the scales and a count of 0 are where they belong. -/
theorem expanded_reads (h : Placed s u c (expandGroups s c d t area)) (dense : ∀ i n, i < 64 → n < 32 → (denseAt d t area i n).1 = expandedNum s c d i n) :
    (∀ i n, i < 64 → n < 32 → cupNum u c (kDense d + i * kPitch d + n * (kForm d).size) (kForm d).size = expandedNum s c d i n)
    ∧ (dBits d 44 0 1 = 1 → cupNum u c (kResult d) 4 = 0)
    ∧ ∀ b, b < scaleSize d → cupNum u c (kScaleDst d + b) 1 = cupNum s c (kScaleSrc d + b) 1 := by
  refine ⟨fun i n hi hn => ?_, fun asked => ?_, fun b hb => ?_⟩
  · have mem : (kDense d + i * kPitch d, spelled (kForm d).size 32 fun n => (denseAt d t area i n).1) ∈ denseWrites d t area :=
      List.mem_map.mpr ⟨i, List.mem_range.mpr hi, rfl⟩
    rw [h.num (List.mem_cons_self ..) mem hn (by rw [dense i n hi hn]; exact expandedNum_lt s c d i n), dense i n hi hn]
  · exact h.result (area := (kResult d, 4 * dBits d 44 0 1)) (by simp [expandGroups]) asked (by decide)
  · exact h.scale (area := (kScaleDst d, scaleSize d)) (r := s) (by simp [expandGroups]) hb

/-- A 2:4 tile is expanded. -/
theorem compressPerform_dense {code : Nat} (wf : s.wf) (ready : UnitReady s c .mover code a) (toDense : dBits a.entry.bits 8 0 1 = 1)
    (areas : DenseAreas a.entry.bits) : let d := a.entry.bits
    let r := s.compressPerform c a
    ∃ u t area, Placed s u c (expandGroups s c d t area) ∧ (∀ i n, i < 64 → n < 32 → (denseAt d t area i n).1 = expandedNum s c d i n)
      ∧ MovFrame s r c a .done ∧ r.mem = u.mem ∧ (r.core c).mov.pruneCount = (s.core c).mov.pruneCount := by
  intro d r
  have read := readTile_reads s c (kVal d) (32 * (kForm d).size) (kForm d).size 32 32
  have values := tileAt_readTile (c := c) wf (kVal d) (32 * (kForm d).size) (kForm d).size 32 32
  have tile : (s.decompressTile c d).1 = _ := decompressTile_eq s c d
  have performs : r = ((s.decompressTile c d).1.noteBounds c .mover a.entry.id (s.decompressTile c d).2).moverDone c a.entry.id := by
    have direction : kDir a.entry.bits = true := by rw [kDir, toDense]; rfl
    simp only [r, State.compressPerform, direction, if_true, d]
  generalize s.readTile c (kVal d) (32 * (kForm d).size) (kForm d).size 32 32 = x at read values tile
  have next := State.readRows_reads (s := x.1) (c := c) [(kIdx d, 256)]
  have index := readRows_single (c := c) (read.wf wf) (kIdx d) 256
  simp only [read.cupByte] at index
  generalize x.1.readRows c [(kIdx d, 256)] = y at next index tile
  have placed := expanded_placed (c := c) wf (read.trans next) areas x.2.1 y.2.1.flatten
  have works : MoverWorks s (s.decompressTile c d).1 c a := by
    rw [tile]
    exact moverWorks_of_die placed.die
  obtain ⟨frame, mem, pruned⟩ := noteBounds_done works ready (s.decompressTile c d).2
  rw [← performs] at frame mem pruned
  rw [tile] at mem
  rw [tile, placed.core_eq] at pruned
  exact ⟨y.1.expanded c d x.2.1 y.2.1.flatten, x.2.1, y.2.1.flatten, placed, fun i n hi hn => denseAt_eq values index hi hn, frame, mem, pruned⟩

end Sys2Proof.Machine

namespace Sys2Proof.Claims

open Sys2Proof.Machine

/-- Three areas of which each two are apart. -/
theorem apart_triple {x y z : Nat × Nat} (hy : Apart [x, y]) (hz : Apart [x, z]) (rest : Apart [y, z]) : Apart [x, y, z] := by
  unfold Apart at *
  simp_all

/-- COMPRESS is performed. -/
theorem compressKeepsTheTwoLargest : CompressKeepsTheTwoLargest := by
  intro s c a wf ready good
  refine ⟨fun sparse outs values index fits => ?_, fun dense pitch first second scales fits => ?_⟩
  · obtain ⟨u, t, placed, elements, frame, mem, pruned⟩ := compressPerform_sparse wf ready sparse ⟨outs, values, index, fits⟩
    obtain ⟨tile, result, copied⟩ := compressed_reads placed elements
    refine ⟨_, exec_compress ready, frame, sameOutside_congr mem placed.outside, keptOf (kForm a.entry.bits) t, fun g j hg hj => ?_, ⟨?_, fun asked => ?_⟩,
      fun b hb => (cupNum_congr mem _ _).trans (copied b hb)⟩
    · obtain ⟨less, below⟩ := keptOf_places (kForm a.entry.bits) t g j
      obtain ⟨index, low, high⟩ := tile g j hg hj
      exact ⟨less, below, fun i hi first second => keptOf_before (el := denseNum s c a.entry.bits) elements hi first second,
        (congrArg (field · (4 * (j % 2)) 4) (cupNum_congr mem _ 1)).trans index,
        (cupNum_congr mem _ _).trans low, (cupNum_congr mem _ _).trans high⟩
    · rw [pruned, prunedOf_eq elements]
      simp only [mag_kForm good]
      rfl
    · refine ((cupNum_congr mem _ _).trans (result asked)).trans ?_
      rw [prunedOf_eq elements]
      simp only [mag_kForm good]
      rfl
  · have scale := first _ (List.mem_cons_self ..)
    have result := first _ (List.mem_cons_of_mem _ (List.mem_singleton_self _))
    obtain ⟨u, t, area, placed, elements, frame, mem, pruned⟩ := compressPerform_dense wf ready dense ⟨pitch, apart_triple scale result second, scales, fits⟩
    obtain ⟨tile, count, copied⟩ := expanded_reads placed elements
    exact ⟨_, exec_compress ready, frame, sameOutside_congr mem placed.outside, fun i j hi hj => (cupNum_congr mem _ _).trans (tile i j hi hj),
      fun asked => (cupNum_congr mem _ _).trans (count asked), fun b hb => (cupNum_congr mem _ _).trans (copied b hb), pruned⟩

end Sys2Proof.Claims

end

/-! ## SCATTER: the index list, the expert table and the walk (R149 to R151) -/

section

namespace Sys2Proof.Machine

open Sys2Proof.Claims

variable {s r u : State} {c : CoreId} {d : Desc} {a : Active}

/-! ### The index list and the expert table as they are read -/

/-- Expert `e` of the table (Table SPA-5). -/
def expertAt (s : State) (c : CoreId) (d : Desc) (e : Nat) : Expert :=
  { dest := expertNum s c d e 0 2, window := expertNum s c d e 2 1, offset := expertNum s c d e 4 4, capacity := expertNum s c d e 8 2
    rowBase := expertNum s c d e 10 2, token := expertNum s c d e 12 1 % 64, arrive := expertNum s c d e 13 1 % 64 }

theorem expertOf_bytes (s : State) (c : CoreId) (d : Desc) (e : Nat) :
    expertOf ((List.range 16).map fun b => cupByte s c (gTable d + 16 * e + b)) = expertAt s c d e := by
  have piece {p n : Nat} (h : p + n ≤ 16) : leNat ((((List.range 16).map fun b => cupByte s c (gTable d + 16 * e + b)).drop p).take n) = expertNum s c d e p n := by
    rw [map_range_drop_take _ h, expertNum, cupNum_eq]
    simp only [Nat.add_assoc]
  have first := piece (p := 0) (n := 2) (by decide)
  rw [List.drop_zero] at first
  simp only [expertOf, expertAt, first, piece (p := 2) (n := 1) (by decide), piece (p := 4) (n := 4) (by decide), piece (p := 8) (n := 2) (by decide),
    piece (p := 10) (n := 2) (by decide), piece (p := 12) (n := 1) (by decide), piece (p := 13) (n := 1) (by decide)]

/-- Numbers of two bytes that lie one after another. -/
theorem elements_numbers (wf : s.mem.wf = true) (off n : Nat) :
    (elements 2 n (s.readRows c [(off, 2 * n)]).2.1.flatten).map (·.1) = (List.range n).map fun p => cupNum s c (off + 2 * p) 2 := by
  rw [elements_eq, readRows_single wf]
  refine List.map_congr_left fun p hp => ?_
  have := List.mem_range.mp hp
  rw [map_range_drop_take _ (by omega), cupNum_eq]
  simp only [Nat.add_assoc]

/-- What a SCATTER or GATHER reads first. -/
theorem readRoutes_reads (wf : s.mem.wf = true) (d : Desc) : let r := s.readRoutes c d
    Reads s r.1 ∧ r.2.1 = (List.range (gT d * gK d)).map (choice s c d) ∧ r.2.2.1 = ((List.range (gE d)).map (expertAt s c d)).toArray := by
  have first := State.readRows_reads (s := s) (c := c) [(gIndex d, 2 * (gT d * gK d))]
  have index := elements_numbers (c := c) wf (gIndex d) (gT d * gK d)
  unfold State.readRoutes
  generalize s.readRows c [(gIndex d, 2 * (gT d * gK d))] = x at first index
  have second := State.readRows_reads (s := x.1) (c := c) ((List.range (gE d)).map fun e => (gTable d + 16 * e, 16))
  have table := State.readRows_bytes (c := c) (first.wf wf) ((List.range (gE d)).map fun e => (gTable d + 16 * e, 16))
  simp only [first.cupByte, List.map_map] at table
  refine ⟨first.trans second, index, congrArg List.toArray ?_⟩
  have experts := congrArg (List.map expertOf) table
  simp only [List.map_map, Function.comp_def, expertOf_bytes] at experts
  exact experts

/-! ### Numbers made of bits -/

/-- The number whose bit j < n is set where `p j` holds. -/
def bitSum (p : Nat → Bool) : Nat → Nat
  | 0 => 0
  | n + 1 => bitSum p n + if p n then 2 ^ n else 0

theorem bitSum_succ (p : Nat → Bool) (n : Nat) : bitSum p (n + 1) = 2 ^ n * (p n).toNat + bitSum p n := by
  rw [bitSum]
  cases p n <;> simp [Nat.add_comm]

theorem bitSum_lt (p : Nat → Bool) (n : Nat) : bitSum p n < 2 ^ n := by
  induction n with
  | zero => exact Nat.one_pos
  | succ n ih =>
    rw [bitSum, pow_succ]
    split <;> omega

theorem testBit_bitSum (p : Nat → Bool) (n j : Nat) : (bitSum p n).testBit j = (decide (j < n) && p j) := by
  induction n with
  | zero => simp [bitSum]
  | succ n ih =>
    rw [bitSum_succ, Nat.testBit_two_pow_mul_add _ (bitSum_lt p n), ih]
    rcases Nat.lt_trichotomy j n with less | rfl | more
    · simp [less, less.trans (Nat.lt_succ_self n)]
    · cases p j <;> simp
    · have far : j - n ≠ 0 := by omega
      simp [Nat.not_lt.mpr more.le, Nat.not_lt.mpr more, Nat.testBit_bool_toNat, far]

theorem bitOf_testBit (v i : Nat) : bitOf v i = v.testBit i := by
  simp only [bitOf, field, Nat.testBit_eq_decide_div_mod_eq, Nat.shiftRight_eq_div_pow, pow_one]
  rfl

theorem field_bitSum (p : Nat → Bool) (n j : Nat) : field (bitSum p n) j 1 = 1 ↔ j < n ∧ p j = true := by
  have bit : bitOf (bitSum p n) j = (decide (j < n) && p j) := by rw [bitOf_testBit, testBit_bitSum]
  rw [← beq_iff_eq, ← bitOf, bit]
  simp

theorem length_bitsSet_bitSum (p : Nat → Bool) {n w : Nat} (h : n ≤ w) : (bitsSet (bitSum p n) w).length = ∑ j ∈ Finset.range n, if p j then 1 else 0 := by
  have bits : bitsSet (bitSum p n) w = (List.range w).filter fun j => decide (j < n) && p j :=
    List.filter_congr fun j _ => by rw [bitOf_testBit, testBit_bitSum]
  obtain ⟨more, rfl⟩ := Nat.exists_eq_add_of_le h
  rw [bits, length_filter_range, Finset.sum_range_add]
  simp only [Nat.not_lt.mpr (Nat.le_add_right n _), decide_false, Bool.false_and, Bool.false_eq_true, if_false, Finset.sum_const_zero, Nat.add_zero]
  exact Finset.sum_congr rfl fun j hj => by simp [Finset.mem_range.mp hj]

/-! ### Which entries are seated -/

/-- How many entries before `p` are seated at expert `e`. -/
def taken (s : State) (c : CoreId) (d : Desc) (p e : Nat) : Nat := ((List.range p).filter fun q => seated s c d q && choice s c d q == e).length

/-- How many entries before `p` that name expert `e` are dropped. -/
def missed (s : State) (c : CoreId) (d : Desc) (p e : Nat) : Nat := ((List.range p).filter fun q => lost s c d q && choice s c d q == e).length

theorem length_filter_succ (p : Nat) (f : Nat → Bool) : ((List.range (p + 1)).filter f).length = ((List.range p).filter f).length + if f p then 1 else 0 := by
  simp only [length_filter_range, Finset.sum_range_succ]

theorem seated_iff (hE : gE d ≤ 256) (p : Nat) :
    seated s c d p = true ↔ choice s c d p < gE d ∧ earlier s c d p (choice s c d p) < expertNum s c d (choice s c d p) 8 2 := by
  simp only [seated, Bool.and_eq_true, bne_iff_ne, decide_eq_true_iff]
  constructor
  · exact And.right
  · intro h
    exact ⟨by omega, h⟩

/-- An expert is taken by as many as name it, up to its capacity (R151). -/
theorem taken_eq (hE : gE d ≤ 256) {e : Nat} (he : e < gE d) (p : Nat) : taken s c d p e = min (earlier s c d p e) (expertNum s c d e 8 2) := by
  induction p with
  | zero => simp [taken, earlier]
  | succ p ih =>
    unfold taken earlier at ih ⊢
    rw [length_filter_succ, length_filter_succ, ih, ← earlier]
    by_cases same : choice s c d p = e
    · have seat := seated_iff (s := s) (c := c) hE p
      rw [same] at seat
      by_cases free : earlier s c d p e < expertNum s c d e 8 2
      · simp [seat.mpr ⟨he, free⟩, same]
        omega
      · have none : seated s c d p = false := Bool.eq_false_iff.mpr fun h => free (seat.mp h).2
        simp [none, same]
        omega
    · simp [same]

end Sys2Proof.Machine

end

/-! ## SCATTER: the walk over the choices (R151) -/

section

namespace Sys2Proof.Machine

open Sys2Proof.Claims

variable {s : State} {c : CoreId} {d : Desc} {a : Active} {w : Walk} {p i j : Nat}

/-- What the slot map says of entry `p`. -/
def slotNum (s : State) (c : CoreId) (d : Desc) (p : Nat) : Nat :=
  if seated s c d p then (expertNum s c d (choice s c d p) 10 2 + earlier s c d p (choice s c d p)) % 65536 else 0xFFFF

/-- The row that entry `p` sends. -/
def rowItem (s : State) (c : CoreId) (d : Desc) (a : Active) (p : Nat) : NetItem :=
  let x := expertAt s c d (choice s c d p)
  { NetItem.blank .write a with
    dest := BitVec.ofNat 16 x.dest, window := BitVec.ofNat 8 x.window, offset := (x.offset + earlier s c d p (choice s c d p) * gRowBytes d) % 2 ^ 32
    loc := gRowAddr d + p / gK d * gRowPitch d, rowBytes := gRowBytes d, signal := true, sigCnt := BitVec.ofNat 6 x.token, sigInc := 1 }

/-- The walk after `p` choices. -/
structure Walked (s : State) (c : CoreId) (d : Desc) (a : Active) (p : Nat) (w : Walk) : Prop where
  used e : w.used[e]? = if e < gE d then some (taken s c d p e) else none
  dropped e : w.dropped[e]? = if e < gE d then some (missed s c d p e) else none
  slots : w.slots = (List.range p).map (slotNum s c d)
  sends : w.sends = ((List.range p).filter (seated s c d)).map (rowItem s c d a)

theorem taken_succ (p e : Nat) : taken s c d (p + 1) e = taken s c d p e + if seated s c d p = true ∧ choice s c d p = e then 1 else 0 := by
  rw [taken, length_filter_succ, ← taken]
  simp

theorem missed_succ (p e : Nat) : missed s c d (p + 1) e = missed s c d p e + if lost s c d p = true ∧ choice s c d p = e then 1 else 0 := by
  rw [missed, length_filter_succ, ← missed]
  simp

theorem seats_succ (p : Nat) : ((List.range (p + 1)).filter (seated s c d)).map (rowItem s c d a)
    = ((List.range p).filter (seated s c d)).map (rowItem s c d a) ++ if seated s c d p then [rowItem s c d a p] else [] := by
  rw [List.range_succ, List.filter_append, List.map_append]
  cases seat : seated s c d p <;> simp [seat]

theorem slots_succ (p : Nat) : (List.range (p + 1)).map (slotNum s c d) = (List.range p).map (slotNum s c d) ++ [slotNum s c d p] := by
  rw [List.range_succ, List.map_append, List.map_singleton]

/-- A choice that is neither seated nor lost. -/
theorem Walked.unused (h : Walked s c d a p w) (none : choice s c d p = 0xFFFF) :
    Walked s c d a (p + 1) { w with slots := w.slots ++ [0xFFFF] } := by
  have unseated : seated s c d p = false := by simp [seated, none]
  have kept : lost s c d p = false := by simp [lost, none]
  exact { used := fun e => by simpa [taken_succ, unseated] using h.used e
          dropped := fun e => by simpa [missed_succ, kept] using h.dropped e
          slots := by rw [slots_succ, h.slots, slotNum, unseated]; rfl
          sends := by rw [seats_succ, h.sends, unseated]; simp }

/-- A choice that is dropped. -/
theorem Walked.lost (h : Walked s c d a p w) (gone : Claims.lost s c d p = true) :
    Walked s c d a (p + 1) { w with slots := w.slots ++ [0xFFFF], dropped := w.dropped.modify (choice s c d p) (· + 1) } := by
  have unseated : seated s c d p = false := by
    simp only [Claims.lost, Bool.and_eq_true, Bool.not_eq_true'] at gone
    exact gone.2
  exact { used := fun e => by simpa [taken_succ, unseated] using h.used e
          dropped := fun e => by
            rw [Array.getElem?_modify, h.dropped, missed_succ]
            by_cases here : choice s c d p = e <;> by_cases known : e < gE d <;> simp [here, known, gone]
          slots := by rw [slots_succ, h.slots, slotNum, unseated]; rfl
          sends := by rw [seats_succ, h.sends, unseated]; simp }

/-- A choice that is seated. -/
theorem Walked.seated (h : Walked s c d a p w) (seat : Claims.seated s c d p = true) :
    Walked s c d a (p + 1) { w with
      slots := w.slots ++ [slotNum s c d p], used := w.used.modify (choice s c d p) (· + 1), sends := w.sends ++ [rowItem s c d a p] } := by
  have kept : Claims.lost s c d p = false := by simp [Claims.lost, seat]
  exact { used := fun e => by
            rw [Array.getElem?_modify, h.used, taken_succ]
            by_cases here : choice s c d p = e <;> by_cases known : e < gE d <;> simp [here, known, seat]
          dropped := fun e => by simpa [missed_succ, kept] using h.dropped e
          slots := by rw [slots_succ, h.slots]
          sends := by rw [seats_succ, h.sends, seat]; rfl }

/-- The index list as the walk sees it. -/
abbrev choices (s : State) (c : CoreId) (d : Desc) : Array Nat := ((List.range (gT d * gK d)).map (choice s c d)).toArray

/-- The expert table as the walk sees it. -/
abbrev experts (s : State) (c : CoreId) (d : Desc) : Array Expert := ((List.range (gE d)).map (expertAt s c d)).toArray

theorem entry_lt (hi : i < gT d) (hj : j < gK d) : i * gK d + j < gT d * gK d := by
  have := Nat.mul_le_mul_right (gK d) (Nat.succ_le_of_lt hi)
  rw [Nat.succ_mul] at this
  omega

theorem choices_getD {n : Nat} (hp : p < gT d * gK d) : ((choices s c d)[p]?).getD n = choice s c d p := by
  simp [hp]

theorem experts_getElem? (e : Nat) : (experts s c d)[e]? = if e < gE d then some (expertAt s c d e) else none := by
  by_cases known : e < gE d <;> simp [known]

/-- Choice `j` of token `i` (R151). -/
theorem Walked.choice (h : Walked s c d a (i * gK d + j) w) (hE : gE d ≤ 256) (hi : i < gT d) (hj : j < gK d) (b : Nat) :
    let r := walkChoice d a (choices s c d) (experts s c d) i (w, b) j
    Walked s c d a (i * gK d + j + 1) r.1 ∧ r.1.drop = w.drop ∧ r.2 = b + if Claims.lost s c d (i * gK d + j) then 2 ^ j else 0 := by
  have token : (i * gK d + j) / gK d = i := by
    rw [Nat.add_comm, Nat.add_mul_div_right _ _ (by omega), Nat.div_eq_of_lt hj, Nat.zero_add]
  unfold walkChoice
  simp only [choices_getD (entry_lt hi hj)]
  have seat := seated_iff (s := s) (c := c) hE (i * gK d + j)
  by_cases none : Claims.choice s c d (i * gK d + j) = 0xFFFF
  · rw [if_pos none]
    exact ⟨h.unused none, rfl, by simp [Claims.lost, none]⟩
  · rw [if_neg none, experts_getElem?, h.used]
    by_cases sits : Claims.seated s c d (i * gK d + j) = true
    · obtain ⟨known, free⟩ := seat.mp sits
      have row : taken s c d (i * gK d + j) (Claims.choice s c d (i * gK d + j)) = earlier s c d (i * gK d + j) (Claims.choice s c d (i * gK d + j)) := by
        rw [taken_eq hE known]
        omega
      have next := h.seated sits
      simp only [slotNum, sits, if_true, rowItem, token] at next
      simp only [if_pos known, Option.getD_some, row]
      rw [if_neg (by simp only [expertAt]; omega)]
      exact ⟨next, rfl, by simp [Claims.lost, sits]⟩
    · have gone : Claims.lost s c d (i * gK d + j) = true := by simp [Claims.lost, none, sits]
      rw [if_pos]
      · exact ⟨h.lost gone, rfl, by rw [if_pos gone]⟩
      · by_cases known : Claims.choice s c d (i * gK d + j) < gE d
        · have full : ¬ earlier s c d (i * gK d + j) (Claims.choice s c d (i * gK d + j)) < expertNum s c d (Claims.choice s c d (i * gK d + j)) 8 2 :=
            fun free => sits (seat.mpr ⟨known, free⟩)
          refine .inr ?_
          simp only [if_pos known, Option.getD_some, taken_eq hE known, expertAt]
          omega
        · exact .inl (Nat.not_lt.mp known)

/-- The drop bits of token `i`. -/
def dropNum (s : State) (c : CoreId) (d : Desc) (i : Nat) : Nat := bitSum (fun j => lost s c d (i * gK d + j)) (gK d)

/-- The first `n` choices of token `i`. -/
theorem Walked.choices (h : Walked s c d a (i * gK d) w) (hE : gE d ≤ 256) (hi : i < gT d) {n : Nat} (hn : n ≤ gK d) :
    let r := (List.range n).foldl (walkChoice d a (choices s c d) (experts s c d) i) (w, 0)
    Walked s c d a (i * gK d + n) r.1 ∧ r.1.drop = w.drop ∧ r.2 = bitSum (fun j => Claims.lost s c d (i * gK d + j)) n := by
  induction n with
  | zero => exact ⟨h, rfl, rfl⟩
  | succ n ih =>
    obtain ⟨walked, drop, bits⟩ := ih (by omega)
    rw [List.range_succ, List.foldl_append, List.foldl_cons, List.foldl_nil]
    obtain ⟨next, same, more⟩ := walked.choice hE hi (by omega) ((List.range n).foldl (walkChoice d a (Machine.choices s c d) (experts s c d) i) (w, 0)).2
    exact ⟨next, same.trans drop, by rw [more, bits, bitSum]⟩

/-- The walk's beginning. -/
def walkStart (d : Desc) : Walk :=
  { used := (List.replicate (gE d) 0).toArray, dropped := (List.replicate (gE d) 0).toArray, drop := [], slots := [], sends := [] }

/-- The first `n` tokens. -/
theorem walked_tokens (hE : gE d ≤ 256) (a : Active) {n : Nat} (hn : n ≤ gT d) :
    let w := (List.range n).foldl (walkToken d a (choices s c d) (experts s c d)) (walkStart d)
    Walked s c d a (n * gK d) w ∧ w.drop = (List.range n).map (dropNum s c d) := by
  induction n with
  | zero =>
    refine ⟨⟨fun e => ?_, fun e => ?_, ?_, ?_⟩, rfl⟩
    · simp [walkStart, taken, Array.getElem?_replicate]
    · simp [walkStart, missed, Array.getElem?_replicate]
    · simp [walkStart]
    · simp [walkStart]
  | succ n ih =>
    obtain ⟨walked, drop⟩ := ih (by omega)
    rw [List.range_succ, List.foldl_append, List.foldl_cons, List.foldl_nil]
    obtain ⟨next, same, bits⟩ := walked.choices hE (by omega) (le_refl (gK d))
    rw [← Nat.succ_mul] at next
    refine ⟨⟨next.used, next.dropped, next.slots, next.sends⟩, ?_⟩
    rw [walkToken]
    dsimp only
    rw [same, drop, bits, List.map_append]
    rfl

end Sys2Proof.Machine

end

/-! ## SCATTER is performed (R149 to R152) -/

section

namespace Sys2Proof.Machine

open Sys2Proof.Claims

variable {s u : State} {c : CoreId} {d : Desc} {a : Active} {w : Walk}

/-! ### What a good SCATTER or GATHER may name -/

/-- The bounds on the choices of a token, the experts and the count register that a good SCATTER or GATHER keeps. -/
structure GoodRoute (d : Desc) : Prop where
  choices : gK d ≤ 8
  experts : gE d ≤ 256
  count : gCountReg d = 0 ∨ (0x80 ≤ gCountReg d ∧ gCountReg d ≤ 0x8F)

theorem goodRoute_of_good {sc : Bool} (good : routeBad sc d = false) : GoodRoute d := by
  simp only [routeBad, Bool.or_eq_false_iff, Bool.not_eq_false'] at good
  obtain ⟨⟨⟨⟨⟨⟨⟨⟨⟨⟨⟨⟨-, choices⟩, experts⟩, count⟩, -⟩, -⟩, -⟩, -⟩, -⟩, -⟩, -⟩, -⟩, -⟩ := good
  refine ⟨(of_decide_eq_true choices).2, (of_decide_eq_true experts).2, ?_⟩
  simpa [within] using count

/-! ### The mover's work and counts -/

theorem mem_moverSend (s : State) (c : CoreId) (a : Active) (items : List NetItem) : (s.moverSend c a items).mem = s.mem := rfl

theorem mov_moverSend (s : State) (c : CoreId) (a : Active) (items : List NetItem) : ((s.moverSend c a items).core c).mov
    = { (s.core c).mov with work := (s.core c).mov.work ++ items, q := ((s.moverSend c a items).core c).mov.q } := by
  simp only [State.moverSend, State.moverBusy, State.setProgress, State.modQ, State.core_modMov]

theorem countReg_moverSend (s : State) (c : CoreId) (a : Active) (items : List NetItem) : ((s.moverSend c a items).core c).countReg = (s.core c).countReg := by
  simp only [State.moverSend, State.moverBusy, State.setProgress, State.modQ, State.core_modMov]

theorem MoverWorks.sent (h : MoverWorks s u c a) (items : List NetItem) : MovFrame s (u.moverSend c a items) c a .busy :=
  (h.trans (modMov_moverWorks u c a (f := fun m => { m with work := m.work ++ items }) (by intro m; rfl))).busy

theorem mem_putCount (s : State) (c : CoreId) (d : Desc) (v : Word) : (s.putCount c d v).mem = s.mem := by
  unfold State.putCount
  split <;> rfl

theorem mov_putCount (s : State) (c : CoreId) (d : Desc) (v : Word) : ((s.putCount c d v).core c).mov = (s.core c).mov := by
  unfold State.putCount
  split
  · rfl
  · rw [State.core_modCore]

/-- The count goes to the register that is named, if one is. -/
theorem countReg_putCount (h : GoodRoute d) (s : State) (c : CoreId) (v : Word) (n : Fin 16) :
    ((s.putCount c d v).core c).countReg[n] = if gCountReg d = 0x80 + n.val then v else (s.core c).countReg[n] := by
  have range := h.count
  unfold State.putCount
  by_cases none : gCountReg d = 0
  · have other : ¬ gCountReg d = 0x80 + n.val := by omega
    simp only [none, if_true, if_neg (none ▸ other)]
  · simp only [none, if_false, State.core_modCore, getElem_upd]
    refine if_congr ?_ rfl rfl
    rw [Fin.ext_iff, Fin.val_ofNat]
    omega

/-- A work item that is not begun and names the descriptor. -/
def Fresh (a : Active) (x : NetItem) : Prop := x.desc = a.entry.id ∧ x.off = a.entry.off ∧ x.spec = false ∧ x.row = 0 ∧ x.pos = 0 ∧ x.seq = 0

theorem sends_of_work {t : State} {items : List NetItem} (work : (t.core c).mov.work = (s.core c).mov.work ++ items) (fresh : ∀ x ∈ items, Fresh a x) :
    Sends s t c a (items.map itemOf) := ⟨items, work, rfl, fresh⟩

/-! ### What is sent -/

/-- The ARRIVE signal of expert `e` (log entry 43). -/
def arriveItem (s : State) (c : CoreId) (d : Desc) (a : Active) (e : Nat) : NetItem :=
  { NetItem.blank .signal a with
    dest := BitVec.ofNat 16 (expertAt s c d e).dest, window := BitVec.ofNat 8 (expertAt s c d e).window, signal := true
    sigCnt := BitVec.ofNat 6 (expertAt s c d e).arrive, sigInc := 1 }

theorem toNat_dest (s : State) (c : CoreId) (d : Desc) (e : Nat) : (BitVec.ofNat 16 (expertNum s c d e 0 2)).toNat = expertNum s c d e 0 2 := by
  rw [BitVec.toNat_ofNat, Nat.mod_eq_of_lt (show expertNum s c d e 0 2 < 2 ^ 16 from cupNum_lt _ 2)]

theorem toNat_window (s : State) (c : CoreId) (d : Desc) (e : Nat) : (BitVec.ofNat 8 (expertNum s c d e 2 1)).toNat = expertNum s c d e 2 1 := by
  rw [BitVec.toNat_ofNat, Nat.mod_eq_of_lt (show expertNum s c d e 2 1 < 2 ^ 8 from cupNum_lt _ 1)]

theorem toNat_counter (n : Nat) : (BitVec.ofNat 6 (n % 64)).toNat = n % 64 := by
  rw [BitVec.toNat_ofNat, Nat.mod_eq_of_lt (Nat.mod_lt _ (by decide))]

theorem itemOf_rowItem (s : State) (c : CoreId) (d : Desc) (a : Active) (p : Nat) : itemOf (rowItem s c d a p) =
    let e := choice s c d p
    (NetKind.write, expertNum s c d e 0 2, expertNum s c d e 2 1, (expertNum s c d e 4 4 + earlier s c d p e * gRowBytes d) % 2 ^ 32,
      gRowAddr d + p / gK d * gRowPitch d, gRowBytes d, 1, true, expertNum s c d e 12 1 % 64, 1) := by
  simp only [itemOf, rowItem, expertAt, toNat_dest, toNat_window, toNat_counter]
  rfl

theorem itemOf_arriveItem (s : State) (c : CoreId) (d : Desc) (a : Active) (e : Nat) : itemOf (arriveItem s c d a e) =
    (NetKind.signal, expertNum s c d e 0 2, expertNum s c d e 2 1, 0, 0, 0, 1, true, expertNum s c d e 13 1 % 64, 1) := by
  simp only [itemOf, arriveItem, expertAt, toNat_dest, toNat_window, toNat_counter]
  rfl

/-- The items of a SCATTER. -/
def scatterItems (s : State) (c : CoreId) (d : Desc) (a : Active) : List NetItem :=
  ((List.range (gT d * gK d)).filter (seated s c d)).map (rowItem s c d a) ++ (List.range (gE d)).map (arriveItem s c d a)

theorem scatterItems_fresh : ∀ x ∈ scatterItems s c d a, Fresh a x := fun x hx => by
  rcases List.mem_append.mp hx with hx | hx <;> obtain ⟨p, -, rfl⟩ := List.mem_map.mp hx <;> exact ⟨rfl, rfl, rfl, rfl, rfl, rfl⟩

/-! ### What is written -/

/-- The record of expert `e` (R152). -/
def recordNum (s : State) (c : CoreId) (d : Desc) (e : Nat) : Nat :=
  taken s c d (gT d * gK d) e % 65536 + 65536 * (missed s c d (gT d * gK d) e % 65536)

/-- The rows that a walk writes. -/
def walkRows (d : Desc) (w : Walk) : List (Nat × Marked) :=
  let clean := fun bs : List Byte => bs.map fun b => (b, false)
  let recs := (List.range (gE d)).flatMap fun e => leBytes ((w.used[e]?).getD 0 % 65536 + 65536 * (((w.dropped[e]?).getD 0) % 65536)) 4
  [(gDrop d, clean (w.drop.map (BitVec.ofNat 8 ·))), (gSlot d, clean (w.slots.flatMap fun x => leBytes x 2)), (gRecord d, clean recs)]

/-- The areas that a SCATTER writes. -/
def scatterGroups (s : State) (c : CoreId) (d : Desc) : List ((Nat × Nat) × List (Nat × List Byte)) :=
  [((gDrop d, gT d), [(gDrop d, (List.range (gT d)).map fun i => BitVec.ofNat 8 (dropNum s c d i))]),
    ((gSlot d, 2 * (gT d * gK d)), [(gSlot d, spelled 2 (gT d * gK d) (slotNum s c d))]),
    ((gRecord d, 4 * gE d), [(gRecord d, spelled 4 (gE d) (recordNum s c d))])]

theorem bytesOf_walkRows (walked : Walked s c d a (gT d * gK d) w) (drop : w.drop = (List.range (gT d)).map (dropNum s c d)) :
    (walkRows d w).map (fun r => (r.1, bytesOf r.2)) = (scatterGroups s c d).flatMap (·.2) := by
  have clean (bs : List Byte) : bytesOf (bs.map fun b => (b, false)) = bs := by simp [bytesOf, Function.comp_def]
  have records : ((List.range (gE d)).flatMap fun e => leBytes ((w.used[e]?).getD 0 % 65536 + 65536 * (((w.dropped[e]?).getD 0) % 65536)) 4)
      = spelled 4 (gE d) (recordNum s c d) := by
    rw [spelled, List.flatMap_def, List.flatMap_def]
    refine congrArg List.flatten (List.map_congr_left fun e he => ?_)
    rw [walked.used, walked.dropped, if_pos (List.mem_range.mp he), if_pos (List.mem_range.mp he)]
    rfl
  simp only [walkRows, records, drop, walked.slots, List.map_cons, List.map_nil, clean]
  simp [scatterGroups, spelled, List.flatMap_map, Function.comp_def]

theorem scatter_placed {r : State} (wf : s.mem.wf = true) (read : Reads s r) (walked : Walked s c d a (gT d * gK d) w)
    (drop : w.drop = (List.range (gT d)).map (dropNum s c d)) (areas : Claims.Apart ((scatterGroups s c d).map (·.1)))
    (fits : Fits ((scatterGroups s c d).map (·.1))) : Placed s (r.writeRowsAt c (walkRows d w)).1 c (scatterGroups s c d) := by
  have rows := ((Written.nil wf c).reads read).writeRowsAt (walkRows d w)
  rw [bytesOf_walkRows walked drop, List.nil_append] at rows
  refine rows.placed ?_ areas fits
  simp only [scatterGroups, List.mem_cons, List.not_mem_nil, or_false, forall_eq_or_imp, forall_eq]
  exact ⟨.whole c (by simp), .whole c (length_spelled _ _ _), .whole c (length_spelled _ _ _)⟩

theorem slotNum_lt (s : State) (c : CoreId) (d : Desc) (p : Nat) : slotNum s c d p < 256 ^ 2 := by
  unfold slotNum
  split <;> omega

/-- The slot map, the drop bitmap and the records are where they belong (R152). -/
theorem scatter_reads (h : Placed s u c (scatterGroups s c d)) (hK : gK d ≤ 8) :
    (∀ p, p < gT d * gK d → cupNum u c (gSlot d + 2 * p) 2 = slotNum s c d p)
    ∧ (∀ i j, i < gT d → (field (cupNum u c (gDrop d + i) 1) j 1 = 1 ↔ j < gK d ∧ lost s c d (i * gK d + j) = true))
    ∧ ∀ e, e < gE d → cupNum u c (gRecord d + 4 * e) 4 = recordNum s c d e := by
  refine ⟨fun p hp => ?_, fun i j hi => ?_, fun e he => ?_⟩
  · have read := h.num (g := ((gSlot d, 2 * (gT d * gK d)), [(gSlot d, spelled 2 (gT d * gK d) (slotNum s c d))])) (by simp [scatterGroups])
      (List.mem_singleton_self _) hp (slotNum_lt s c d p)
    rwa [Nat.mul_comm p 2] at read
  · have small : dropNum s c d i < 2 ^ 8 := (bitSum_lt _ _).trans_le (Nat.pow_le_pow_right Nat.two_pos hK)
    rw [h.byte (g := ((gDrop d, gT d), [(gDrop d, (List.range (gT d)).map fun i => BitVec.ofNat 8 (dropNum s c d i))])) (by simp [scatterGroups])
      (List.mem_singleton_self _) hi, BitVec.toNat_ofNat, Nat.mod_eq_of_lt small, dropNum, field_bitSum]
  · have small : recordNum s c d e < 256 ^ 4 := by
      unfold recordNum
      omega
    have read := h.num (g := ((gRecord d, 4 * gE d), [(gRecord d, spelled 4 (gE d) (recordNum s c d))])) (by simp [scatterGroups])
      (List.mem_singleton_self _) he small
    rwa [Nat.mul_comm e 4] at read

/-- The drop bits count the choices that are lost. -/
theorem lost_counted (hK : gK d ≤ 8) : (((List.range (gT d)).map (dropNum s c d)).map fun b => (bitsSet b 8).length).sum
    = ((List.range (gT d * gK d)).filter fun p => lost s c d p).length := by
  rw [List.map_map, sum_map_range, length_filter_range, sum_range_rows]
  exact Finset.sum_congr rfl fun i _ => length_bitsSet_bitSum _ hK

/-! ### The descriptor as a whole -/

/-- What a SCATTER counts. -/
def State.counted (s : State) (c : CoreId) (d : Desc) (w : Walk) : State :=
  (s.modMov c fun m => { m with
    dropCount := satAdd m.dropCount (w.drop.map fun b => (bitsSet b 8).length).sum, movedCount := satAdd m.movedCount w.sends.length }).putCount c d
    (BitVec.ofNat 32 w.sends.length)

/-- The ARRIVE signals of a table. -/
def arrivals (tab : Array Expert) (a : Active) : List NetItem :=
  tab.toList.map fun x => { NetItem.blank .signal a with
    dest := BitVec.ofNat 16 x.dest, window := BitVec.ofNat 8 x.window, signal := true, sigCnt := BitVec.ofNat 6 x.arrive, sigInc := 1 }

theorem scatterPerform_eq (s : State) (c : CoreId) (a : Active) : let d := a.entry.bits
    let r := s.readRoutes c d
    let w := (List.range (gT d)).foldl (walkToken d a r.2.1.toArray r.2.2.1) (walkStart d)
    let x := r.1.writeRowsAt c (walkRows d w)
    s.scatterPerform c a = ((x.1.noteBounds c .mover a.entry.id (r.2.2.2 ++ x.2)).counted c d w).moverSend c a (w.sends ++ arrivals r.2.2.1 a) := by
  intro d r w x
  rfl

theorem arrivals_experts (s : State) (c : CoreId) (d : Desc) (a : Active) : arrivals (experts s c d) a = (List.range (gE d)).map (arriveItem s c d a) := by
  simp [arrivals, arriveItem, Function.comp_def]

theorem counted_moverWorks (s : State) (c : CoreId) (a : Active) (d : Desc) (w : Walk) : MoverWorks s (s.counted c d w) c a :=
  (modMov_moverWorks s c a (by intro m; rfl)).trans (putCount_moverWorks _ c a d _)

theorem exec_scatter (ready : UnitReady s c .mover 0x22 a) : exec (.scatter c .perform) s = .next (s.scatterPerform c a) := by
  have act : exec (.scatter c .perform) s = ev s fun s => s.moverRow c .scatter fun s a => s.scatterPerform c a := rfl
  rw [act, ev_powered s _ ready.1, moverRow_acts ready kindOf_scatter]

/-- A SCATTER writes its areas, counts and sends. -/
theorem scatterPerform_placed (wf : s.wf) (good : GoodRoute a.entry.bits) (areas : Claims.Apart ((scatterGroups s c a.entry.bits).map (·.1)))
    (fits : Fits ((scatterGroups s c a.entry.bits).map (·.1))) : let d := a.entry.bits
    let t := s.scatterPerform c a
    let moved := ((List.range (gT d * gK d)).filter (seated s c d)).length
    ∃ u, Placed s u c (scatterGroups s c d) ∧ t.mem = u.mem ∧ MovFrame s t c a .busy
      ∧ (t.core c).mov.dropCount = satAdd (s.core c).mov.dropCount ((List.range (gT d * gK d)).filter fun p => lost s c d p).length
      ∧ (t.core c).mov.movedCount = satAdd (s.core c).mov.movedCount moved
      ∧ (t.core c).mov.work = (s.core c).mov.work ++ scatterItems s c d a
      ∧ ∀ n : Fin 16, (t.core c).countReg[n] = if gCountReg d = 0x80 + n.val then BitVec.ofNat 32 moved else (s.core c).countReg[n] := by
  intro d t moved
  have performs : t = _ := scatterPerform_eq s c a
  obtain ⟨read, index, table⟩ := readRoutes_reads (c := c) wf d
  rw [index, table] at performs
  generalize s.readRoutes c d = r at read performs
  obtain ⟨walked, drop⟩ := walked_tokens (s := s) (c := c) (d := d) good.experts a (le_refl (gT d))
  generalize (List.range (gT d)).foldl (walkToken d a (choices s c d) (experts s c d)) (walkStart d) = w at walked drop performs
  have placed := scatter_placed (c := c) wf read walked drop areas fits
  have sent : w.sends.length = moved := by rw [walked.sends, List.length_map]
  rw [arrivals_experts, walked.sends, ← scatterItems] at performs
  generalize r.1.writeRowsAt c (walkRows d w) = x at placed performs
  have works : MoverWorks s ((x.1.noteBounds c .mover a.entry.id (r.2.2.2 ++ x.2)).counted c d w) c a :=
    ((moverWorks_of_die placed.die).trans (noteBounds_moverWorks x.1 c a _)).trans (counted_moverWorks _ c a d w)
  have lostNum : (w.drop.map fun b => (bitsSet b 8).length).sum = _ :=
    (congrArg (fun l => (l.map fun b => (bitsSet b 8).length).sum) drop).trans (lost_counted good.choices)
  refine ⟨x.1, placed, ?_, ?_, ?_, ?_, ?_, fun n => ?_⟩
  · rw [performs, mem_moverSend, State.counted, mem_putCount]
    exact mem_noteBounds ..
  · rw [performs]
    exact works.sent _
  · rw [performs, mov_moverSend, State.counted, mov_putCount, State.core_modMov, mov_noteBounds, placed.core_eq, lostNum]
  · rw [performs, mov_moverSend, State.counted, mov_putCount, State.core_modMov, mov_noteBounds, placed.core_eq, sent]
  · rw [performs, mov_moverSend, State.counted, mov_putCount, State.core_modMov, mov_noteBounds, placed.core_eq]
  · rw [performs]
    simp only [countReg_moverSend, State.counted, countReg_putCount good, State.core_modMov, countReg_noteBounds, placed.core_eq, sent, d]

end Sys2Proof.Machine

end

/-! ## GATHER is performed (R155) -/

section

namespace Sys2Proof.Machine

open Sys2Proof.Claims

variable {s r t u : State} {c : CoreId} {d : Desc} {a : Active} {l : List Nat} {n : Nat}

/-! ### Rows of zeros -/

/-- Byte `x` lies in a row of `n` bytes at one of the offsets and in Cupola. -/
def InRows (c : CoreId) (l : List Nat) (n x : Nat) : Prop := ∃ o ∈ l, coreBase c + o ≤ x ∧ x < coreBase c + o + n ∧ x < coreBase c + 0x600000

/-- Rows of `n` zeros were written at the offsets; they may share bytes. -/
structure Zeroed (s t : State) (c : CoreId) (l : List Nat) (n : Nat) : Prop where
  die : t = { s with mem := t.mem, blf := t.blf }
  wf : t.mem.wf = true
  inside : ∀ x, InRows c l n x → t.mem.byteAt x = 0
  outside : ∀ x, ¬ InRows c l n x → t.mem.byteAt x = s.mem.byteAt x

theorem zeroed_nil (wf : s.mem.wf = true) (read : Reads s r) (c : CoreId) (n : Nat) : Zeroed s r c [] n :=
  ⟨read.die, read.wf wf, fun _ ⟨_, row, _⟩ => absurd row List.not_mem_nil, fun _ _ => read.byteAt _⟩

theorem inRows_append (o x : Nat) : InRows c (l ++ [o]) n x ↔ InRows c l n x ∨ (coreBase c + o ≤ x ∧ x < coreBase c + o + n ∧ x < coreBase c + 0x600000) := by
  simp [InRows, or_and_right, exists_or]

/-- One more row of zeros. -/
theorem Zeroed.row (h : Zeroed s t c l n) (o : Nat) : Zeroed s (t.cupWrite c o (List.replicate n (0, false))) c (l ++ [o]) n := by
  have bytes : bytesOf (List.replicate n ((0 : Byte), false)) = List.replicate n 0 := by simp [bytesOf]
  obtain ⟨die, wf, inside, outside⟩ := State.cupWrite_clipped h.wf c o (List.replicate n (0, false))
  rw [bytes] at inside outside
  have covers (x : Nat) : Covers c o (List.replicate n 0) x ↔ coreBase c + o ≤ x ∧ x < coreBase c + o + n ∧ x < coreBase c + 0x600000 := by
    rw [Covers, List.length_replicate]
  refine ⟨by rw [die, h.die], wf, fun x hx => ?_, fun x hx => ?_⟩
  · by_cases here : Covers c o (List.replicate n 0) x
    · rw [inside x here]
      simp
    · rw [outside x here, h.inside x (((inRows_append o x).mp hx).resolve_right fun within => here ((covers x).mpr within))]
  · obtain ⟨before, last⟩ := not_or.mp fun some => hx ((inRows_append o x).mpr some)
    rw [outside x fun here => last ((covers x).mp here), h.outside x before]

theorem writeRowsAt_zeroed (wf : s.mem.wf = true) (read : Reads s r) (l : List Nat) :
    Zeroed s (r.writeRowsAt c (l.map fun o => (o, List.replicate n (0, false)))).1 c l n := by
  induction l using List.reverseRecOn with
  | nil => exact zeroed_nil wf read c n
  | append_singleton l o ih =>
    have next := ih.row o
    simpa [State.writeRowsAt] using next

theorem Zeroed.sameOutside (h : Zeroed s t c l n) : SameOutside s t c (l.map fun o => (o, n)) := fun b hb => by
  refine h.outside b fun ⟨o, ho, low, high, _⟩ => ?_
  have out := hb (o, n) (List.mem_map_of_mem ho)
  dsimp only at out
  omega

/-! ### The rows of a GATHER -/

/-- The slot that entry `p` of the slot map names. -/
def gatherSlot (s : State) (c : CoreId) (d : Desc) (p : Nat) : Nat := cupNum s c (gSlot d + 2 * p) 2

/-- Row `p` is read from a slot. -/
def gatherFar (s : State) (c : CoreId) (d : Desc) (p : Nat) : Bool := gatherSlot s c d p != 0xFFFF && decide (choice s c d p < gE d)

/-- Where row `p` goes. -/
def gatherRow (d : Desc) (p : Nat) : Nat := gRowAddr d + p * gRowPitch d

/-- The read of a row at `dst` from slot `n` of the expert. -/
def slotItem (d : Desc) (a : Active) (e : Expert) (n dst : Nat) : NetItem :=
  { NetItem.blank .read a with
    dest := BitVec.ofNat 16 e.dest, window := BitVec.ofNat 8 e.window
    offset := (((e.offset : Int) + ((n : Int) - e.rowBase) * gRowBytes d) % 4294967296).toNat, loc := dst, rowBytes := gRowBytes d }

/-- The read of row `p`. -/
def gatherItem (s : State) (c : CoreId) (d : Desc) (a : Active) (p : Nat) : NetItem :=
  slotItem d a (expertAt s c d (choice s c d p)) (gatherSlot s c d p) (gatherRow d p)

/-- A row of a GATHER: where it goes, and its read if it has a slot. -/
def routeRow (d : Desc) (a : Active) (tab : Array Expert) (x : (Nat × Nat) × Nat) : Nat × Option NetItem :=
  match tab[x.1.1]? with
  | some e => if x.1.2 = 0xFFFF then (gatherRow d x.2, none) else (gatherRow d x.2, some (slotItem d a e x.1.2 (gatherRow d x.2)))
  | none => (gatherRow d x.2, none)

theorem routeRow_experts (p : Nat) : routeRow d a (experts s c d) ((choice s c d p, gatherSlot s c d p), p)
    = (gatherRow d p, if gatherFar s c d p then some (gatherItem s c d a p) else none) := by
  unfold routeRow gatherFar
  simp only [experts_getElem?]
  by_cases known : choice s c d p < gE d
  · by_cases empty : gatherSlot s c d p = 0xFFFF <;> simp [known, empty, gatherItem]
  · simp [known]

theorem zip_range {α β : Type} (f : Nat → α) (g : Nat → β) (n : Nat) :
    (((List.range n).map f).zip ((List.range n).map g)).zipIdx = (List.range n).map fun p => ((f p, g p), p) := by
  apply List.ext_getElem
  · simp
  · intro i _ _
    simp

/-- The rows of a GATHER. -/
def gatherRows (s : State) (c : CoreId) (d : Desc) (a : Active) : List (Nat × Option NetItem) :=
  (List.range (gT d * gK d)).map fun p => (gatherRow d p, if gatherFar s c d p then some (gatherItem s c d a p) else none)

/-- The rows that become +0. -/
def zeroRows (s : State) (c : CoreId) (d : Desc) : List Nat := ((List.range (gT d * gK d)).filter fun p => !gatherFar s c d p).map (gatherRow d)

theorem Zeroed.byte (h : Zeroed s t c (zeroRows s c d) n) {p b : Nat} (hp : p < gT d * gK d) (near : gatherFar s c d p = false) (hb : b < n)
    (below : gatherRow d p + b < 0x600000) : t.mem.byteAt (coreBase c + gatherRow d p + b) = 0 := by
  have row : gatherRow d p ∈ zeroRows s c d := List.mem_map_of_mem (List.mem_filter.mpr ⟨List.mem_range.mpr hp, by rw [near]; rfl⟩)
  exact h.inside _ ⟨_, row, by omega, by omega, by omega⟩

/-- The reads of a GATHER. -/
def gatherItems (s : State) (c : CoreId) (d : Desc) (a : Active) : List NetItem :=
  ((List.range (gT d * gK d)).filter (gatherFar s c d)).map (gatherItem s c d a)

theorem gatherRows_none (s : State) (c : CoreId) (d : Desc) (a : Active) (bs : Marked) :
    ((gatherRows s c d a).filter fun r => r.2.isNone).map (fun r => (r.1, bs)) = (zeroRows s c d).map fun o => (o, bs) := by
  have none (p : Nat) : (if gatherFar s c d p then some (gatherItem s c d a p) else none).isNone = !gatherFar s c d p := by
    cases gatherFar s c d p <;> rfl
  simp only [gatherRows, zeroRows, List.filter_map, List.map_map, Function.comp_def, none]

theorem gatherRows_some (s : State) (c : CoreId) (d : Desc) (a : Active) : (gatherRows s c d a).filterMap (·.2) = gatherItems s c d a := by
  rw [gatherRows, gatherItems, List.filterMap_map]
  induction List.range (gT d * gK d) with
  | nil => rfl
  | cons p l ih => cases far : gatherFar s c d p <;> simpa [Function.comp_def, far] using ih

theorem itemOf_gatherItem (s : State) (c : CoreId) (d : Desc) (a : Active) (p : Nat) : itemOf (gatherItem s c d a p) =
    let e := choice s c d p
    (NetKind.read, expertNum s c d e 0 2, expertNum s c d e 2 1,
      (((expertNum s c d e 4 4 : Int) + ((gatherSlot s c d p : Int) - expertNum s c d e 10 2) * gRowBytes d) % 4294967296).toNat,
      gatherRow d p, gRowBytes d, 1, false, 0, 0) := by
  simp only [itemOf, gatherItem, slotItem, expertAt, toNat_dest, toNat_window]
  rfl

theorem gatherItems_fresh : ∀ x ∈ gatherItems s c d a, Fresh a x := fun x hx => by
  obtain ⟨p, -, rfl⟩ := List.mem_map.mp hx
  exact ⟨rfl, rfl, rfl, rfl, rfl, rfl⟩

theorem gatherItems_isEmpty (s : State) (c : CoreId) (d : Desc) (a : Active) :
    (gatherItems s c d a).isEmpty = (List.range (gT d * gK d)).all fun p => !gatherFar s c d p := by
  rw [Bool.eq_iff_iff]
  simp [gatherItems, List.isEmpty_iff, List.filter_eq_nil_iff]

/-! ### The descriptor as a whole -/

/-- The count register of a GATHER holds a value of the model's choice. -/
def State.gatherCounted (s : State) (c : CoreId) (d : Desc) : State :=
  if gCountReg d = 0 then s else (s.putCount c d (Config.gatherCount s.free)).takeFree

/-- A GATHER ends, or waits for its rows. -/
def State.gatherSent (s : State) (c : CoreId) (a : Active) (items : List NetItem) : State :=
  if items.isEmpty then s.moverDone c a.entry.id else s.moverSend c a items

theorem gatherPerform_eq (s : State) (c : CoreId) (a : Active) : let d := a.entry.bits
    let r := s.readRoutes c d
    let m := r.1.readRows c [(gSlot d, 2 * (gT d * gK d))]
    let rows := (r.2.1.zip ((elements 2 (gT d * gK d) m.2.1.flatten).map (·.1))).zipIdx.map (routeRow d a r.2.2.1)
    let x := m.1.writeRowsAt c ((rows.filter fun r => r.2.isNone).map fun r => (r.1, List.replicate (gRowBytes d) (0, false)))
    s.gatherPerform c a = ((x.1.noteBounds c .mover a.entry.id (r.2.2.2 ++ m.2.2 ++ x.2)).gatherCounted c d).gatherSent c a (rows.filterMap (·.2)) := by
  intro d r m rows x
  rfl

theorem gatherCounted_moverWorks (s : State) (c : CoreId) (a : Active) (d : Desc) : MoverWorks s (s.gatherCounted c d) c a := by
  unfold State.gatherCounted
  split
  · exact moverWorks_of_die rfl
  · exact (putCount_moverWorks s c a d _).trans (takeFree_moverWorks _ c a)

theorem mem_gatherCounted (s : State) (c : CoreId) (d : Desc) : (s.gatherCounted c d).mem = s.mem := by
  unfold State.gatherCounted
  split
  · rfl
  · exact mem_putCount s c d _

theorem mov_gatherCounted (s : State) (c : CoreId) (d : Desc) : ((s.gatherCounted c d).core c).mov = (s.core c).mov := by
  unfold State.gatherCounted
  split
  · rfl
  · exact mov_putCount s c d _

theorem countReg_gatherCounted (h : GoodRoute d) (s : State) (c : CoreId) {n : Fin 16} (other : gCountReg d ≠ 0x80 + n.val) :
    ((s.gatherCounted c d).core c).countReg[n] = (s.core c).countReg[n] := by
  unfold State.gatherCounted
  split
  · rfl
  · exact (countReg_putCount h s c _ n).trans (if_neg other)

theorem MoverWorks.gatherSent {code : Nat} (h : MoverWorks s u c a) (ready : UnitReady s c .mover code a) (items : List NetItem) :
    MovFrame s (u.gatherSent c a items) c a (if items.isEmpty then .done else .busy) := by
  unfold State.gatherSent
  split
  · exact h.done ready
  · exact h.sent items

theorem mem_gatherSent (s : State) (c : CoreId) (a : Active) (items : List NetItem) : (s.gatherSent c a items).mem = s.mem := by
  unfold State.gatherSent
  split <;> rfl

theorem work_gatherSent (s : State) (c : CoreId) (a : Active) (items : List NetItem) :
    ((s.gatherSent c a items).core c).mov.work = (s.core c).mov.work ++ items := by
  unfold State.gatherSent
  split
  case isTrue none => rw [mov_moverDone, List.isEmpty_iff.mp none, List.append_nil]
  case isFalse some => rw [mov_moverSend]

theorem countReg_gatherSent (s : State) (c : CoreId) (a : Active) (items : List NetItem) :
    ((s.gatherSent c a items).core c).countReg = (s.core c).countReg := by
  unfold State.gatherSent
  split
  · simp only [State.moverDone, State.modQ, State.core_modMov]
  · exact countReg_moverSend s c a items

theorem exec_gather (ready : UnitReady s c .mover 0x21 a) : exec (.gather c .perform) s = .next (s.gatherPerform c a) := by
  have act : exec (.gather c .perform) s = ev s fun s => s.moverRow c .gather fun s a => s.gatherPerform c a := rfl
  rw [act, ev_powered s _ ready.1, moverRow_acts ready kindOf_gather]

/-- A GATHER zeroes the rows without a slot and reads the others. -/
theorem gatherPerform_zeroed {code : Nat} (wf : s.wf) (ready : UnitReady s c .mover code a) (good : GoodRoute a.entry.bits) : let d := a.entry.bits
    let t := s.gatherPerform c a
    ∃ u, Zeroed s u c (zeroRows s c d) (gRowBytes d) ∧ t.mem = u.mem
      ∧ MovFrame s t c a (if (List.range (gT d * gK d)).all (fun p => !gatherFar s c d p) then .done else .busy)
      ∧ (t.core c).mov.work = (s.core c).mov.work ++ gatherItems s c d a
      ∧ ∀ n : Fin 16, gCountReg d ≠ 0x80 + n.val → (t.core c).countReg[n] = (s.core c).countReg[n] := by
  intro d t
  have performs : t = _ := gatherPerform_eq s c a
  obtain ⟨read, index, table⟩ := readRoutes_reads (c := c) wf d
  rw [index, table] at performs
  generalize s.readRoutes c d = r at read performs
  have second := State.readRows_reads (s := r.1) (c := c) [(gSlot d, 2 * (gT d * gK d))]
  have slots := elements_numbers (c := c) (read.wf wf) (gSlot d) (gT d * gK d)
  simp only [read.cupNum] at slots
  rw [slots, zip_range] at performs
  generalize r.1.readRows c [(gSlot d, 2 * (gT d * gK d))] = m at second performs
  have rows : ((List.range (gT d * gK d)).map fun p => ((choice s c d p, cupNum s c (gSlot d + 2 * p) 2), p)).map (routeRow d a (experts s c d))
      = gatherRows s c d a := by
    rw [List.map_map]
    exact List.map_congr_left fun p _ => routeRow_experts p
  rw [rows, gatherRows_none, gatherRows_some] at performs
  have zeroed := writeRowsAt_zeroed (c := c) (n := gRowBytes d) wf (read.trans second) (zeroRows s c d)
  generalize m.1.writeRowsAt c ((zeroRows s c d).map fun o => (o, List.replicate (gRowBytes d) (0, false))) = x at zeroed performs
  have works :=
    ((moverWorks_of_die (c := c) (a := a) zeroed.die).trans (noteBounds_moverWorks x.1 c a (r.2.2.2 ++ m.2.2 ++ x.2))).trans (gatherCounted_moverWorks _ c a d)
  have same (k : CoreId) : x.1.core k = s.core k := by
    rw [zeroed.die]
    rfl
  refine ⟨x.1, zeroed, ?_, ?_, ?_, fun n other => ?_⟩
  · rw [performs, mem_gatherSent, mem_gatherCounted]
    exact mem_noteBounds ..
  · rw [performs, ← gatherItems_isEmpty s c d a]
    exact works.gatherSent ready _
  · rw [performs, work_gatherSent, mov_gatherCounted, mov_noteBounds, same]
  · rw [performs, countReg_gatherSent]
    exact (countReg_gatherCounted good _ c other).trans (by rw [countReg_noteBounds, same])

end Sys2Proof.Machine

namespace Sys2Proof.Claims

open Sys2Proof.Machine

/-- SCATTER and GATHER are performed. -/
theorem scatterAndGatherRouteTheRows : ScatterAndGatherRouteTheRows := by
  intro s c a wf
  refine ⟨fun ready good areas fits => ?_, fun ready good => ?_⟩
  · have route := goodRoute_of_good good
    obtain ⟨u, placed, mem, frame, dropped, counted, work, register⟩ := scatterPerform_placed (c := c) wf route areas fits
    obtain ⟨slots, drops, records⟩ := scatter_reads placed route.choices
    refine ⟨_, exec_scatter ready, frame, sameOutside_congr mem placed.outside, fun p hp => (cupNum_congr mem _ _).trans (slots p hp), fun i j hi _ => ?_,
      fun e he => (cupNum_congr mem _ _).trans (records e he), dropped, counted, register, ?_⟩
    · rw [cupNum_congr mem]
      exact drops i j hi
    · have sends := sends_of_work work scatterItems_fresh
      simp only [scatterItems, List.map_append, List.map_map, Function.comp_def, itemOf_rowItem, itemOf_arriveItem] at sends
      exact sends
  · obtain ⟨u, zeroed, mem, frame, work, register⟩ := gatherPerform_zeroed wf ready (goodRoute_of_good good)
    have outside := sameOutside_congr mem zeroed.sameOutside
    rw [zeroRows, List.map_map] at outside
    refine ⟨_, exec_gather ready, frame, outside, fun p b hp near hb below => ?_, register, ?_⟩
    · rw [mem]
      exact zeroed.byte hp near hb below
    · have sends := sends_of_work work gatherItems_fresh
      simp only [gatherItems, List.map_map, Function.comp_def, itemOf_gatherItem] at sends
      exact sends

end Sys2Proof.Claims

open Sys2Proof.Claims

/-- Settles O23: a COMPRESS writes areas that share no byte, so each value, index, scale and count is read back as written, and of the four places of a
group the two kept outrank the others; a SCATTER seats a choice exactly while its expert has slots left, by induction over the choices; a GATHER writes
zeros where an entry has no slot and reads the others. -/
theorem compressedAndRoutedRowsArePlaced : Obligations.CompressedAndRoutedRowsArePlaced :=
  ⟨compressKeepsTheTwoLargest, scatterAndGatherRouteTheRows⟩

end
